-- ==== Sys2Proof/Word.lean ====
section
/-! DEFINITION. The word types of the block and their plainest arithmetic (R3 to R7, R16). -/
namespace Sys2Proof

/-- A control-space register: 32 bits (R16). -/
abbrev Word := BitVec 32
/-- One byte of a packet, an image, a cell or a memory. -/
abbrev Byte := BitVec 8
/-- Device time and step values: 64 bits of nanoseconds above a 32-bit binary fraction (R10). -/
abbrev Time96 := BitVec 96
/-- 64 bits of nanoseconds, or one user-data word of a block memory. -/
abbrev DWord := BitVec 64

end Sys2Proof
end

