-- ==== Sys2Proof/Config.lean ====
section
/-! DEFINITION. What a device or the outside fixes for the block: the vocabulary of operands, the values that one
device is made with, and the free values the spec leaves open (opaque constants: nothing can evaluate them). -/
namespace Sys2Proof

/-- The four transports of the hive (R510, R544): SPI, I2C, fabric endpoint 48 (with the request's source endpoint) and JTAG. -/
inductive Via where
  | spi
  | i2c
  | ep48 (src : Fin 52)
  | jtag
  deriving DecidableEq, Repr

/-- The two ports of a block memory (R83). -/
inductive BramSide where
  | a
  | b
  deriving DecidableEq, Repr

/-- What user logic presents at one block-memory port at an edge with EN = 1 (R83). -/
inductive BramOp where
  | read (addr : BitVec 15)
  | write (addr : BitVec 15) (data : BitVec 72)
  deriving DecidableEq, Repr

/-- The write echo of a port, set by the image (R83). -/
inductive Echo where
  | new
  | old
  | none
  deriving DecidableEq, Repr, Inhabited

/-- The soft errors present in a stored row as it is read (R88): none, one bit, or two bits. -/
inductive EccState where
  | clean
  | single
  | double
  deriving DecidableEq, Repr

/-- What user logic does to an I/O delay line in one cycle of the I/O cell's clock (R104). -/
inductive DelayOp where
  | load (tap : Fin 512)
  | up
  | down
  | hold
  deriving DecidableEq, Repr

/-- What user logic presents at one port of a block memory (R83): no edge of the port's clock, an edge with EN = 0, or an
edge with EN = 1. -/
inductive PortEdge where
  | still
  | idle
  | op (x : BramOp)
  deriving DecidableEq, Repr

/-- A user access on port A at the very instant of the window engine's access to the same row (R84, R92): its operation,
and whether its edge came later. -/
structure WinClash where
  op : BramOp
  aLater : Bool
  deriving DecidableEq, Repr

/-- What user logic presents to an arithmetic block at an edge (R99, R100): the operands of single mode with PSUB, those
of dual mode, and LOAD. -/
structure ArithOps where
  a : BitVec 27
  b : BitVec 27
  d : BitVec 27
  psub : Bool
  a1 : BitVec 18
  b1 : BitVec 18
  a2 : BitVec 18
  b2 : BitVec 18
  load : Bool
  deriving DecidableEq, Repr

/-! ## What an image makes of the logic of a region (R55 to R74, R99 to R104)

A wire of local or cluster routing has one driver (R61), so an image is a choice of driver for every input. -/

/-- The outputs of a logic cell (R55 to R59). -/
inductive CellOut where
  | lf
  | la
  | lb
  | ffa
  | ffb
  | q
  | q63
  | co
  deriving DecidableEq, Repr

/-- The outputs of a block-memory port (R83, R85, R88). -/
inductive MemOut where
  | dout (k : Nat)
  | busy
  | corr
  | uncorr
  deriving DecidableEq, Repr

/-- The outputs of a queue controller (R94). -/
inductive QueueOut where
  | full
  | almostFull
  | overflow
  | wlevel (k : Nat)
  | empty
  | almostEmpty
  | underflow
  | rlevel (k : Nat)
  deriving DecidableEq, Repr

/-- The RX_ signals of an endpoint interface (R133). -/
inductive RxOut where
  | valid
  | data (k : Nat)
  | flow (k : Nat)
  | src (k : Nat)
  | som
  | eom
  | bytes (k : Nat)
  | cls (k : Nat)
  | aspace (k : Nat)
  | err
  | acc
  deriving DecidableEq, Repr

/-- What the scheduler drives at a dispatch port (R452). -/
inductive DispOut where
  | callReady
  | resValid
  | resCode (k : Nat)
  | resHandle (k : Nat)
  | resCookie (k : Nat)
  | resAux (k : Nat)
  | pfValid
  | preempt
  deriving DecidableEq, Repr

/-- The driver of an input inside a region: a constant, a cell output, a global line of the region or of the chip, a
block memory, a queue, an arithmetic block (bit k of P_OUT, or OVF), an I/O cell's input register (the bit of the rising
or of the falling edge), GPIO_IRQ, what the fabric drives at side A or B (`side`: B), what the scheduler drives at the
dispatch port in a slot of the region record, or bit k of what else its interfaces present, the control port's among it. -/
inductive Sig where
  | const (b : Bool)
  | cell (c : Nat) (o : CellOut)
  | line (l : Nat)
  | chipLine (l : Nat)
  | mem (m : Nat) (p : BramSide) (o : MemOut)
  | queue (m : Nat) (o : QueueOut)
  | pOut (b k : Nat)
  | ovf (b : Nat)
  | pin (i : Nat) (fall : Bool)
  | irq (i : Nat)
  | txReady (side : Bool)
  | txQready (side : Bool)
  | rx (side : Bool) (o : RxOut)
  | disp (slot : Nat) (o : DispOut)
  | iface (k : Nat)
  deriving DecidableEq, Repr, Inhabited

/-- The D input of a flip-flop (R56). -/
inductive FFSrc where
  | lf
  | la
  | lb
  | direct
  deriving DecidableEq, Repr, Inhabited

/-- The reset source of a flip-flop (R56). -/
inductive RstSrc where
  | routed (s : Sig)
  | net (k : Fin 4)
  deriving DecidableEq, Repr, Inhabited

/-- One flip-flop of a cell (R56). -/
structure FFCfg where
  src : FFSrc
  direct : Sig
  ce : Sig
  async : Bool
  reset : RstSrc
  deriving DecidableEq, Repr, Inhabited

def FFCfg.plain : FFCfg :=
  { src := .direct, direct := .const false, ce := .const false, async := false, reset := .routed (.const false) }

/-- One logic cell (R55 to R60): shift-register mode, dual mode, the LUT bits, the drivers of I[5:0] (ADDR[5:0] in
shift-register mode), of SD (none: Q63 of the cell before it in its block) and of the register's CE, the tree that its
image connects to its clock, and its flip-flops. -/
structure CellCfg where
  shift : Bool
  dual : Bool
  table : BitVec 64
  ins : List Sig
  sd : Option Sig
  ce : Sig
  tree : Option (Fin 16)
  ffa : FFCfg
  ffb : FFCfg
  deriving DecidableEq, Repr, Inhabited

def CellCfg.plain : CellCfg :=
  { shift := false, dual := false, table := 0, ins := [], sd := some (.const false), ce := .const false, tree := none,
    ffa := .plain, ffb := .plain }

/-- The chain input of a block (R57): the block before it in its cluster, or what the image selects. -/
inductive ChainIn where
  | previous
  | driven (s : Sig)
  deriving DecidableEq, Repr, Inhabited

/-- A tap of a global line (R63). -/
inductive TapMode where
  | off
  | steady
  | dynamic
  deriving DecidableEq, Repr

structure TapCfg where
  mode : TapMode
  data : Sig
  enable : Sig
  deriving DecidableEq, Repr

def TapCfg.off : TapCfg := { mode := .off, data := .const false, enable := .const false }

/-- What a chip-wide tap or a reset driver does while its region is frozen (R74). -/
inductive Hold where
  | last
  | zero
  | one
  deriving DecidableEq, Repr, Inhabited

/-- The source of a global clock tree (R69); `div` is log2 of the divisor of a lane's clock. -/
inductive TreeSrc where
  | none
  | pin (k : Fin 16)
  | laneTx (n : Fin 16) (div : Fin 4)
  | laneRx (n : Fin 16) (div : Fin 4)
  | fclk4
  | fclk8
  deriving DecidableEq, Repr, Inhabited

/-- The source of a global reset net (R72): an HP pin, or the reset driver of a region. -/
inductive NetSrc where
  | none
  | pin (p : Fin 192)
  | driver (n : Fin 12)
  deriving DecidableEq, Repr, Inhabited

/-- One I/O cell (R103, R104): double data rate of its input and of its output, its tree, the drivers of the two output
bits and of the output enable, and the initial taps of its delay lines. -/
structure IoCfg where
  ddrIn : Bool
  ddrOut : Bool
  tree : Option (Fin 16)
  rise : Sig
  fall : Sig
  oe : Sig
  delayIn : Fin 512
  delayOut : Fin 512
  deriving DecidableEq, Repr, Inhabited

def IoCfg.plain : IoCfg :=
  { ddrIn := false, ddrOut := false, tree := none, rise := .const false, fall := .const false, oe := .const false,
    delayIn := 0, delayOut := 0 }

/-- What a region has once: its reset driver and the hold value of it, the drivers of its clock-gate enables, and those of
TX_QFLOW at side A and at side B (R71, R72, R74, R123). -/
structure RgnCfg where
  driver : Sig
  driverHold : Hold
  gates : List Sig
  qflowA : List Sig
  qflowB : List Sig
  deriving DecidableEq, Repr, Inhabited

def RgnCfg.plain : RgnCfg := { driver := .const false, driverHold := .last, gates := [], qflowA := [], qflowB := [] }

/-- The settings of one block memory, which its image makes (R82, R83, R87, R94). -/
structure BramCfg where
  /-- log2 of the words per row, for ports A and B: 6 (width 1) down to 0 (width 72). -/
  shiftA : Nat
  shiftB : Nat
  outRegA : Bool
  outRegB : Bool
  echoA : Echo
  echoB : Echo
  ecc : Bool
  /-- The trees that clock the two ports; one tree for both is the single-clock configuration. -/
  treeA : Option (Fin 16)
  treeB : Option (Fin 16)
  queue : Bool
  afThreshold : Nat
  aeThreshold : Nat
  deriving DecidableEq, Repr, Inhabited

/-- Single-clock configuration: both ports use one tree (heading of R82). -/
def BramCfg.singleClock (c : BramCfg) : Bool := decide (c.treeA = c.treeB)

/-- The settings of one arithmetic block, which its image makes (R99 to R102). -/
structure ArithCfg where
  dual : Bool
  cascade : Bool
  saturate : Bool
  /-- The input, the pre-adder and the product register are bypassed (R102). -/
  skipIn : Bool
  skipPre : Bool
  skipProd : Bool
  tree : Option (Fin 16)
  deriving DecidableEq, Repr, Inhabited

/-- Settings before any image is loaded: width 72, no output register, no clock. -/
def BramCfg.plain : BramCfg :=
  { shiftA := 0, shiftB := 0, outRegA := false, outRegB := false, echoA := .new, echoB := .new,
    ecc := false, treeA := none, treeB := none, queue := false, afThreshold := 0, aeThreshold := 0 }

def ArithCfg.plain : ArithCfg :=
  { dual := false, cascade := false, saturate := false, skipIn := false, skipPre := false, skipProd := false, tree := none }

/-- An external flash (R320, R321): what its SFDP read returns, and its contents from byte 0. -/
structure Flash where
  sfdp : List Byte
  bytes : List Byte
  deriving DecidableEq, Repr

/-- What the outside presents at a start (R328): the straps CFG_MODE, CFG_PULL and MGT_ADDR, the planes that pass their
test (R167), the code of TIME_REF as it is found (R276), the clocks lost in the cycle in which none is found (R681), the external flash where one answers (R320), the bits that have drifted in code words of the store (key physical sector × 2,048 + word,
R396), and the measured times of CFG_START_TIME (R361). -/
structure StartInputs where
  mode : BitVec 3
  pull : BitVec 2
  mgtAddr : BitVec 3
  planes : BitVec 5
  timeRef : BitVec 2
  lost : BitVec 3
  flash : Option Flash
  drift : List (Nat × Nat)
  earlyUs : BitVec 16
  fullUs : BitVec 16
  deriving DecidableEq, Repr

/-- What the power controller measures each millisecond (R614, R621, R643): the raw codes of sensors 0 to 7, the power of
the device and of regions 0 to 11 in mW, and the rails in mV in the order of TELEMETRY. -/
structure PowerSample where
  codes : List (BitVec 16)
  total : BitVec 20
  regions : List (BitVec 20)
  rails : List (BitVec 16)
  deriving DecidableEq, Repr

/-- The end of a test of the shutdown suite: a region's logic test with the patterns run and the final MISR, or a bank's
march with the rows that failed and the free spare rows that failed (R430, R630). -/
inductive SuiteEnd where
  | region (n : Fin 12) (run : BitVec 16) (misr : BitVec 32)
  | bank (p : Fin 17) (failing : List (Fin 2048)) (spareBad : Fin 33)
  deriving DecidableEq, Repr

namespace Config

/-! The encoding of the logic and chip-global frames is Jiril's and not in the spec (R303). What the hardware takes from
frame contents is therefore a free function of them: `f` gives the 256 bytes at each frame address. -/

/-- The taps that one frame enables (R63, R341 check 6): line, tap position and whether dynamic. Region-wide line l of
region n is n × 4,096 + l; chip-wide line l is 65,536 + l, and its tap position p is region p's. -/
opaque frameTaps : Nat → List Byte → List (Nat × Fin 16 × Bool)

/-- The drivers of the data and of the enable of a tap, from the frames of its region (R63, R64), and what a chip-wide
tap of region n does while that is frozen (R74). -/
opaque tapSignals (f : Nat → List Byte) (line : Nat) (pos : Fin 16) : Sig × Sig
opaque tapHold (n : Nat) (f : Nat → List Byte) (line : Nat) : Hold

/-- The masked bits of a logic frame: the LUT bits of cells in shift-register mode (R60, R350). -/
opaque maskedBits : Nat → List Byte → List Nat

/-- The settings of cell c, of the chain input of block b, of I/O cell i, of block memory m, of arithmetic block b, and
of what region n has once (R55 to R74, R82, R99, R103). -/
opaque cellSetting (n : Nat) (f : Nat → List Byte) (c : Nat) : CellCfg
opaque chainSetting (n : Nat) (f : Nat → List Byte) (b : Nat) : ChainIn
opaque ioSetting (n : Nat) (f : Nat → List Byte) (i : Nat) : IoCfg
opaque bramSetting (n : Nat) (f : Nat → List Byte) (m : Nat) : BramCfg
opaque arithSetting (n : Nat) (f : Nat → List Byte) (b : Nat) : ArithCfg
opaque regionSetting (n : Nat) (f : Nat → List Byte) : RgnCfg

/-- The sources of the global clock trees and reset nets, from the chip-global frames (R69, R72). -/
opaque treeSource (f : Nat → List Byte) (t : Nat) : TreeSrc
opaque netSource (f : Nat → List Byte) (k : Nat) : NetSrc

/-- FREE VALUE. What the spec does not state of a cell: the carry out of stage 0 or 1 of its two bits of carry, from the
LUT bits, I[5:0] and the carry in (R57). -/
opaque carryOut (table : BitVec 64) (stage : Bool) (ins : BitVec 6) (ci : Bool) : Bool

/-- FREE VALUE. The level at a time of bit k of what region n's interfaces present beside the signals of R123, R133 and
R452, and of those where no value is stated, such as RX_DATA while RX_VALID is 0. -/
opaque ifaceLevel (n k : Nat) (uptime : BitVec 96) : Bool

/-- The required pattern count and the expected signature of region n's logic test (R629). -/
opaque testPatterns (n : Nat) (f : Nat → List Byte) : BitVec 16
opaque testSignature (n : Nat) (f : Nat → List Byte) : Word

/-- Where the boundary register holds the output cell and the output enable cell of user pin p, and whether the enable cell
drives where it is 1: the order of the cells is the BSDL file's (R676). -/
opaque boundaryOut : Nat → Fin 896
opaque boundaryEnable : Nat → Fin 896 × Bool

/-- The pin function default of user pin p, from the chip-global frames (R303), as a PMUX_PIN word. -/
opaque pinDefault (f : Nat → List Byte) (p : Nat) : Word

/-- The configuration of lane n's module, from the same defaults, as a MOD_LANE_CFG word (R596). -/
opaque laneConfig (f : Nat → List Byte) (n : Nat) : Word

/-- The JTAG IDCODE of the part (R36, R674). -/
def idcode : Word := 0x13240B4B

/-- The version of the firmware in each hive slot, which no command changes (R372, R544). -/
opaque fwVersion : Bool → Word

/-- The trim that the 128 bytes of IODELAY_TRIM give (R105, R398): the spec does not give their layout. -/
opaque factoryTrim : List Byte → BitVec 16

/-- FREE VALUE. What the spec leaves undefined, unstated or drawn at random: the n-th such value of a run, at any width.
No body: a statement about it holds for every value. -/
opaque freeValue : Nat → (w : Nat) → BitVec w

/-- The SECDED check bits over 64 data bits (R87, R408): the spec does not give the code. -/
opaque secded : BitVec 64 → BitVec 8

/-- PER DEVICE. What manufacture wrote into the factory calibration row where its layout fixes no value (R398). -/
opaque calByte : Nat → Byte

/-- Byte i of the 4 KiB factory calibration row (R398): MAGIC, FORMAT, the zero bytes, the blank bytes, and the first byte of
each unicast MAC address, whose group bit is 0; the others are the device's own. CHIP_SERIAL is in it (R36). -/
def calRow (i : Nat) : Byte :=
  if i < 8 then ([0x4C, 0x43, 0x41, 0x4C, 0x01, 0x00, 0x00, 0x00] : List Byte).getD i 0
  else if 0x20 ≤ i ∧ i < 0x80 ∧ (i - 0x20) % 6 = 0 then calByte i &&& 0xFE
  else if 0x400 ≤ i ∧ i < 0xFE0 then 0xFF
  else calByte i

/-- PER DEVICE. The spare rows that the factory fuses of physical bank p assign (R444). -/
opaque bankFusedRows : Nat → Fin 33

/-- PER DEVICE. The spare rows that the factory fuses of physical bank p mark unusable (R444). -/
opaque bankUnusable : Nat → Fin 33

/-- FUSED of BANK_REPAIR. -/
def bankFused (p : Nat) : Nat := (bankFusedRows p).val

/-- FREE of BANK_REPAIR at power-good: 32, minus FUSED, minus the unusable rows (R444). -/
def bankFuses (p : Nat) : Nat := 32 - bankFused p - (bankUnusable p).val

end Config
end Sys2Proof
end

