-- ==== Sys2Proof/Syntax.lean ====
section
/-! DEFINITION. The commands of the block: one constructor per row of the table of operations and events. -/
namespace Sys2Proof

inductive Instr where
  /-- POWER_GOOD (R615): All core rails have held above their thresholds for 100 µs; power-on reset is released and the loader runs the start sequence. -/
  | powerGood (i : StartInputs)
  /-- POWER_ON_RESET (R618): A power-up, or VCC_CORE or VCC_AUX falling below its reset level, resets the whole device. -/
  | powerOnReset (torn : Bool)
  /-- RESET_N_ASSERT (R619): RESET_N held low for 1 µs puts the device into device reset until the pin rises. -/
  | resetNAssert
  /-- DEVICE_RESET (R618): A device reset clears everything except what the table keeps and restarts the start sequence. -/
  | deviceReset (i : StartInputs)
  /-- DEFERRED_RESET (R531): 10 ms after the reply to SYS_RESET or to CFG_COMMIT with RESTART is ready, the reset is performed. -/
  | deferredReset (i : StartInputs)
  /-- HIVE_RESET (R523): The hive is reset and discards its requests, stored replies and tickets; an open SERVICE session ends. -/
  | hiveReset (cause : BitVec 2)
  /-- HIVE_READY (R523): The restarted hive becomes ready and its transports answer again. -/
  | hiveReady
  /-- WATCHDOG_EXPIRY (R564): The hive missed its heartbeat for 2 s; the watchdog resets the hive and escalates HIVE_WATCHDOG. -/
  | watchdogExpiry
  /-- WATCHDOG_KICK (R564): A write of 0x0000_00A5 to LCY_WDOG restarts the watchdog count. -/
  | watchdogKick (id : Fin 13) (v : Word)
  /-- SHED_RUNG_HOLD (R624): VCC_CORE, or VCC_AUX for rung 1, stays below a rung threshold for 1 µs, and the rung's functions are shed. -/
  | shedRungHold (rung : Fin 4) (aux : Bool) (mv : BitVec 16)
  /-- SHED_CLASS_STEP (R625): 100 µs after the previous step with rung 3 still held, the regions of the next shed class freeze. -/
  | shedClassStep (mv : BitVec 16)
  /-- SHED_RUNG_RESTORE (R626): The rail stays 20 mV above a rung threshold for 10 ms, and the rung restores in reverse order. -/
  | shedRungRestore (rung : Fin 4) (aux : Bool) (mv : BitVec 16)
  /-- SHED_CLASS_THAW (R626): 1 ms after the previous shed class thawed, the next shed class thaws. -/
  | shedClassThaw (mv : BitVec 16)
  /-- VCC_NV_LOW (R628): VCC_NV below 2.33 V makes the store suspend erases, refuse programs and pause its copies. -/
  | vccNvLow
  /-- VCC_NV_HALT (R628): VCC_NV below 2.20 V stops every store operation. -/
  | vccNvHalt
  /-- VCC_NV_RESTORE (R628): VCC_NV holds above its threshold for the restore time, and the store resumes. -/
  | vccNvRestore (full : Bool)
  /-- VCCIO_LOSS (R617): A bank's VCCIO falls below 50 %, and its pins go to high impedance and read 0. -/
  | vccioLoss (bank : Fin 6)
  /-- VCCIO_RETURN (R617): VCCIO returns, and the bank's pins take the state that their function and region give them. -/
  | vccioReturn (bank : Fin 6)
  /-- TEMP_SAMPLE (R621): Every 1 ms each junction sensor is read, converted and written into PWR_TEMP. -/
  | tempSample (x : PowerSample)
  /-- TAMPER_TRIP (R560): An enabled tamper source trips, and the device wipes keys and secure partitions, ends any session and escalates TAMPER. -/
  | tamperTrip (source : Fin 4) (lost : Bool)
  /-- CLOCK_LOSS (R681): FABRIC_REFCLK is lost or a PLL unlocks, and class CLOCK_LOSS escalates with the losses named. -/
  | clockLoss (fabricRef fclkPll timeRef tclkPll : Bool)
  /-- TIME_REF_LOST (R276): TIME_REFCLK is lost; the TCLK PLL enters holdover and CLOCK_LOSS escalates. -/
  | timeRefLost
  /-- TIME_REF_RETURN (R276): A valid TIME_REFCLK returns or appears, and the PLL moves to it within 10 ms. -/
  | timeRefReturn (freq : BitVec 2)
  /-- SHUTDOWN_REQ_PIN (R636): SHUTDOWN_REQ_N held low for 1 µs with PIN_EN = 1 starts the shutdown sequence. -/
  | shutdownReqPin
  /-- SHUTDOWN_DRAINED (R636): After the drain time, every region freezes, every lane is reset and base power is measured. -/
  | shutdownDrained (base : BitVec 20)
  /-- SHUTDOWN_TEST_END (R634): A shutdown test ends, and the sequencer starts every pending test that fits under the power cap. -/
  | shutdownTestEnd (x : SuiteEnd)
  /-- HEALTH_RECORD_WRITTEN (R636): The health record is written and read back, and SHUTDOWN_DONE is driven high. -/
  | healthRecordWritten (failing : List Nat)
  /-- LIFECYCLE_WIPE_DONE (R550): The pending lifecycle erase of the image and user-data partitions completes and WIPE_PENDING is cleared. -/
  | lifecycleWipeDone (failing : List Nat)
  /-- NONCE_EXPIRY (R552): A service nonce becomes invalid 60 s after its challenge. -/
  | nonceExpiry
  /-- SPI_WRITE (R524): An SPI WRITE transaction delivers one whole Imfa request. -/
  | spiWrite (alt : Bool) (bytes : List Byte)
  /-- SPI_STATUS (R524): An SPI STATUS transaction returns the transport status byte. -/
  | spiStatus (alt : Bool) (n : BitVec 16)
  /-- SPI_READ (R524): An SPI READ transaction returns the stored reply from byte 0. -/
  | spiRead (alt : Bool) (n : BitVec 16)
  /-- I2C_WRITE (R527): An I2C WRITE transaction delivers one Imfa request. -/
  | i2cWrite (addr : BitVec 7) (bytes : List Byte)
  /-- I2C_STATUS (R527): An I2C STATUS transaction returns the status byte. -/
  | i2cStatus (addr : BitVec 7) (n : BitVec 16)
  /-- I2C_READ (R527): An I2C READ transaction returns the stored reply. -/
  | i2cRead (addr : BitVec 7) (n : BitVec 16)
  /-- IMFA_JTAG_WRITE (R530): An Update-DR of the IMFA register with WRITE appends one or two bytes to the request. -/
  | imfaJtagWrite (n : BitVec 2) (data : BitVec 16)
  /-- IMFA_JTAG_READ (R530): An Update-DR of the IMFA register with READ advances the reply pointer. -/
  | imfaJtagRead
  /-- IMFA_JTAG_ABORT (R530): An Update-DR with ABORT discards the partial request and the stored reply. -/
  | imfaJtagAbort
  /-- EP48_MESSAGE (R529): A message handed over at endpoint 48 is taken as an Imfa request, a memory message or a drop. -/
  | ep48Message (f : BitVec 12)
  /-- PENDING_REPLY (R520): A command that has used 500 ms of hive time is answered PENDING with a ticket and continues. -/
  | pendingReply
  /-- TICKET_EXPIRY (R522): A ticket whose final reply is not polled within 60 s of the command's end is freed. -/
  | ticketExpiry (t : Word)
  /-- SYS_NOP (R531): Does nothing and replies OK. -/
  | sysNop
  /-- SYS_INFO (R531): Returns the IDCODE, serial, firmware version, lifecycle state and boot information. -/
  | sysInfo
  /-- TICKET_POLL (R522): Returns PENDING with progress, or the final reply of the ticket's command. -/
  | ticketPoll
  /-- SYS_RESET (R531): Schedules a device or hive reset 10 ms after its reply is ready. -/
  | sysReset
  /-- REG_READ (R533): Reads control-space registers as requester identity 0. -/
  | regRead
  /-- REG_WRITE (R533): Writes control-space registers as requester identity 0, stopping at the first refused access. -/
  | regWrite
  /-- REG_RMW (R533): Reads a register and writes back the masked merge of its value. -/
  | regRmw
  /-- NVS_INFO (R534): Returns store geometry, window, spares, wear and directory states. -/
  | nvsInfo
  /-- NVS_READ (R370): Reads code words of a partition with their error counts, warning and refreshing as needed. -/
  | nvsRead (drift : List (Nat × Nat))
  /-- NVS_PROGRAM (R373): Checks the named words are blank and programs them, or refuses with PROG_NOT_BLANK. -/
  | nvsProgram
  /-- NVS_PROGRAM_DONE (R374): A store program completes and its command answers. -/
  | nvsProgramDone (plane : Fin 16)
  /-- NVS_ERASE (R375): Erases sectors of a partition, subject to the fence erase bucket. -/
  | nvsErase
  /-- NVS_ERASE_DONE (R375): A sector erase and its verification end; a failing sector is retried, retired or left suspect, and the tally advances. -/
  | nvsEraseDone (plane : Fin 16) (verified : Bool) (failing : List Nat)
  /-- NVS_SUSPEND (R379): Sets the COMMAND suspend source on a plane's erase. -/
  | nvsSuspend
  /-- NVS_RESUME (R379): Clears the COMMAND suspend source of a plane's erase. -/
  | nvsResume
  /-- ERASE_READ_RESUME (R378): When no read of the plane has waited for 2 µs, the READ suspend source clears. -/
  | eraseReadResume (plane : Fin 16)
  /-- SUSPEND_COMMAND_TIMEOUT (R379): A COMMAND suspend source held for 10 s clears itself. -/
  | suspendCommandTimeout (plane : Fin 16)
  /-- NVS_DIGEST (R371): Returns SHA-256 over bytes read back from a partition. -/
  | nvsDigest (drift : List (Nat × Nat))
  /-- NVS_PATROL (R394): Starts an extra full patrol pass at one sector per 100 µs. -/
  | nvsPatrol
  /-- PATROL_SECTOR (R394): The patrol reads its next physical sector and queues it for refresh when it is worn or aged. -/
  | patrolSector (extra : Bool) (drift : List (Nat × Nat))
  /-- GAP_MOVE_START (R383): A due gap move begins by journaling MOVE_BEGIN and copying the source position into the gap. -/
  | gapMoveStart
  /-- GAP_MOVE_COPY_DONE (R383): The copy of a gap move ends; MOVE_END changes the mapping and the old source is erased as the new gap. -/
  | gapMoveCopyDone (drift : List (Nat × Nat))
  /-- REFRESH_MOVE (R395): While the refresh queue is not empty, an extra gap move is started at most every 2 s. -/
  | refreshMove
  /-- NVS_RECOVERY (R392): After the loader is done, the store controller recovers every unfinished operation in the journal and sets READY. -/
  | nvsRecovery (failing : List Nat)
  /-- ERASE_TOKEN (R563): Every 15.625 ms the fence erase bucket gains one token, up to 64. -/
  | eraseToken
  /-- CFG_INFO (R535): Returns the loader's boot, status, digest, slot and library registers. -/
  | cfgInfo
  /-- CFG_STREAM_OPEN (R334): Opens a stream session to a target, erasing the store sectors that it needs. -/
  | cfgStreamOpen
  /-- CFG_STREAM_DATA (R341): Adds bytes to the session; a direct load checks and writes frames as they arrive. -/
  | cfgStreamData
  /-- CFG_STREAM_CLOSE (R338): Ends the session and runs the final checks; a staged image is read back, checked and marked VALID. -/
  | cfgStreamClose
  /-- CFG_STREAM_ABORT (R334): Ends the session as truncated. -/
  | cfgStreamAbort
  /-- STREAM_IDLE_TIMEOUT (R335): A session with no CFG_STREAM_DATA for 10 s ends as truncated. -/
  | streamIdleTimeout
  /-- CFG_COMMIT (R339): Marks a VALID slot active with one ACTIVE journal entry, with an optional reset. -/
  | cfgCommit
  /-- REGION_LOAD (R346): Loads a library entry's region image into its region: freeze, header compare, frames, group check and thaw. -/
  | regionLoad
  /-- REGION_FREEZE (R334): Writes RGN_CTRL.FREEZE of a region. -/
  | regionFreeze
  /-- REGION_THAW (R334): Writes RGN_CTRL.THAW of a region. -/
  | regionThaw
  /-- CFG_LIB_ERASE (R334): Erases a library entry and marks it not VALID. -/
  | cfgLibErase
  /-- CFG_READBACK (R353): Returns up to 64 logic or chip-global frames as currently held. -/
  | cfgReadback
  /-- CFG_LOAD_UPDATE (R677): An Update-DR of CFG_LOAD passes four bytes to the loader's DIRECT session. -/
  | cfgLoadUpdate (v : Word)
  /-- CHAIN_READ_START (R326): 12 ms after power-good the first chain device begins reading the flash for the chain. -/
  | chainReadStart (sfdp : List Byte)
  /-- CHAIN_SEGMENT (R323): A segment received in a chain is loaded, forwarded with POSITION lowered, skipped or refused. -/
  | chainSegment (bytes : List Byte) (earlyUs fullUs : BitVec 16)
  /-- SCRUB_FRAME (R349): The region controller checks its next logic frame, rewrites a single-bit error or escalates an uncorrectable one. -/
  | scrubFrame (n : Fin 12) (flips : List Nat) (shift : Bool)
  /-- SCRUB_CHIP_FRAME (R352): The configuration controller checks its next chip-global frame in the same way. -/
  | scrubChipFrame (flips : List Nat)
  /-- FLOW_ADMIT (R202): Checks an admission request in order and, if granted, places the flow's slots and requests a swap. -/
  | flowAdmit
  /-- FLOW_TEARDOWN (R212): Tears a flow down according to its STATE. -/
  | flowTeardown
  /-- FLOW_QUERY (R200): Returns a flow descriptor without change. -/
  | flowQuery
  /-- FLOW_REPACK (R213): Re-places every LIVE flow of one egress without enlarging any gap. -/
  | flowRepack
  /-- PAIR_SWITCH (R225): Moves the flows of a region pair's old region to the target region through one swap. -/
  | pairSwitch
  /-- FLOW_DRAIN_DONE (R212): No cell of a draining flow remains, so its slots are removed and a swap is requested. -/
  | flowDrainDone (f : Fin 4096)
  /-- PAIR_DRAIN_DONE (R228): No cell accepted before the switchover remains, so the old slots are removed and PAIR_DRAINED is logged. -/
  | pairDrainDone (k : Fin 6)
  /-- ENDPOINT_SUSPEND (R216): An endpoint becomes suspended; its flows lose HOLDS, cells are discarded and SUSPEND is logged. -/
  | endpointSuspend (e : Fin 52)
  /-- ENDPOINT_RESUME (R219): An endpoint leaves suspension, RESUME is logged and its flows become due to resume. -/
  | endpointResume (e : Fin 52)
  /-- BANK_INFO (R538): Returns bank readiness, remap, shedding and per-bank owner and test state. -/
  | bankInfo
  /-- BANK_OWNER_SET (R412): Starts an ownership handover of a logical bank. -/
  | bankOwnerSet
  /-- BANK_GUEST_SET (R413): Writes the bank's guest read and write masks. -/
  | bankGuestSet
  /-- BANK_RETAIN (R435): Writes BANK_CTRL.RETAIN of a bank. -/
  | bankRetain
  /-- BANK_MARCH (R427): Starts a march test on a physical bank. -/
  | bankMarch
  /-- BANK_MIGRATE (R431): Starts copying a logical bank into spare bank 16. -/
  | bankMigrate
  /-- BANK_REMAP_UNDO (R434): Copies bank 16 back into the original bank and returns the remap to IDLE. -/
  | bankRemapUndo
  /-- REGION_SELFTEST (R635): Freezes a region and runs its logic test or block-memory march when power allows. -/
  | regionSelftest
  /-- LCY_INFO (R539): Returns the lifecycle state, attempt counter, provisioning and session scope. -/
  | lcyInfo
  /-- SERVICE_CHALLENGE (R552): Draws and stores a nonce with the requested scope. -/
  | serviceChallenge
  /-- SERVICE_RESPONSE (R554): Compares an HMAC response and opens SERVICE or refuses with DENIED_AUTH. -/
  | serviceResponse
  /-- SERVICE_PASSWORD (R553): Compares a password hash and opens SERVICE or refuses with DENIED_AUTH. -/
  | servicePassword
  /-- SERVICE_CLOSE (R555): Ends an open SERVICE session and wipes as R549 states. -/
  | serviceClose
  /-- LCY_TRANSITION (R550): Changes the lifecycle state and performs the transition's wipes. -/
  | lcyTransition
  /-- KEY_PROVISION (R557): Writes or clears one provisioned key store entry. -/
  | keyProvision
  /-- LOG_INFO (R540): Returns the log's entry count, lost count and sequence range. -/
  | logInfo
  /-- LOG_READ (R540): Returns log entries from a sequence number. -/
  | logRead
  /-- LOG_CLEAR (R571): Discards every log entry and writes a LOG_CLEARED entry. -/
  | logClear
  /-- TELEMETRY (R540): Returns temperatures, rail voltages, pending errors and shedding rungs. -/
  | telemetry
  /-- PORT_CONFIG (R541): Writes a port's lane and MAC configuration and optionally brings it up. -/
  | portConfig
  /-- LANE_TEST (R541): Marks or clears TEST on a lane and sets its loopback and PRBS. -/
  | laneTest
  /-- MODULE_SCAN (R597): Requests module scans and answers once they have completed. -/
  | moduleScan
  /-- MODULE_INFO (R541): Returns a lane's module identity and record. -/
  | moduleInfo
  /-- SHUTDOWN (R636): Starts the shutdown sequence, holding admission and draining flows. -/
  | shutdown
  /-- REGISTER_WRITE (R19): A write to a register without behaviour of its own acts by field access type. -/
  | registerWrite (id : Fin 13) (off : BitVec 24) (narrow : Bool) (v : Word)
  /-- RC_READ (R20): A read of an RC field returns its value and clears it without losing a count. -/
  | rcRead (id : Fin 13) (off : BitVec 24) (narrow : Bool)
  /-- STAT_LOW_READ (R12): A read of a statistics low word latches the high word and SAT for the requester. -/
  | statLowRead (id : Fin 13) (off : BitVec 24)
  /-- CHIP_ERR_LOCK (R38): A write of LOCK locks the error policy registers. -/
  | chipErrLock (id : Fin 13) (v : Word)
  /-- CHIP_ERR_PENDING_CLEAR (R39): A W1C write clears pending bits, releasing ALERT_N and CHIP_ERR_FIRST. -/
  | chipErrPendingClear (id : Fin 13) (v : Word)
  /-- CHIP_ERR_INJECT (R41): A write with GO raises a class as if a block had escalated it. -/
  | chipErrInject (id : Fin 13) (v : Word)
  /-- RGN_CTRL_FREEZE (R111): A FREEZE write sets the COMMAND freeze reason of a region. -/
  | rgnCtrlFreeze (id : Fin 13) (n : Fin 12) (v : Word)
  /-- RGN_CTRL_THAW (R111): A THAW write clears the COMMAND and POLICY freeze reasons. -/
  | rgnCtrlThaw (id : Fin 13) (n : Fin 12) (v : Word)
  /-- REGION_THAW_DONE (R78): After the last freeze reason clears and the used trees leave reset, the region's freeze latches open. -/
  | regionThawDone (n : Fin 12)
  /-- RGN_FAULT_CLEAR (R114): A W1C write of RGN_FAULT clears flags, and clearing CONTENTION releases the latched taps. -/
  | rgnFaultClear (id : Fin 13) (n : Fin 12) (v : Word)
  /-- GLINE_CONTENTION (R66): Two enabled taps on one global line are detected, disabled and latched, and ROUTE_CONTENTION is raised. -/
  | glineContention (region : Option (Fin 12)) (line : BitVec 12) (taps : BitVec 16)
  /-- BRAM_ACCESS (R83): A block memory port with EN = 1 performs a read or write at its clock edge. -/
  | bramAccess (n : Fin 12) (m : Fin 240) (a b : PortEdge) (upA upB : EccState) (bLater : Bool)
  /-- BRAM_WRITEBACK (R89): A corrected word is written back in the next cycle that neither port uses. -/
  | bramWriteback (n : Fin 12) (m : Fin 240)
  /-- QUEUE_WRITE (R95): A write into a queue controller, refused with OVERFLOW when full. -/
  | queueWrite (n : Fin 12) (m : Fin 240) (data : BitVec 72) (alsoRead : Bool) (upset : EccState)
  /-- QUEUE_READ (R95): A read from a queue controller, refused with UNDERFLOW when empty. -/
  | queueRead (n : Fin 12) (m : Fin 240) (upset : EccState)
  /-- QUEUE_RESET (R98): QRST empties the queue. -/
  | queueReset (n : Fin 12) (m : Fin 240) (asserted : Bool)
  /-- SHIFT_REGISTER_SHIFT (R58): A cell in shift-register mode shifts in SD at a clock edge with CE = 1. -/
  | shiftRegisterShift (n : Fin 12) (cell : Fin 80000)
  /-- ARITH_ACCUMULATE (R100): An arithmetic block loads or accumulates its product, with wrap or saturation. -/
  | arithAccumulate (n : Fin 12) (b : Fin 320) (ops : ArithOps)
  /-- IO_DELAY_STEP (R104): User logic loads or steps an HP pin's delay tap. -/
  | ioDelayStep (pin : Fin 240) (output : Bool) (op : DelayOp)
  /-- IODELAY_CALIBRATION (R105): Every 1 ms the calibration engine measures the delay lines and trims the tap size. -/
  | iodelayCalibration (trim : BitVec 16)
  /-- WINDOW_ACCESS (R91): The window engine performs a block-memory window access on port B. -/
  | windowAccess (n : Fin 12) (steals : List (Fin 512)) (upset : EccState) (clash : List WinClash)
  /-- WINDOW_TIMEOUT (R93): Port B's tree has not toggled for 10 µs while a window access waits; it is answered with error. -/
  | windowTimeout (n : Fin 12)
  /-- ENDPOINT_CLOCK_LOST (R121): A region endpoint's clock has not toggled for 1 µs and CLK_LOST is set. -/
  | endpointClockLost (e : Fin 52)
  /-- ENDPOINT_CLOCK_RESTORED (R121): The endpoint clock has toggled continuously for 1 µs and CLK_LOST clears. -/
  | endpointClockRestored (e : Fin 52)
  /-- BE_STOP (R156): A write of FAB_CTRL.BE_STOP stops or restarts best-effort service. -/
  | beStop (id : Fin 13) (v : Word)
  /-- FAB_FLOW_SEL (R182): A write selects the per-flow counters and, with CLEAR, clears them. -/
  | fabFlowSel (id : Fin 13) (v : Word)
  /-- FAB_EP_CLEAR (R172): A write of ALL clears an endpoint's statistics counters. -/
  | fabEpClear (id : Fin 13) (e : Fin 52) (v : Word)
  /-- FAB_CLS_CLEAR (R187): A write of CLEAR clears a classifier's hit and miss counters. -/
  | fabClsClear (id : Fin 13) (p : Fin 16) (v : Word)
  /-- CLS_ENTRY_WRITE (R190): FAB_CLS_CMD with OP write starts writing a classifier table entry, refusing duplicates. -/
  | clsEntryWrite (id : Fin 13) (p : Fin 16) (index : BitVec 12)
  /-- CLS_ENTRY_READ (R190): FAB_CLS_CMD with OP read starts reading a classifier entry into the key and result registers. -/
  | clsEntryRead (id : Fin 13) (p : Fin 16) (index : BitVec 12)
  /-- CLS_ACCESS_DONE (R190): A classifier table access completes and BUSY falls. -/
  | clsAccessDone (p : Fin 16)
  /-- ADM_FLOW_SEL (R239): A write takes a snapshot of the named flow descriptor for the writer. -/
  | admFlowSel (id : Fin 13) (v : Word)
  /-- TX_CELL (R124): An endpoint takes a cell at an edge with TX_VALID and TX_READY, checking framing and class. -/
  | txCell (e : Fin 52) (flow : BitVec 12) (dest : BitVec 6) (som eom err : Bool) (bytes : BitVec 6) (cls : BitVec 2) (aspace : BitVec 6) (data : BitVec 512)
  /-- INGRESS_HEAD (R130): The cell at the head of an ingress queue is accepted, carried, discarded, or held. -/
  | ingressHead (e : Fin 52)
  /-- SLOT_START (R152): At each slot, reserved cells and replays are sent and carried cells are matched to egresses. -/
  | slotStart (spareBad : Bool)
  /-- PERIOD_BOUNDARY (R154): At each period boundary, pending calendars swap, flows go live or resume, and planes are retired or watches end. -/
  | periodBoundary (skew : BitVec 31)
  /-- CAL_COPY_DONE (R154): After a swap, each egress's staged table holds a copy of its new active table. -/
  | calCopyDone
  /-- CELL_EGRESS_ARRIVAL (R158): A cell arrives at its egress, its check codes are verified and the cell is acknowledged to its ingress. -/
  | cellEgressArrival (e : Fin 52) (flips : List (Fin 5 × Fin 160))
  /-- ACK_ARRIVAL (R158): An acknowledgement reaches the ingress, freeing the replay entry or scheduling a replay. -/
  | ackArrival (e : Fin 52)
  /-- CREDIT_RETURN (R129): A credit returned by the egress reaches the flow's ingress. -/
  | creditReturn (f : Fin 4096)
  /-- CELL_HANDOVER (R169): A cell, or a whole message at a port egress, is handed over at its destination's handover point. -/
  | cellHandover (e : Fin 52) (f : Fin 4096) (beReady : Bool)
  /-- MAC_FRAME_RECEIVE (R251): The MAC receives a frame, drops a bad one, or passes it to the classifier. -/
  | macFrameReceive (p : Fin 16) (frame : List Byte) (fcsBad codeErr : Bool) (fecCorr fecUncorr : BitVec 16) (skew : BitVec 34)
  /-- MAC_TRANSMIT (R252): A message at the head of the MAC transmit queue is sent as a frame, or dropped if the link is down. -/
  | macTransmit (p : Fin 16) (skew : BitVec 34)
  /-- MAC_TXTS_POP (R274): A read of MAC_TXTS3 with VALID removes the head transmit stamp entry. -/
  | macTxtsPop (id : Fin 13) (p : Fin 16)
  /-- MAC_CLEAR (R290): A write of ALL clears the port's statistics counters. -/
  | macClear (id : Fin 13) (p : Fin 16)
  /-- MAC_CFG_WRITE (R249): A MAC_CFG write enables or configures a port, refused with CFG_ERR when invalid. -/
  | macCfgWrite (id : Fin 13) (p : Fin 16) (v : Word)
  /-- RAW_RX_CELL (R258): A raw gearbox collects a full cell of units and emits it as a one-cell message. -/
  | rawRxCell (n : Fin 16) (line : BitVec 800) (skew : BitVec 34)
  /-- RAW_TX_CELL (R260): A raw cell at the head of the raw transmit queue is sent, at once or at its TIME. -/
  | rawTxCell (n : Fin 16)
  /-- SDS_CFG_WRITE (R283): A write of SDS_CFG or SDS_RATE changes a lane's mode and rate while it is in reset. -/
  | sdsCfgWrite (id : Fin 13) (n : Fin 16) (rate : Bool) (v : Word)
  /-- SDS_CTRL_WRITE (R245): A write of SDS_CTRL changes reset, enables, loopback and TEST, subject to the fence. -/
  | sdsCtrlWrite (id : Fin 13) (n : Fin 16) (v : Word)
  /-- SDS_PRBS_CTRL_WRITE (R264): A write of SDS_PRBS_CTRL sets the PRBS generator and checker of a TEST lane. -/
  | sdsPrbsCtrlWrite (id : Fin 13) (n : Fin 16) (v : Word)
  /-- PRBS_INJECT (R265): A write of INJECT inverts one generated PRBS bit. -/
  | prbsInject (id : Fin 13) (n : Fin 16)
  /-- TX_PLL_LOCK (R267): A lane's transmit PLL locks and the transmitter leaves electrical idle if permitted. -/
  | txPllLock (n : Fin 16)
  /-- CDR_LOCK_ACQUIRED (R267): The lane's CDR locks and the receiver finishes adapting. -/
  | cdrLockAcquired (n : Fin 16)
  /-- PCS_LOCK (R267): Block or alignment-marker lock and deskew are reached on every member. -/
  | pcsLock (n : Fin 16)
  /-- FEC_LOCK (R267): The RS-FEC reaches code word lock. -/
  | fecLock (p : Fin 16)
  /-- LINK_UP (R267): After 10 µs with no fault received, LINK_UP rises. -/
  | linkUp (p : Fin 16)
  /-- LINK_DOWN (R268): A member loses signal, lock or receives a fault, and LINK_UP falls. -/
  | linkDown (p : Fin 16) (blocks : BitVec 16) (pcs fec localFault remoteFault : Bool)
  /-- LANE_SIGNAL_LOSS (R269): SIGNAL_DETECT or CDR_LOCK falls on a running lane and LANE_FAULT escalates. -/
  | laneSignalLoss (n : Fin 16) (sig cdr : Bool)
  /-- TIME_RATE_GO (R277): A write of RATE_GO captures a new increment, or sets RANGE_ERR when out of range. -/
  | timeRateGo (id : Fin 13) (v : Word)
  /-- TIME_STEP_GO (R278): A write of STEP_GO captures a signed step of device time. -/
  | timeStepGo (id : Fin 13) (v : Word)
  /-- TIME_SET_GO (R278): A write of SET_GO captures a new device time value. -/
  | timeSetGo (id : Fin 13) (v : Word)
  /-- TIME_RATE_APPLY (R278): At the next 1,024 ns multiple, the captured increment takes effect. -/
  | timeRateApply
  /-- TIME_STEP_APPLY (R279): At the next 1,024 ns multiple, device time is stepped, TIME_STEP is logged and timers and waits are adjusted. -/
  | timeStepApply
  /-- TIME_SET_APPLY (R278): At the next 1,024 ns multiple, device time is replaced and TIME_STEP is logged. -/
  | timeSetApply
  /-- TIME_NOW_READ (R280): A read of TIME_NOW0 returns the low word and latches the high word and fraction. -/
  | timeNowRead (id : Fin 13)
  /-- PPS_OUT_PULSE (R281): PPS_OUT rises when device time minus OFFSET is a whole second. -/
  | ppsOutPulse
  /-- PPS_OUT_PULSE_END (R281): PPS_OUT falls after WIDTH µs. -/
  | ppsOutPulseEnd
  /-- PPS_IN_EDGE (R282): An edge of PPS_IN is stamped and counted, with an optional interrupt. -/
  | ppsInEdge (rising : Bool) (skew : BitVec 35)
  /-- PPS_IN_TS_READ (R282): A read of TIME_PPS_IN_TS0 latches the rest of the stamp. -/
  | ppsInTsRead (id : Fin 13)
  /-- GATEWAY_EXECUTE_WRITE (R414): A gateway checks and performs a WRITE, answering if ACK = 1. -/
  | gatewayExecuteWrite (k : Fin 16) (cls : BitVec 2) (f : BitVec 12) (upsets : List (BitVec 16 × BitVec 3 × Bool))
  /-- GATEWAY_EXECUTE_READ (R422): A READ_REQ is checked and executed once its reply buffer has room, and its READ_RESP is sent. -/
  | gatewayExecuteRead (k : Fin 16) (cls : BitVec 2) (f : BitVec 12) (upsets : List (BitVec 16 × BitVec 3 × Bool))
  /-- GATEWAY_EXECUTE_FENCE (R414): A FENCE is answered once every earlier message of its flow has been executed. -/
  | gatewayExecuteFence (k : Fin 16) (cls : BitVec 2) (f : BitVec 12)
  /-- USER_DATA_READ (R141): The user-data read engine at endpoint 48 serves a memory message from the store. -/
  | userDataRead (f : BitVec 12) (drift : List (Nat × Nat))
  /-- BANK_PORT_CYCLE (R420): At each FCLK cycle a bank's port grants one access by priority of wipe, march, classes and copies. -/
  | bankPortCycle (p : Fin 17) (upsets : List (BitVec 16 × BitVec 3 × Bool))
  /-- BANK_OWNER_WRITE (R411): A region's write or claim of BANK_OWNER starts a handover. -/
  | bankOwnerWrite (id : Fin 13) (k : Fin 16) (v : Word)
  /-- BANK_HANDOVER_DRAINED (R412): Earlier messages have drained, so the partition is wiped if secure and the new owner takes effect. -/
  | bankHandoverDrained (k : Fin 16)
  /-- BANK_SECURE_WRITE (R415): The owner's write of SECURE protects the partition or wipes and releases it. -/
  | bankSecureWrite (id : Fin 13) (k : Fin 16) (secure : Bool)
  /-- BANK_WIPE_DONE (R418): A secure partition wipe ends and WIPING clears. -/
  | bankWipeDone (k : Fin 16)
  /-- BANK_TEST_GO (R443): A write of BANK_TEST_CTRL.GO starts a march where allowed. -/
  | bankTestGo (id : Fin 13) (p : Fin 17) (v : Word)
  /-- BANK_MARCH_DONE (R430): A march ends; failing rows are soft-repaired and retested and the result is recorded. -/
  | bankMarchDone (p : Fin 17) (failing : List (Fin 2048)) (spareBad : Fin 33)
  /-- BANK_MIGRATE_DONE (R433): The last word is copied and the remap register names bank 16. -/
  | bankMigrateDone
  /-- BANK_REMAP_UNDO_DONE (R434): The copy back ends and the remap returns to IDLE. -/
  | bankRemapUndoDone
  /-- BANK_CLEAR (R440): A write of ALL clears the bank's statistics counters. -/
  | bankClear (id : Fin 13) (k : Fin 16)
  /-- NVS_CLEAR (R401): A write of ALL clears the store's statistics counters. -/
  | nvsClear (id : Fin 13) (v : Word)
  /-- YIELD (R455): The running thread becomes READY and the port becomes vacant. -/
  | yieldCall (p : Fin 32) (code : BitVec 4)
  /-- BLOCK_ON (R457): The thread takes a semaphore count, times out at once, or blocks on the object. -/
  | blockOn (p : Fin 32) (c : BitVec 16) (b : Word)
  /-- SIGNAL (R458): A port signals an event object once. -/
  | signalCall (p : Fin 32) (c : BitVec 16)
  /-- SLEEP_UNTIL (R455): The thread sleeps until a later device time, or keeps running. -/
  | sleepUntil (p : Fin 32) (b : Word)
  /-- SET_PRIORITY (R455): Sets a thread's priority and deadline. -/
  | setPriority (p : Fin 32) (a : BitVec 24) (c : BitVec 16) (b : Word)
  /-- CREATE (R464): Creates a READY thread, spilling a record if needed. -/
  | createCall (p : Fin 32) (a b : DWord) (c : BitVec 16)
  /-- EXIT (R455): The running thread becomes FREE and the port vacant. -/
  | exitCall (p : Fin 32)
  /-- TAKE_NEXT (R455): The thread in the prefetch slot becomes RUNNING on the port, or the call waits. -/
  | takeNext (p : Fin 32)
  /-- SCH_CMD_SIGNAL (R472): SCH_CMD with OP SIGNAL signals an event object. -/
  | schCmdSignal (id : Fin 13)
  /-- SCH_CMD_SET_PRIORITY (R472): SCH_CMD with OP SET_PRIORITY sets a named thread's priority. -/
  | schCmdSetPriority (id : Fin 13)
  /-- SCH_CMD_CREATE (R472): SCH_CMD with OP CREATE creates a thread. -/
  | schCmdCreate (id : Fin 13)
  /-- SCH_CMD_KILL (R472): SCH_CMD with OP KILL frees a non-running thread. -/
  | schCmdKill (id : Fin 13)
  /-- SCH_REC_SEL (R473): A write takes a snapshot of a thread record for the writer. -/
  | schRecSel (id : Fin 13) (v : Word)
  /-- SCH_SPILL_ENABLE (R463): A write of SCH_SPILL_CFG with EN checks the spill area conditions. -/
  | schSpillEnable (id : Fin 13) (v : Word)
  /-- SCH_EV_CFG_WRITE (R476): A write of SCH_EV_CFG sets an object's mode and count while it has no waiters. -/
  | schEvCfgWrite (id : Fin 13) (e : Fin 512) (v : Word)
  /-- SCH_TMR_EXP_WRITE (R477): A write of SCH_TMR_EXP0 is held and applied with the next write of SCH_TMR_EXP1. -/
  | schTmrExpWrite (id : Fin 13) (t : Fin 256) (hi : Bool) (v : Word)
  /-- EVENT_SERVE (R458): The scheduler serves one object's pending signals, waking waiters and counting the rest. -/
  | eventServe
  /-- SCH_TIMER_FIRE (R459): A timer reaches EXP and signals its event object, reloading if periodic. -/
  | schTimerFire (t : Fin 256)
  /-- WAKE_REACHED (R457): A thread's WAKE is reached, and it becomes READY with TIMEOUT or NONE. -/
  | wakeReached (index : BitVec 16)
  /-- SPILL_WRITE_DONE (R465): The WRITE_DONE answer of a spill arrives and the on-chip record is freed. -/
  | spillWriteDone
  /-- REFILL_DONE (R466): The READ_RESP of a refill arrives and the record returns on chip. -/
  | refillDone
  /-- SPILL_RETRY (R467): Every 1 µs a spill or refill answered TARGET_IN_TEST is repeated. -/
  | spillRetry
  /-- DMA_CH_GO (R479): A write of GO starts an IDLE channel at its first descriptor. -/
  | dmaChGo (id : Fin 13) (e : Fin 2) (c : Fin 16) (v : Word)
  /-- DMA_CH_RESUME (R500): A write of RESUME restarts a FAULTED channel from its resume point. -/
  | dmaChResume (id : Fin 13) (e : Fin 2) (c : Fin 16) (v : Word)
  /-- DMA_CH_ABORT (R500): A write of ABORT makes a channel ABORTING. -/
  | dmaChAbort (id : Fin 13) (e : Fin 2) (c : Fin 16) (v : Word)
  /-- DMA_FQ_POP (R498): A write removes the head record of the engine's first-level fault queue. -/
  | dmaFqPop (id : Fin 13) (e : Fin 2) (v : Word)
  /-- DMA_CLEAR (R504): A write of ALL clears the engine's statistics counters. -/
  | dmaClear (id : Fin 13) (e : Fin 2) (v : Word)
  /-- DMA_DESC_FETCHED (R481): A descriptor's READ_RESP arrives and the descriptor is checked and started. -/
  | dmaDescFetched (e : Fin 2) (f : BitVec 12)
  /-- DMA_ISSUE (R488): The engine issues transfer cells for the highest-priority ready channel, pre-empting lower ones. -/
  | dmaIssue (e : Fin 2)
  /-- DMA_WALK_DONE (R490): A page table entry read arrives; the walk continues, fills the TLB or faults. -/
  | dmaWalkDone (e : Fin 2) (f : BitVec 12)
  /-- DMA_ANSWER (R497): An answer to a channel's request arrives, completing cells or causing a fault, wait or chain end. -/
  | dmaAnswer (e : Fin 2) (f : BitVec 12)
  /-- DMA_F2M_CELL (R486): A cell of a flow towards the engine enters the receive store or is discarded if unbound. -/
  | dmaF2mCell (e : Fin 2) (f : Fin 4096)
  /-- DMA_WAIT_TEST_RETRY (R496): Every 10 µs a channel in WAIT_TEST repeats its first unanswered request. -/
  | dmaWaitTestRetry (e : Fin 2) (c : Fin 16)
  /-- DMA_TEST_WAIT_EXPIRY (R496): A WAIT_TEST lasting TEST_WAIT ms becomes a BANK_IN_TEST fault. -/
  | dmaTestWaitExpiry (e : Fin 2) (c : Fin 16)
  /-- XLT_INVAL (R494): A write of XLT_INVAL with GO starts removing TLB entries in the scope. -/
  | xltInval (id : Fin 13) (v : Word)
  /-- XLT_INVAL_DONE (R494): The invalidation ends and INVAL_BUSY falls. -/
  | xltInvalDone
  /-- XLT_SPACE_WRITE (R493): A write of XLT_AS_CFG or XLT_AS_ROOT removes that space's TLB entries. -/
  | xltSpaceWrite (id : Fin 13) (a : Fin 64) (r : Fin 3) (v : Word)
  /-- XLT_SLQ_POP (R508): A write removes the head record of the second-level fault queue. -/
  | xltSlqPop (id : Fin 13) (v : Word)
  /-- XLT_CLEAR (R508): A write of ALL clears the translation statistics counters. -/
  | xltClear (id : Fin 13) (v : Word)
  /-- GPIO_OUT_MASKED (R590): A masked write sets chosen GPIO_OUT bits in one access. -/
  | gpioOutMasked (id : Fin 13) (q : Fin 15) (v : Word)
  /-- GPIO_OE_MASKED (R590): A masked write sets chosen GPIO_OE bits, subject to the pin permits. -/
  | gpioOeMasked (id : Fin 13) (q : Fin 15) (v : Word)
  /-- GPIO_OUT_WRITE (R591): A write of GPIO_OUT, masked to the writer's own pins for a region port. -/
  | gpioOutWrite (id : Fin 13) (q : Fin 15) (v : Word)
  /-- GPIO_OE_WRITE (R585): A write of GPIO_OE, refused for a pin whose permit is clear. -/
  | gpioOeWrite (id : Fin 13) (q : Fin 15) (v : Word)
  /-- GPIO_IRQ_DETECT (R592): A sampled pin edge or level sets its interrupt status and routes it to the hive, an event or the region. -/
  | gpioIrqDetect (q : Fin 15) (pads : BitVec 16)
  /-- PMUX_PIN_WRITE (R586): A PMUX_PIN write changes pad settings or switches the pin's function break-before-make. -/
  | pmuxPinWrite (id : Fin 13) (p : Fin 240) (v : Word)
  /-- PMUX_ALT_SPI (R588): A write of ALT_SPI_EN moves the SPI target to or from the alternate pins. -/
  | pmuxAltSpi (id : Fin 13) (v : Word)
  /-- MOD_SCAN_ALL (R597): A write of SCAN_ALL queues a full scan of every enabled lead. -/
  | modScanAll (id : Fin 13) (v : Word)
  /-- MOD_SCAN (R611): A write of MOD_CTRL.SCAN queues the named leads for a scan. -/
  | modScan (id : Fin 13) (v : Word)
  /-- PRESENCE_CHANGE (R597): A presence pin holds a new level for 50 ms and its lead is queued for a scan. -/
  | presenceChange (n : Fin 16) (present : Bool)
  /-- MODULE_LEAD_SCAN (R598): A queued lead's scan begins with the presence check and select pin. -/
  | moduleLeadScan (n : Fin 16)
  /-- MODULE_SCAN_RETRY (R598): A scan step without acknowledge is repeated after 10 ms. -/
  | moduleScanRetry (n : Fin 16)
  /-- MODULE_SCAN_TIMEOUT (R598): A scan not complete 80 ms after step 2 is abandoned with cause TIMEOUT. -/
  | moduleScanTimeout (n : Fin 16) (read : Option (List Byte))
  /-- MODULE_SCAN_COMPLETE (R603): A scan ends; the result is written and each led lane's module check and permits are evaluated. -/
  | moduleScanComplete (n : Fin 16) (page : Option (List Byte)) (record : Option (List Byte))
  /-- MOD_XFER_GO (R604): A write of GO starts a single module bus transfer. -/
  | modXferGo (id : Fin 13) (b : Fin 4) (v : Word)
  /-- MOD_XFER_DONE (R604): A module bus transfer ends and BUSY clears, with NACK on failure. -/
  | modXferDone (b : Fin 4) (ack : Bool) (data : Word)
  /-- MOD_BUS_FAULT (R595): SCL or SDA low for 25 ms puts the bus in fault; nine pulses and a STOP are sent. -/
  | modBusFault (b : Fin 4)
  /-- LOG_SEL_WRITE (R572): A write of LOG_SEL takes a snapshot of the named entry. -/
  | logSelWrite (id : Fin 13) (v : Word)
  /-- LOG_CTRL_CLEAR (R571): A write of LOG_CTRL.CLEAR clears the log. -/
  | logCtrlClear (id : Fin 13) (v : Word)
  /-- JTAG_INSTRUCTION_UPDATE (R675): An Update-IR selects a JTAG instruction; boundary test instructions take the pads. -/
  | jtagInstructionUpdate (ir : BitVec 10)
  /-- JTAG_TEST_LOGIC_RESET (R678): Test-Logic-Reset selects IDCODE and returns every pad to its function. -/
  | jtagTestLogicReset
  /-- RESET_N_RELEASE (R619): The rise of RESET_N ends the device reset and counts as power-good for the start sequence. -/
  | resetNRelease (i : StartInputs)
  /-- TAMPER_SOURCE_CLEAR (R558): A tripped tamper source stops tripping, so TAMPER_NOW falls and KEY_PROVISION is no longer refused with BUSY. -/
  | tamperSourceClear (source : Fin 4)
  /-- PRBS_CHECKER_LOCK (R266): The PRBS checker sees 64 consecutive error-free bits, locks and begins counting errors and bits. -/
  | prbsCheckerLock (n : Fin 16) (errs : Word) (bitsN : BitVec 48)
  /-- PRBS_CHECKER_LOSS (R266): The PRBS checker sees 32 errors within 64 bits, loses lock and reseeds. -/
  | prbsCheckerLoss (n : Fin 16) (errs : Word) (bitsN : BitVec 48)
  /-- BLOCK_LOCK_LOSS (R261): A raw 64b/66b gearbox sees 16 invalid sync headers within 64 blocks and loses block lock, setting BLOCK_LOSS in SDS_EVENT. -/
  | blockLockLoss (n : Fin 16)
  /-- REGION_SELFTEST_START (R635): A frozen region's requested test starts once PWR_TOTAL plus its estimate stays at or below BIST_POWER_CAP. -/
  | regionSelftestStart (n : Fin 12)
  /-- REGION_SELFTEST_DONE (R631): A REGION_SELFTEST logic test or block-memory march ends; its result is recorded, LOGIC_FAIL is set or cleared, SELFTEST clears, and the region may thaw. -/
  | regionSelftestDone (n : Fin 12) (run : BitVec 16) (misr : Word) (failing : List (Fin 240))
  /-- SELFTEST_START_TIMEOUT (R635): A REGION_SELFTEST that could not start within 10 s ends INCOMPLETE with 0 patterns run. -/
  | selftestStartTimeout (n : Fin 12)
  deriving DecidableEq, Repr

end Sys2Proof
end

