-- ==== Sys2Proof/Decode.lean ====
section
/-! DEFINITION. The commands that a table word spells: no row of spec/opcode_table.json gives its command any bits, so no
word spells one. -/
namespace Sys2Proof

/-- The command that the `nbits` bits of `w` spell: none, since the table gives its rows no bits. -/
def decodeTableWord (_nbits _w : Nat) : Option Instr := none

end Sys2Proof
end

