-- ==== Sys2Proof/Machine/Operands.lean ====
section
/-! DEFINITION. Bit fields, little-endian bytes (R5, R6, R7), hexadecimal-free check codes (R512) and the small
list helpers that the meanings share. -/
namespace Sys2Proof.Machine

/-- Field [lo + len − 1 : lo] of a bit vector, as a number (R5). -/
def bits {n : Nat} (w : BitVec n) (lo len : Nat) : Nat := (w.toNat >>> lo) % 2 ^ len

/-- Bit `i` of a bit vector (R5). -/
def bit {n : Nat} (w : BitVec n) (i : Nat) : Bool := w.toNat.testBit i

/-- A Boolean as a 0 or 1. -/
def b2n (b : Bool) : Nat := if b then 1 else 0

/-- A 32-bit word whose bits [lo + len − 1 : lo] are `v` and whose other bits are zero. -/
def mask {n : Nat} (lo len : Nat) : BitVec n := BitVec.ofNat n ((2 ^ len - 1) * 2 ^ lo)

/-- `w` with field [lo + len − 1 : lo] replaced by `v`. -/
def setBits {n : Nat} (w : BitVec n) (lo len v : Nat) : BitVec n :=
  (w &&& ~~~(mask lo len)) ||| BitVec.ofNat n ((v % 2 ^ len) * 2 ^ lo)

/-- `w` with bit `i` set to `b`. -/
def setBit {n : Nat} (w : BitVec n) (i : Nat) (b : Bool) : BitVec n := setBits w i 1 (b2n b)

/-- The little-endian number in `n` bytes from offset `off` (R6); a byte past the end reads as 0. -/
def getLE : (n : Nat) → List Byte → Nat → Nat
  | 0, _, _ => 0
  | n + 1, bs, off => (bs.getD off 0).toNat + 256 * getLE n bs (off + 1)

/-- `v` as `n` bytes, least significant first (R6). -/
def putLE : (n : Nat) → Nat → List Byte
  | 0, _ => []
  | n + 1, v => BitVec.ofNat 8 v :: putLE n (v / 256)

/-- `n` zero bytes. -/
def zeros (n : Nat) : List Byte := List.replicate n 0

/-- Exactly `len` bytes of `bs` from `off`, zero past the end. -/
def slice (bs : List Byte) (off len : Nat) : List Byte :=
  let t := (bs.drop off).take len
  t ++ zeros (len - t.length)

/-- `bs` cut or filled with zero bytes to exactly `n` bytes. -/
def fit (n : Nat) (bs : List Byte) : List Byte := slice bs 0 n

/-- `bs` with the bytes `v` placed at offset `off`, filled with zeros where `bs` is shorter. -/
def patch (bs : List Byte) (off : Nat) (v : List Byte) : List Byte :=
  slice bs 0 off ++ v ++ bs.drop (off + v.length)

/-- The indices 0 to n − 1 whose bit in `w` is set, ascending. -/
def bitList (n : Nat) (w : Nat) : List Nat := (List.range n).filter w.testBit

/-- The number whose bit `i` is `f i`, for i below `n`. -/
def bitsOf (n : Nat) (f : Nat → Bool) : Nat :=
  (List.range n).foldl (fun a i => if f i then a + 2 ^ i else a) 0

/-- A number with bit `i` set to `b`. -/
def natBit (w i : Nat) (b : Bool) : Nat :=
  if w.testBit i then (if b then w else w - 2 ^ i) else (if b then w + 2 ^ i else w)

/-- The value of an n-bit two's complement field. -/
def signed (n v : Nat) : Int := if v < 2 ^ (n - 1) then (v : Int) else (v : Int) - (2 ^ n : Nat)

/-- An integer as an n-bit two's complement field. -/
def unsigned (n : Nat) (i : Int) : Nat := (i % ((2 ^ n : Nat) : Int)).toNat

/-- One step of a reflected cyclic redundancy check of polynomial `poly`. -/
def crcBit (poly c : Nat) : Nat := if c % 2 = 1 then Nat.xor (c / 2) poly else c / 2

/-- One byte, least significant bit first, into a reflected check. -/
def crcByte (poly c : Nat) (b : Byte) : Nat :=
  let c := Nat.xor c b.toNat
  crcBit poly (crcBit poly (crcBit poly (crcBit poly (crcBit poly (crcBit poly (crcBit poly (crcBit poly c)))))))

/-- CRC-32C over bytes (R512): reflected polynomial 0x82F6_3B78, initial value all ones, result inverted. -/
def crc32c (bs : List Byte) : Nat :=
  Nat.xor (bs.foldl (crcByte 0x82F63B78) 0xFFFFFFFF) 0xFFFFFFFF

/-- a is later than b as n-bit sequence values (R15). -/
def laterSeq (n a b : Nat) : Bool :=
  let d := (a + 2 ^ n - b) % 2 ^ n
  decide (1 ≤ d ∧ d ≤ 2 ^ (n - 1) - 1)

/-- Places an element before the first one that it may stand before. -/
def insOne {α : Type} (le : α → α → Bool) (x : α) : List α → List α
  | [] => [x]
  | y :: t => if le x y then x :: y :: t else y :: insOne le x t

/-- A list in the order `le`, equal elements kept in their order. -/
def insSort {α : Type} (le : α → α → Bool) (xs : List α) : List α := xs.foldr (insOne le) []

/-- `xs` with its element `i` replaced by `v`; unchanged where there is no such element. -/
def setAt {α : Type} (xs : List α) (i : Nat) (v : α) : List α := xs.set i v

end Sys2Proof.Machine
end

