-- ==== Sys2Proof/Machine/Regs.lean ====
section
/-! DEFINITION. The control space (R46): every register of the spec's register tables with its access type, its reset
value and the bits that a plain write may change, and the names of the offsets that the meanings use. -/
namespace Sys2Proof.Machine

/-- The access types of R19, the two words of a statistics counter (R11), a register with one copy per requester
identity, and a write-only register. -/
inductive Access where
  | rw
  | ro
  | wo
  | w1c
  | w1s
  | rc
  | statLo
  | statHi
  | perId
  deriving DecidableEq, Repr

/-- One line of a register table: `n1` instances `s1` bytes apart, each of `n2` words `s2` bytes apart. -/
structure RegRow where
  base : Nat
  n1 : Nat
  s1 : Nat
  n2 : Nat
  s2 : Nat
  acc : Access
  reset : Word
  mask : Word
  deriving DecidableEq, Repr

/-- One register. -/
def r1 (base : Nat) (acc : Access) (reset : Word := 0) (mask : Word := 0xFFFFFFFF) : RegRow :=
  { base, n1 := 1, s1 := 0x1000000, n2 := 1, s2 := 4, acc, reset, mask }
/-- `n` registers, `s` bytes apart. -/
def rn (base n s : Nat) (acc : Access) (reset : Word := 0) (mask : Word := 0xFFFFFFFF) : RegRow :=
  { base, n1 := n, s1 := s, n2 := 1, s2 := 4, acc, reset, mask }
/-- `n1` blocks `s1` bytes apart of `n2` registers, 4 bytes apart. -/
def rnn (base n1 s1 n2 : Nat) (acc : Access) (reset : Word := 0) (mask : Word := 0xFFFFFFFF) : RegRow :=
  { base, n1, s1, n2, s2 := 4, acc, reset, mask }
/-- A statistics counter's two words, `n` counters `s` bytes apart. -/
def rstat (base n s : Nat) : List RegRow := [rn base n s .statLo, rn (base + 4) n s .statHi]

/-- The row has a register at this offset. -/
def RegRow.has (r : RegRow) (off : Nat) : Bool :=
  if off < r.base then false
  else
    let d := off - r.base
    let i := d / r.s1
    let e := d % r.s1
    decide (i < r.n1) && decide (e % r.s2 = 0) && decide (e / r.s2 < r.n2)

/-! ## Offsets -/

def rgnBase (n : Nat) : Nat := 0x100000 + n * 0x10000
def rgnStatus (n : Nat) : Nat := rgnBase n
def rgnConfig (n : Nat) : Nat := rgnBase n + 0x8
def rgnClkGate (n : Nat) : Nat := rgnBase n + 0xC
def rgnFault (n : Nat) : Nat := rgnBase n + 0x10
def rgnGlineFault (n : Nat) : Nat := rgnBase n + 0x14
def rgnBramErr (n : Nat) : Nat := rgnBase n + 0x18
def rgnBramCorr (n : Nat) : Nat := rgnBase n + 0x1C
def rgnBramUncorr (n : Nat) : Nat := rgnBase n + 0x20
def rgnScrubCorr (n : Nat) : Nat := rgnBase n + 0x24
def rgnScrubUncorr (n : Nat) : Nat := rgnBase n + 0x28
def rgnScrubPass (n : Nat) : Nat := rgnBase n + 0x2C
def rgnFreezeCount (n : Nat) : Nat := rgnBase n + 0x30
def rgnFreezeTime (n : Nat) : Nat := rgnBase n + 0x34
def rgnDigest (n i : Nat) : Nat := rgnBase n + 0x40 + 4 * i
def rgnWinMask (n i : Nat) : Nat := rgnBase n + 0x60 + 4 * i

def fabStatus : Nat := 0x200000
def fabCtrl : Nat := 0x200004
def fabPlaneMap : Nat := 0x200008
def fabPlaneWatch : Nat := 0x20000C
def fabPlaneThresh : Nat := 0x200010
def fabPlaneFail (p : Nat) : Nat := 0x200014 + 4 * p
def fabPeriod : Nat := 0x200028
def fabGridOffset : Nat := 0x20002C
def fabMissLast : Nat := 0x200030
def fabMissCount : Nat := 0x200034
def fabFlowSel : Nat := 0x200040
def fabEpCfg (e : Nat) : Nat := 0x201000 + 0x80 * e
/-- FAB_EP_STATUS and its CLK_LOST bit (R121, R185). -/
def fabEpStatus (e : Nat) : Nat := 0x201004 + 0x80 * e
def clkLostBit : Nat := 3
def fabEpAcc (e : Nat) : Nat := 0x201018 + 0x80 * e
def fabEpCarry (e : Nat) : Nat := 0x201020 + 0x80 * e
def fabEpDrop (e : Nat) : Nat := 0x201028 + 0x80 * e
def fabEpCells (e : Nat) : Nat := 0x201030 + 0x80 * e
def fabEpBytes (e : Nat) : Nat := 0x201038 + 0x80 * e
def fabEpReplay (e : Nat) : Nat := 0x201040 + 0x80 * e
def fabEpMiss (e : Nat) : Nat := 0x201044 + 0x80 * e
def fabEpClassDeny (e : Nat) : Nat := 0x201048 + 0x80 * e
def fabEpErrmsg (e : Nat) : Nat := 0x20104C + 0x80 * e
def fabEpIgDiscard (e : Nat) : Nat := 0x201050 + 0x80 * e
def fabEpBadMsg (e : Nat) : Nat := 0x201054 + 0x80 * e
def fabCls (p : Nat) : Nat := 0x204000 + 0x100 * p
def calSwapCount : Nat := 0x230008
def calSwapTime (i : Nat) : Nat := 0x23000C + 4 * i

def admAdmitted : Nat := 0x240008
def admRefused : Nat := 0x24000C
def admRefusalFlow : Nat := 0x240010
def admRefusalStatus : Nat := 0x240014
def admFlowSel : Nat := 0x240040
def admEpNotlive (e : Nat) : Nat := 0x241008 + 0x10 * e
def admEpFrozenDrop (e : Nat) : Nat := 0x24100C + 0x10 * e

def bankReady : Nat := 0x480000
def bankRemap : Nat := 0x480004
def bankShed : Nat := 0x480008
def bankPoison : Nat := 0x48000C
def bankOwner (k : Nat) : Nat := 0x481000 + 0x40 * k
def bankCtrl (k : Nat) : Nat := 0x481004 + 0x40 * k
def bankGuestR (k : Nat) : Nat := 0x481008 + 0x40 * k
def bankGuestW (k : Nat) : Nat := 0x48100C + 0x40 * k
def bankAspace (k i : Nat) : Nat := 0x481010 + 0x40 * k + 4 * i
def bankDenied (k : Nat) : Nat := 0x481018 + 0x40 * k
def bankWordsR (k : Nat) : Nat := 0x481020 + 0x40 * k
def bankWordsW (k : Nat) : Nat := 0x481028 + 0x40 * k
def bankTestStatus (p : Nat) : Nat := 0x482004 + 0x40 * p
def bankRepair (p : Nat) : Nat := 0x482008 + 0x40 * p
def bankFailRow (p : Nat) : Nat := 0x48200C + 0x40 * p
def bankErrLast (p : Nat) : Nat := 0x482010 + 0x40 * p
def bankCorr (p : Nat) : Nat := 0x482014 + 0x40 * p
def bankUncorr (p : Nat) : Nat := 0x482018 + 0x40 * p

def chipErrPolicy (k : Nat) : Nat := 0x20 + 4 * k
def chipErrCtrl : Nat := 0x30
def chipErrPending : Nat := 0x34
def chipErrFirst : Nat := 0x38
def chipErrInject : Nat := 0x3C
def chipErrCount (c : Nat) : Nat := 0x100 + 4 * c

def imfaReq (t : Nat) : Nat := 0x010008 + 4 * t
def imfaBad (t : Nat) : Nat := 0x010018 + 4 * t
def imfaDrop : Nat := 0x010028
def imfaFwVersion : Nat := 0x010004

def pwrStatus : Nat := 0x020000
def pwrCtrl : Nat := 0x020004
def pwrResetCause : Nat := 0x020008
def pwrShedCount : Nat := 0x02000C
def pwrTempWarn : Nat := 0x020010
def pwrTempMax : Nat := 0x020014
def pwrTotal : Nat := 0x020018
def pwrRail (r : Nat) : Nat := 0x020020 + 4 * r
def pwrTemp (i : Nat) : Nat := 0x020060 + 4 * i
def pwrRgnPower (n : Nat) : Nat := 0x020080 + 4 * n

def bistStatus : Nat := 0x680000
def bistPowerCap : Nat := 0x680004
def bistBasePower : Nat := 0x680008
def bistActivePower : Nat := 0x68000C
def bistRgnStatus (n : Nat) : Nat := 0x680100 + 0x10 * n
def bistRgnCount (n : Nat) : Nat := 0x680104 + 0x10 * n
def bistRgnMisr (n : Nat) : Nat := 0x680108 + 0x10 * n
def bistRgnExpect (n : Nat) : Nat := 0x68010C + 0x10 * n

def lcyStatus : Nat := 0x6C0000
def lcyDelay : Nat := 0x6C0004
def lcyTamperCfg : Nat := 0x6C0008
def lcyTamperStatus : Nat := 0x6C000C
def lcyTamperCount : Nat := 0x6C0010
def lcyWdog : Nat := 0x6C0014
def lcyWdogStatus : Nat := 0x6C0018
def fenceErase : Nat := 0x6C012C
def fenceDenied : Nat := 0x6C0130
def fenceEraseWaits : Nat := 0x6C0134

def logStatus : Nat := 0x700000
def logSel : Nat := 0x700014

def schStatus : Nat := 0x500000
def schSpillCfg : Nat := 0x500008
def schSpillFlows : Nat := 0x50000C
def schCreateRefused : Nat := 0x500010
def schSpillLost : Nat := 0x500014
def schRefills : Nat := 0x500018
def schCmdA (i : Nat) : Nat := 0x500020 + 4 * i
def schCmdB (i : Nat) : Nat := 0x500028 + 4 * i
def schCmdC : Nat := 0x500030
def schCmdRes : Nat := 0x500038
def schRecSel : Nat := 0x500040
def schPortDispatches (p : Nat) : Nat := 0x50100C + 0x10 * p
def schEvCfg (e : Nat) : Nat := 0x502000 + 8 * e
def schTmrCtrl (t : Nat) : Nat := 0x504000 + 0x20 * t
def schTmrExp (t i : Nat) : Nat := 0x504004 + 0x20 * t + 4 * i
def schTmrPeriod (t : Nat) : Nat := 0x50400C + 0x20 * t
def schTmrMissed (t : Nat) : Nat := 0x504010 + 0x20 * t

def nvsStatus : Nat := 0x030000
def nvsThresh : Nat := 0x030018
def nvsBootCount : Nat := 0x03001C
def nvsLastEcc : Nat := 0x030028
def nvsUncorr : Nat := 0x03002C
def nvsWarn : Nat := 0x030030
def nvsCorrBits : Nat := 0x030034
def nvsErases : Nat := 0x03003C
def nvsMoves : Nat := 0x030044
def nvsSectorSel : Nat := 0x03004C

def cfgStatus : Nat := 0x040000
def cfgBoot : Nat := 0x040004
def cfgFailAddr : Nat := 0x040008
def cfgVersion : Nat := 0x04000C
def cfgDigest (i : Nat) : Nat := 0x040010 + 4 * i
def cfgChainStatus : Nat := 0x040080
def cfgStartTime : Nat := 0x040084
def cfgLoadCount : Nat := 0x040088
def cfgFailCount : Nat := 0x04008C

/-- GPIO_ registers of port q, PMUX_ and GPIO_ROUTE of pin p (R606). -/
def gpioBase (q : Nat) : Nat := 0x600000 + 0x40 * q
def gpioOut (q : Nat) : Nat := gpioBase q + 0x4
def gpioOe (q : Nat) : Nat := gpioBase q + 0xC
def gpioMode (q i : Nat) : Nat := gpioBase q + 0x14 + 4 * i
def gpioStatus (q : Nat) : Nat := gpioBase q + 0x1C
def gpioEvents (q : Nat) : Nat := gpioBase q + 0x20
def pmuxPin (p : Nat) : Nat := 0x601000 + 4 * p
def pmuxCtrl : Nat := 0x602000
def gpioRoute (p : Nat) : Nat := 0x603000 + 4 * p

/-- DMA_ registers of engine e and of its channel c (R504, R506). -/
def dmaBase (e : Nat) : Nat := 0x540000 + 0x10000 * e
def dmaEngCfg (e : Nat) : Nat := dmaBase e + 0x4
def dmaRxUnbound (e : Nat) : Nat := dmaBase e + 0x34
def dmaFaults (e : Nat) : Nat := dmaBase e + 0x38
def dmaBytes (e : Nat) : Nat := dmaBase e + 0x3C
def dmaRoute (e s : Nat) : Nat := dmaBase e + 0x80 + 4 * s
def dmaChBase (e c : Nat) : Nat := dmaBase e + 0x1000 + 0x40 * c
def dmaChCfg (e c : Nat) : Nat := dmaChBase e c
def dmaChDesc (e c i : Nat) : Nat := dmaChBase e c + 0xC + 4 * i
def dmaChFseq (e c : Nat) : Nat := dmaChBase e c + 0x18
def dmaChFaults (e c : Nat) : Nat := dmaChBase e c + 0x1C
def dmaChBytes (e c : Nat) : Nat := dmaChBase e c + 0x20

/-- XLT_ registers (R508, R509). -/
def xltInval : Nat := 0x580004
def xltInvalVa (i : Nat) : Nat := 0x580008 + 4 * i
def xltWalks : Nat := 0x580040
def xltMiss : Nat := 0x580048
def xltAsCfg (a : Nat) : Nat := 0x581000 + 0x10 * a
def xltAsRoot (a i : Nat) : Nat := 0x581004 + 0x10 * a + 4 * i

/-- MOD_ registers (R611). -/
def modBusCfg (b : Nat) : Nat := 0x640010 + 4 * b
def modBusFault (b : Nat) : Nat := 0x640020 + 4 * b
def modXferCtrl (b : Nat) : Nat := 0x640040 + 8 * b
def modXferData (b : Nat) : Nat := 0x640044 + 8 * b
def modLaneCfg (n : Nat) : Nat := 0x640100 + 0x10 * n
def modLaneStatus (n : Nat) : Nat := 0x640104 + 0x10 * n
def modLaneScans (n : Nat) : Nat := 0x640108 + 0x10 * n
def modLaneChanges (n : Nat) : Nat := 0x64010C + 0x10 * n
def modRec (n i : Nat) : Nat := 0x641000 + 0x40 * n + 4 * i
def modId (n i : Nat) : Nat := 0x642000 + 0x40 * n + 4 * i

/-- SDS_ registers of lane n (R284). -/
def sdsBase (n : Nat) : Nat := 0x300000 + 0x8000 * n
def sdsCfg (n : Nat) : Nat := sdsBase n
def sdsRate (n : Nat) : Nat := sdsBase n + 0x4
def sdsCtrl (n : Nat) : Nat := sdsBase n + 0x8
def sdsStatus (n : Nat) : Nat := sdsBase n + 0xC
def sdsEvent (n : Nat) : Nat := sdsBase n + 0x10
def sdsTxeq (n : Nat) : Nat := sdsBase n + 0x14
def sdsTxCorr (n : Nat) : Nat := sdsBase n + 0x18
def sdsRxCorr (n : Nat) : Nat := sdsBase n + 0x1C
def sdsPrbsCtrl (n : Nat) : Nat := sdsBase n + 0x20
def sdsPrbsStatus (n : Nat) : Nat := sdsBase n + 0x24
def sdsPrbsErr (n : Nat) : Nat := sdsBase n + 0x28
def sdsPrbsBits (n : Nat) : Nat := sdsBase n + 0x2C
def sdsRawCfg (n : Nat) : Nat := sdsBase n + 0x34
def sdsRawFill (n i : Nat) : Nat := sdsBase n + 0x38 + 4 * i
def sdsRawUnderrun (n : Nat) : Nat := sdsBase n + 0x40
def sdsRawTxdrop (n : Nat) : Nat := sdsBase n + 0x44
def sdsRawLate (n : Nat) : Nat := sdsBase n + 0x48
def sdsLockLoss (n : Nat) : Nat := sdsBase n + 0x4C
def sdsRawSeq (n : Nat) : Nat := sdsBase n + 0x50

/-- MAC_ registers of port p (R290). -/
def macBase (p : Nat) : Nat := 0x380000 + 0x1000 * p
def macCfg (p : Nat) : Nat := macBase p
def macCtrl (p : Nat) : Nat := macBase p + 0x4
def macStatus (p : Nat) : Nat := macBase p + 0x8
def macEvent (p : Nat) : Nat := macBase p + 0xC
def macMaxFrame (p : Nat) : Nat := macBase p + 0x10
def macTxts3 (p : Nat) : Nat := macBase p + 0x2C
def macRxFrames (p : Nat) : Nat := macBase p + 0x40
def macRxBytes (p : Nat) : Nat := macBase p + 0x48
def macTxFrames (p : Nat) : Nat := macBase p + 0x50
def macTxBytes (p : Nat) : Nat := macBase p + 0x58
def macFecCorr (p : Nat) : Nat := macBase p + 0x60
def macRxFcsErr (p : Nat) : Nat := macBase p + 0x80
def macRxRunt (p : Nat) : Nat := macBase p + 0x84
def macRxOversize (p : Nat) : Nat := macBase p + 0x88
def macRxCodeErr (p : Nat) : Nat := macBase p + 0x8C
def macTxDrop (p : Nat) : Nat := macBase p + 0x90
def macFecUncorr (p : Nat) : Nat := macBase p + 0x94
def macLinkChanges (p : Nat) : Nat := macBase p + 0x98
def macTxtsOvf (p : Nat) : Nat := macBase p + 0x9C
def macClear (p : Nat) : Nat := macBase p + 0xA0

/-- TIME_ registers (R294). -/
def timeStatus : Nat := 0x400000
def timeEvent : Nat := 0x400004
def timeCtrl : Nat := 0x400008
def timeNow (i : Nat) : Nat := 0x40000C + 4 * i
def timeIncNs : Nat := 0x400018
def timeIncFrac : Nat := 0x40001C
def timeStep (i : Nat) : Nat := 0x400020 + 4 * i
def timePpsOutCtrl : Nat := 0x40002C
def timePpsOutOffset : Nat := 0x400030
def timePpsInCtrl : Nat := 0x400034
def timePpsInTs (i : Nat) : Nat := 0x400038 + 4 * i
def timePpsInCount : Nat := 0x400044
def timeStepCount : Nat := 0x400048

/-- The fence's permits (R574). -/
def fencePin (i : Nat) : Nat := 0x6C0100 + 4 * i
def fenceLane : Nat := 0x6C0120
def fencePort : Nat := 0x6C0124
def fenceMisc : Nat := 0x6C0128

/-! ## The register tables -/

/-- CHIP_ (R36). -/
def rowsChip : List RegRow :=
  [ r1 0x0 .ro, rn 0x4 4 4 .ro,
    r1 0x20 .rw 0x88889090, r1 0x24 .rw 0x08808888, r1 0x28 .rw 0x00080088, r1 0x2C .rw 0,
    r1 0x30 .w1s 0 1, r1 0x34 .w1c 0 0x1FFFFF, r1 0x38 .ro, r1 0x3C .wo, rn 0x100 32 4 .rc ]

/-- The hive: CHIP_IMFA_ and the mirror of FENCE_ (R544, R573). -/
def rowsHive : List RegRow :=
  [ r1 0x010000 .ro, r1 0x010004 .ro, rn 0x010008 4 4 .rc, rn 0x010018 4 4 .rc, r1 0x010028 .rc,
    rn 0x010100 8 4 .ro, r1 0x010120 .ro, r1 0x010124 .ro, r1 0x010128 .ro, r1 0x01012C .ro,
    r1 0x010130 .ro, r1 0x010134 .ro ]

/-- PWR_ (R643) and BIST_ (R646). -/
def rowsPower : List RegRow :=
  [ r1 0x020000 .ro, r1 0x020004 .rw 3 3, r1 0x020008 .ro 1, r1 0x02000C .rc, r1 0x020010 .rw 0x640 0xFFFF,
    r1 0x020014 .ro, r1 0x020018 .ro, rn 0x020020 11 4 .ro, rn 0x020060 8 4 .ro, rn 0x020080 12 4 .ro,
    r1 0x680000 .ro, r1 0x680004 .rw 0xAFC8 0xFFFFF, r1 0x680008 .ro, r1 0x68000C .ro,
    rnn 0x680100 12 0x10 4 .ro ]

/-- LCY_ and FENCE_ (R574), LOG_ (R576). -/
def rowsLcy : List RegRow :=
  [ r1 0x6C0000 .ro, r1 0x6C0004 .ro, r1 0x6C0008 .rw 0 0xF, r1 0x6C000C .w1c 0 0xF, r1 0x6C0010 .rc,
    r1 0x6C0014 .wo, r1 0x6C0018 .ro, rn 0x6C0100 8 4 .ro, r1 0x6C0120 .ro, r1 0x6C0124 .ro, r1 0x6C0128 .ro,
    r1 0x6C012C .ro 0x40, r1 0x6C0130 .rc, r1 0x6C0134 .rc,
    r1 0x700000 .ro, r1 0x700004 .ro, r1 0x700008 .ro, r1 0x70000C .ro, r1 0x700010 .ro, r1 0x700014 .perId,
    r1 0x700018 .wo, rn 0x700020 8 4 .ro ]

/-- RGN_ (R109): twelve region controllers. -/
def rowsRgn : List RegRow :=
  [ rn 0x100000 12 0x10000 .ro 0x80000040, rn 0x100004 12 0x10000 .wo, rn 0x100008 12 0x10000 .ro,
    rn 0x10000C 12 0x10000 .rw 0 0xFFFF, rn 0x100010 12 0x10000 .w1c 0 0xF, rn 0x100014 12 0x10000 .ro,
    rn 0x100018 12 0x10000 .ro, rnn 0x10001C 12 0x10000 4 .rc, rn 0x10002C 12 0x10000 .ro,
    rn 0x100030 12 0x10000 .rc, rnn 0x100034 12 0x10000 2 .ro, rnn 0x100040 12 0x10000 8 .ro,
    rnn 0x100060 12 0x10000 8 .ro ]

/-- SCH_ (R470, R474, R476, R477). -/
def rowsSch : List RegRow :=
  [ r1 0x500000 .ro, r1 0x500004 .ro, r1 0x500008 .rw 0 0x800F1F3F, r1 0x50000C .rw 0 0x0FFF0FFF,
    r1 0x500010 .rc, r1 0x500014 .rc ] ++ rstat 0x500018 1 0x1000 ++
  [ rn 0x500020 4 4 .perId, r1 0x500030 .perId 0 0xFFFF, r1 0x500034 .wo, r1 0x500038 .ro,
    r1 0x500040 .perId 0 0xFFFFFF, rn 0x500060 8 4 .ro,
    rnn 0x501000 32 0x10 3 .ro, rn 0x50100C 32 0x10 .rc,
    rn 0x502000 512 8 .rw 0 0x8000FFFF, rn 0x502004 512 8 .w1c 0 0x80000000,
    rn 0x504000 256 0x20 .rw 0 0x800001FF, rnn 0x504004 256 0x20 2 .rw, rn 0x50400C 256 0x20 .rw,
    rn 0x504010 256 0x20 .rc ]

/-- FAB_ (R174, R183, R186). -/
def rowsFab : List RegRow :=
  [ r1 0x200000 .ro, r1 0x200004 .rw 2 3, r1 0x200008 .ro 0x4688, r1 0x20000C .ro, r1 0x200010 .rw 0x00100008 0x00FF00FF,
    rn 0x200014 5 4 .rc, r1 0x200028 .ro, r1 0x20002C .ro, r1 0x200030 .ro, r1 0x200034 .rc, r1 0x200040 .rw 0 0xFFF,
    r1 0x200044 .ro, r1 0x200048 .ro, r1 0x20004C .ro,
    rn 0x201000 52 0x80 .ro, rn 0x201004 52 0x80 .w1c 0 0x7, rnn 0x201008 52 0x80 4 .ro ] ++
  rstat 0x201018 52 0x80 ++ rstat 0x201020 52 0x80 ++ rstat 0x201028 52 0x80 ++ rstat 0x201030 52 0x80 ++
  rstat 0x201038 52 0x80 ++
  [ rnn 0x201040 52 0x80 6 .rc, rn 0x201058 52 0x80 .wo,
    rn 0x204000 16 0x100 .rw 0x40000000 0xC03F0FFF, rn 0x204004 16 0x100 .rw 0x88A88100,
    rnn 0x204010 16 0x100 4 .rw 0 0xE00003FF, rnn 0x204020 16 0x100 4 .rw, rn 0x204030 16 0x100 .rw 0 0x80000FFF,
    rn 0x204034 16 0x100 .rw 0 0xFFF, rn 0x204038 16 0x100 .ro ] ++
  rstat 0x204040 16 0x100 ++ rstat 0x204048 16 0x100 ++ [ rnn 0x204050 16 0x100 3 .rc ]

/-- CAL_ (R192). -/
def rowsCal : List RegRow :=
  [ rnn 0x210000 52 0x400 256 .ro, rnn 0x220000 52 0x400 256 .ro, rn 0x230000 5 4 .ro, rn 0x230100 52 4 .ro,
    rn 0x230200 52 4 .ro ]

/-- ADM_ (R234, R240). -/
def rowsAdm : List RegRow :=
  [ r1 0x240000 .ro, r1 0x240004 .ro 1, r1 0x240008 .rc, r1 0x24000C .rc, r1 0x240010 .ro, r1 0x240014 .ro,
    r1 0x240018 .ro, rn 0x240020 6 4 .ro, r1 0x240040 .perId 0 0xFFF, rn 0x240080 16 4 .ro,
    rn 0x241000 52 0x10 .ro, rn 0x241004 52 0x10 .ro, rn 0x241008 52 0x10 .rc, rn 0x24100C 52 0x10 .rc ]

/-- BANK_ (R438, R440, R442). -/
def rowsBank : List RegRow :=
  [ r1 0x480000 .ro, r1 0x480004 .ro, r1 0x480008 .ro, r1 0x48000C .rc,
    rn 0x481000 16 0x40 .rw 0x3F 0x3F, rn 0x481004 16 0x40 .rw 0 0x3, rnn 0x481008 16 0x40 2 .rw 0 0x0FFFFFFF,
    rnn 0x481010 16 0x40 2 .rw 0xFFFFFFFF, rn 0x481018 16 0x40 .rc, rn 0x48101C 16 0x40 .ro ] ++
  rstat 0x481020 16 0x40 ++ rstat 0x481028 16 0x40 ++
  [ rn 0x481030 16 0x40 .wo, rn 0x482000 17 0x40 .wo, rnn 0x482004 17 0x40 4 .ro, rnn 0x482014 17 0x40 2 .rc ]

/-- SDS_ (R284 to R289). -/
def rowsSds : List RegRow :=
  [ rn 0x300000 16 0x8000 .rw 0 0x8F300000, rn 0x300004 16 0x8000 .rw 0 0xFFFFFF, rn 0x300008 16 0x8000 .rw 1 0xF0000007,
    rn 0x30000C 16 0x8000 .ro, rn 0x300010 16 0x8000 .w1c 0 7, rn 0x300014 16 0x8000 .rw 0xFC0 0x3FFFF,
    rnn 0x300018 16 0x8000 2 .rw, rn 0x300020 16 0x8000 .rw 0 0xE0000007, rn 0x300024 16 0x8000 .ro,
    rn 0x300028 16 0x8000 .rc ] ++ rstat 0x30002C 16 0x8000 ++
  [ rn 0x300034 16 0x8000 .rw 0 0xFC000FFF, rnn 0x300038 16 0x8000 2 .rw, rnn 0x300040 16 0x8000 4 .rc,
    rn 0x300050 16 0x8000 .ro ]

/-- MAC_ (R290 to R293). -/
def rowsMac : List RegRow :=
  [ rn 0x380000 16 0x1000 .rw 0 0x8F0FC000, rn 0x380004 16 0x1000 .rw 0 0xF0000000, rn 0x380008 16 0x1000 .ro,
    rn 0x38000C 16 0x1000 .w1c 0 0xF, rn 0x380010 16 0x1000 .rw 0x5F2 0x7FFF, rnn 0x380014 16 0x1000 2 .ro,
    rnn 0x380020 16 0x1000 4 .ro ] ++ rstat 0x380040 16 0x1000 ++ rstat 0x380048 16 0x1000 ++
  rstat 0x380050 16 0x1000 ++ rstat 0x380058 16 0x1000 ++ rstat 0x380060 16 0x1000 ++
  [ rnn 0x380080 16 0x1000 8 .rc, rn 0x3800A0 16 0x1000 .wo ]

/-- TIME_ (R294 to R296). -/
def rowsTime : List RegRow :=
  [ r1 0x400000 .ro, r1 0x400004 .w1c 0 0xF, r1 0x400008 .wo, rn 0x40000C 3 4 .ro, r1 0x400018 .rw 2 0xF,
    r1 0x40001C .rw, rn 0x400020 3 4 .rw, r1 0x40002C .rw 0x186A0 0xC00FFFFF, r1 0x400030 .rw,
    r1 0x400034 .rw 0 0xE0000000, rn 0x400038 3 4 .ro, r1 0x400044 .rc, r1 0x400048 .ro ]

/-- NVS_ (R401). -/
def rowsNvs : List RegRow :=
  [ r1 0x030000 .ro, r1 0x030004 .ro 0x0BE00000, r1 0x030008 .ro, r1 0x03000C .ro 0x1F, rn 0x030010 2 4 .ro,
    r1 0x030018 .rw 0x2AAA 0x3FFF, rn 0x03001C 4 4 .ro, r1 0x03002C .rc, r1 0x030030 .rc ] ++
  rstat 0x030034 1 0x10000 ++ rstat 0x03003C 1 0x10000 ++
  [ r1 0x030044 .rc, r1 0x030048 .ro, r1 0x03004C .rw 0 0xFFF, r1 0x030050 .ro, r1 0x030054 .ro, r1 0x030058 .wo,
    rn 0x031000 1024 4 .ro ]

/-- CFG_ (R355). -/
def rowsCfg : List RegRow :=
  [ rn 0x040000 12 4 .ro, rn 0x040030 3 4 .ro, rn 0x040040 16 4 .ro, r1 0x040080 .ro, r1 0x040084 .ro,
    r1 0x040088 .rc, r1 0x04008C .rc, r1 0x040090 .ro ]

/-- PMUX_ and GPIO_ (R606). -/
def rowsGpio : List RegRow :=
  [ rn 0x600000 15 0x40 .ro, rn 0x600004 15 0x40 .rw 0 0xFFFF, rn 0x600008 15 0x40 .wo, rn 0x60000C 15 0x40 .rw 0 0xFFFF,
    rn 0x600010 15 0x40 .wo, rnn 0x600014 15 0x40 2 .rw 0 0x77777777, rn 0x60001C 15 0x40 .w1c 0 0xFFFF,
    rn 0x600020 15 0x40 .rc, rn 0x601000 240 4 .rw 0x01000000 0x0FF00003, r1 0x602000 .rw 0 1,
    rn 0x603000 240 4 .rw 0 0xE00001FF ]

/-- MOD_ (R611). -/
def rowsMod : List RegRow :=
  [ r1 0x640000 .ro, r1 0x640004 .wo, rn 0x640010 4 4 .rw 0 1, rn 0x640020 4 4 .rc, rn 0x640040 4 8 .rw 0 0x131FFF7F,
    rn 0x640044 4 8 .rw, rn 0x640100 16 0x10 .ro 0x00FFFFFF, rn 0x640104 16 0x10 .ro, rnn 0x640108 16 0x10 2 .rc,
    rnn 0x641000 16 0x40 16 .ro, rnn 0x642000 16 0x40 12 .ro ]

/-- DMA_ (R504, R506): two engines of 16 channels. -/
def rowsDma : List RegRow :=
  [ rn 0x540000 2 0x10000 .ro, rn 0x540004 2 0x10000 .rw 0x640000 0x80FF01FF, rn 0x540008 2 0x10000 .ro,
    rn 0x54000C 2 0x10000 .wo, rnn 0x540010 2 0x10000 8 .ro, rn 0x540030 2 0x10000 .ro, rnn 0x540034 2 0x10000 2 .rc ] ++
  rstat 0x54003C 2 0x10000 ++
  [ rn 0x540044 2 0x10000 .wo, rnn 0x540080 2 0x10000 21 .rw 0 0x8FFF0FFF ] ++
  [0x541000, 0x551000].flatMap (fun b =>
    [ rn b 16 0x40 .rw 0 0xFFFF01FF, rn (b + 0x4) 16 0x40 .wo, rn (b + 0x8) 16 0x40 .ro, rn (b + 0xC) 16 0x40 .rw,
      rn (b + 0x10) 16 0x40 .rw 0 0xFF, rn (b + 0x14) 16 0x40 .ro, rn (b + 0x18) 16 0x40 .ro, rn (b + 0x1C) 16 0x40 .rc ] ++
    rstat (b + 0x20) 16 0x40)

/-- XLT_ (R508, R509). -/
def rowsXlt : List RegRow :=
  [ r1 0x580000 .ro, r1 0x580004 .wo, r1 0x580008 .rw, r1 0x58000C .rw 0 0xFF, r1 0x580010 .ro, r1 0x580014 .wo,
    rn 0x580020 8 4 .ro ] ++ rstat 0x580040 1 0x10000 ++ rstat 0x580048 1 0x10000 ++
  [ r1 0x580050 .wo, rn 0x581000 64 0x10 .rw 0 0xC0000000, rn 0x581004 64 0x10 .rw 0 0xFFFFE000,
    rn 0x581008 64 0x10 .rw 0 0xFF ]

/-- The rows of the 64 KiB page that holds the offset: only these can have a register there. -/
def rowsAt (off : Nat) : List RegRow :=
  if off < 0x010000 then rowsChip
  else if off < 0x020000 then rowsHive
  else if off < 0x030000 then rowsPower
  else if off < 0x040000 then rowsNvs
  else if off < 0x050000 then rowsCfg
  else if off < 0x100000 then []
  else if off < 0x1C0000 then rowsRgn
  else if off < 0x200000 then []
  else if off < 0x210000 then rowsFab
  else if off < 0x240000 then rowsCal
  else if off < 0x250000 then rowsAdm
  else if off < 0x300000 then []
  else if off < 0x380000 then rowsSds
  else if off < 0x400000 then rowsMac
  else if off < 0x480000 then rowsTime
  else if off < 0x500000 then rowsBank
  else if off < 0x540000 then rowsSch
  else if off < 0x560000 then rowsDma
  else if off < 0x580000 then []
  else if off < 0x590000 then rowsXlt
  else if off < 0x600000 then []
  else if off < 0x640000 then rowsGpio
  else if off < 0x680000 then rowsMod
  else if off < 0x6C0000 then rowsPower
  else if off < 0x800000 then rowsLcy
  else []

/-- The row of the register at an offset; none where the offset is unmapped (R17, R46). -/
def regRow (off : Nat) : Option RegRow := (rowsAt off).find? (fun r => r.has off)

/-- The value a register holds after the reset of its block (R21); 0 where there is none. -/
def regReset (off : Nat) : Word :=
  match regRow off with
  | some r => r.reset
  | none => 0

end Sys2Proof.Machine
end

