-- ==== Sys2Proof/Machine/State.lean ====
section
/-! DEFINITION. Everything the spec gives the block, as plain data, and the queue of waiting commands.
Registers whose bits the spec names stay 32-bit words in `regs`, keyed by their control-space offset (R16, R46); a key
that is not listed reads as the register's reset value. Maps with natural-number keys are sparse lists in canonical form. -/
namespace Sys2Proof.Machine

/-- No command of this block stops it: the spec answers every misuse with an effect. The type has no constructor. -/
inductive Fault
  deriving DecidableEq, Repr

/-- The reasons for which a command is turned away. -/
inductive Refusal where
  /-- Raised by an arm of `exec` whose command has no meaning yet. Safe: the run stops. -/
  | notModelled (mnemonic : String)
  deriving DecidableEq, Repr

/-- A 48-bit statistics counter with its SAT flag (R11). -/
structure Stat where
  count : BitVec 48
  sat : Bool
  deriving DecidableEq, Repr

def Stat.zero : Stat := { count := 0, sat := false }

/-- The time base (R10, R276 to R282). -/
structure TimeState where
  /-- Device time: 64 bits of nanoseconds, 32 bits of fraction. -/
  now : Time96
  /-- Time since the latest start, in the same units; never stepped or set. -/
  uptime : Time96
  /-- Device time counts (from step 2 of the start on, R276). -/
  running : Bool
  /-- The increment in use: 4 bits of whole ns above the 32-bit fraction (R277). -/
  inc : BitVec 36
  /-- Captured values, each with the uptime 64 ns after its write landed, before which it does not take effect (R278). -/
  pendRate : Option (BitVec 36 × Time96)
  pendStep : Option (Time96 × Time96)
  pendSet : Option (Time96 × Time96)
  /-- A pulse of PPS_OUT runs, to this uptime (R281); the level at PPS_IN, and its interrupt to the hive (R282). -/
  ppsOut : Option Time96
  ppsIn : Bool
  ppsIrq : Bool
  deriving DecidableEq, Repr

/-- One 32-byte trouble log entry (R567). -/
structure LogEntry where
  time : DWord
  seq : Word
  code : Byte
  source : Byte
  path : BitVec 16
  data : List Byte
  deriving DecidableEq, Repr

/-- An entry that a command offers to the log beside its escalations (R570), and the flows that its SEQ marks (R217). -/
structure LogOffer where
  time : DWord
  code : Nat
  source : Nat
  path : BitVec 16
  data : List Byte
  flows : List Nat
  deriving DecidableEq, Repr

/-- The trouble log (R566 to R572), oldest entry first. -/
structure LogState where
  entries : List LogEntry
  nextSeq : Word
  lost : Word
  wrapped : Bool
  /-- The snapshot that LOG_SEL took, one per requester identity (R572). -/
  snaps : List (Nat × Option LogEntry)
  /-- The intake: what the command has offered so far, besides escalations (R570). -/
  intake : List LogOffer
  /-- The most entries that the intake queue can have held once the latest was offered, at uptime `fillAt` (R570). -/
  fill : Nat
  fillAt : Time96
  deriving DecidableEq, Repr

/-- The stored lifecycle states; SERVICE is never stored (R546, R547). -/
inductive LcState where
  | manufacture
  | opened
  | deployed
  | retired
  deriving DecidableEq, Repr

/-- The key store: non-volatile (R547, R556, R557). An entry of 32 zero bytes is not provisioned. -/
structure KeyStore where
  state : LcState
  attempts : Byte
  wipePending : Bool
  userKeyHash : List Byte
  userKey : List Byte
  serviceKey : List Byte
  passwordHash : List Byte
  tamperCfg : BitVec 4
  /-- The second copies of the state and of the failed-attempt counter (R547). -/
  state2 : LcState
  attempts2 : Byte
  /-- Sources of a trip whose wipe a loss of power has cut short (R559). -/
  cut : BitVec 4
  deriving DecidableEq, Repr

/-- A service nonce with the SCOPE it was drawn for (R552). -/
structure Nonce where
  bytes : List Byte
  scope : Word
  deriving DecidableEq, Repr

/-- The volatile part of the lifecycle machine: the session area, the attempt delay and the tamper inputs. -/
structure LcySession where
  nonce : Option Nonce
  /-- The working key of the cryptographic engine: none where it has been wiped, or has decrypted no group since (R311, R547). -/
  working : Option (List Byte)
  /-- SCOPE of the open SERVICE session (R554). -/
  scope : Option Word
  /-- Uptime at the latest failure or start, from which the attempt delay runs (R556). -/
  delayFrom : Time96
  /-- Tamper conditions present, enabled or not: TAMPER_N asserted, supply, clock, temperature (R558). -/
  tamperNow : BitVec 4
  /-- A wipe of the image partitions runs (R550). -/
  wiping : Bool
  deriving DecidableEq, Repr

/-- One thread record (R445). -/
inductive ThreadState where
  | free
  | ready
  | running
  | blocked
  | sleeping
  deriving DecidableEq, Repr

structure Thread where
  gen : Byte
  state : ThreadState
  result : BitVec 4
  priority : BitVec 6
  dl : Bool
  port : Option (Fin 32)
  waitObj : Option (Fin 512)
  affinity : Word
  deadline : Word
  cookie : DWord
  /-- WAKE, where the thread has a timeout or sleeps. -/
  wake : Option Word
  order : Word
  /-- The spill record that holds the thread, where it is not on chip (R465). -/
  spill : Option Nat
  /-- When it was spilled: a count that orders spilled records (R466). -/
  spillSeq : Nat
  /-- ORDER, and DEADLINE, have changed since the record was last sent to the spill area. -/
  newOrder : Bool
  newDeadline : Bool
  deriving DecidableEq, Repr

def Thread.blank : Thread :=
  { gen := 0, state := .free, result := 0, priority := 0, dl := false, port := none, waitObj := none, affinity := 0,
    deadline := 0, cookie := 0, wake := none, order := 0, spill := none, spillSeq := 0,
    newOrder := false, newDeadline := false }

/-- One dispatch port (R450 to R460), with the latest result presented at it. -/
structure DispPort where
  /-- INDEX of the RUNNING thread, 0 when vacant. -/
  running : Nat
  takeNext : Bool
  /-- RES_VALID: the result of the port's latest call has been presented (R452). -/
  resValid : Bool
  resCode : BitVec 4
  resHandle : BitVec 24
  resCookie : DWord
  resAux : BitVec 4
  deriving DecidableEq, Repr

def DispPort.vacant : DispPort :=
  { running := 0, takeNext := false, resValid := false, resCode := 0, resHandle := 0, resCookie := 0, resAux := 0 }

/-- One event object (R458, R476). -/
structure EvObj where
  broadcast : Bool
  count : BitVec 16
  pending : BitVec 16
  ovf : Bool
  deriving DecidableEq, Repr

def EvObj.zero : EvObj := { broadcast := false, count := 0, pending := 0, ovf := false }

/-- A CREATE that waits for a spill (R464): its caller and its arguments. -/
inductive Caller where
  | port (p : Fin 32)
  | bus (id : Fin 13)
  /-- A port whose region has frozen since: the result is discarded (R461). -/
  | gone
  deriving DecidableEq, Repr

structure CreateArgs where
  caller : Caller
  cookie : DWord
  affinity : Word
  deadline : Word
  dl : Bool
  priority : BitVec 6
  deriving DecidableEq, Repr

/-- A spill or a refill in progress (R465, R466): the thread's INDEX and its spill record. -/
inductive SpillJob where
  | spill (index slot : Nat)
  | refill (index slot : Nat)
  deriving DecidableEq, Repr

/-- The hardware thread scheduler (chapter 09). -/
structure SchedState where
  threads : List (Nat × Thread)
  /-- The region that a dispatch port is assigned to, plus 1; 0 for none (R450). -/
  assign : List (Nat × Nat)
  nextOrder : Word
  nextSpillSeq : Nat
  ports : List (Nat × DispPort)
  events : List (Nat × EvObj)
  /-- Objects with pending signals, in order of their first pending signal (R458). -/
  evQueue : List (Fin 512)
  job : Option SpillJob
  /-- TAG of the latest request of the spill or refill in progress, and GEN of its thread when it began. -/
  jobTag : BitVec 16
  jobGen : Byte
  waitingCreates : List CreateArgs
  /-- A SCH_TMR_EXP0 write that is held (R477): key identity × 256 + timer, the value plus 1. -/
  heldExp : List (Nat × Nat)
  /-- SCH_REC_DATA, one snapshot of 32 bytes per identity (R473). -/
  snaps : List (Nat × List Byte)
  deriving DecidableEq, Repr

/-- A cell with its header fields (R136). `num` is the order of acceptance, or of sending for a carried cell. -/
structure Cell where
  flow : BitVec 12
  som : Bool
  eom : Bool
  err : Bool
  acc : Bool
  cls : BitVec 2
  aspace : BitVec 6
  src : BitVec 6
  dest : BitVec 6
  bytes : BitVec 6
  astamp : BitVec 16
  payload : List Byte
  num : Nat
  deriving DecidableEq, Repr

/-- What a block-memory port presents in one cycle (R83, R85, R88). -/
structure PortOut where
  dout : BitVec 72
  busy : Bool
  corr : Bool
  uncorr : Bool
  deriving DecidableEq, Repr

def PortOut.zero : PortOut := { dout := 0, busy := false, corr := false, uncorr := false }

/-- A block-memory port: what it presents, what its output register will present next, and its latest read data. -/
structure BramPort where
  now : PortOut
  next : Option PortOut
  lastRead : BitVec 72
  deriving DecidableEq, Repr

def BramPort.zero : BramPort := { now := .zero, next := none, lastRead := 0 }

/-- A queue controller (R94 to R98): the read pointer, the words it holds, the writes that the read side does not see yet
and the reads that the write side does not see yet (R97), oldest first, each with the cycles left at most of the clock
where it was made and of the other. -/
structure QueueCtl where
  rptr : Nat
  level : Nat
  toRead : List (Nat × Nat)
  toWrite : List (Nat × Nat)
  overflow : Bool
  underflow : Bool
  /-- QRST is asserted; after its release, the cycles of each side's clock until it takes effect there (R98). -/
  qrst : Bool
  holdW : Nat
  holdR : Nat
  deriving DecidableEq, Repr

def QueueCtl.empty : QueueCtl :=
  { rptr := 0, level := 0, toRead := [], toWrite := [], overflow := false, underflow := false, qrst := false,
    holdW := 0, holdR := 0 }

/-- The operands as an input register holds them (R102). -/
structure ArithIn where
  a : BitVec 27
  b : BitVec 27
  d : BitVec 27
  a1 : BitVec 18
  b1 : BitVec 18
  a2 : BitVec 18
  b2 : BitVec 18
  deriving DecidableEq, Repr

def ArithIn.zero : ArithIn := { a := 0, b := 0, d := 0, a1 := 0, b1 := 0, a2 := 0, b2 := 0 }

/-- What a pre-adder register holds: A ± D with B, or the operands of dual mode (R99, R102). -/
structure ArithPre where
  sum : BitVec 28
  b : BitVec 27
  a1 : BitVec 18
  b1 : BitVec 18
  a2 : BitVec 18
  b2 : BitVec 18
  deriving DecidableEq, Repr

def ArithPre.zero : ArithPre := { sum := 0, b := 0, a1 := 0, b1 := 0, a2 := 0, b2 := 0 }

/-- An arithmetic block's registers: input, pre-adder, product, and the accumulator with OVF (R100, R102). -/
structure Acc where
  inp : ArithIn
  pre : ArithPre
  prod : BitVec 64
  acc : BitVec 64
  ovf : Bool
  deriving DecidableEq, Repr

def Acc.zero : Acc := { inp := .zero, pre := .zero, prod := 0, acc := 0, ovf := false }

/-- An I/O cell's registers (R103): the bits captured at the rising and at the falling edge, the two bits presented, the
two output bits, the output enable, and whether the clock is in its high phase. -/
structure IoRegs where
  capRise : Bool
  capFall : Bool
  q1 : Bool
  q2 : Bool
  o1 : Bool
  o2 : Bool
  oe : Bool
  high : Bool
  deriving DecidableEq, Repr

def IoRegs.zero : IoRegs :=
  { capRise := false, capFall := false, q1 := false, q2 := false, o1 := false, o2 := false, oe := false, high := false }

/-- A delay line: where it stands and where it is going (R104). -/
structure DelayLine where
  cur : Fin 512
  goal : Fin 512
  deriving DecidableEq, Repr

def DelayLine.zero : DelayLine := { cur := 0, goal := 0 }

/-- The user state of the logic regions (chapter 02). Keys: see `Keys` in Ops. -/
structure LogicState where
  /-- Latched-disabled taps of region-wide lines: key region × 4096 + line, 16 bits. -/
  glineLatched : List (Nat × BitVec 16)
  /-- Latched-disabled taps of chip-wide lines: 12 bits, one per region. -/
  clineLatched : List (Nat × BitVec 12)
  /-- Shift registers: key region × 80,000 + cell. -/
  shiftRegs : List (Nat × DWord)
  /-- Block-memory rows: key (region × 240 + memory) × 512 + row, 72 bits. -/
  bram : List (Nat × BitVec 72)
  /-- Regions whose memories a march has left undefined: key region; the first of their free values, plus 1. -/
  bramFree : List (Nat × Nat)
  /-- Stored errors of rows (same keys): 1 one bit, 2 two bits, 3 undefined check bits (R86). -/
  bramErr : List (Nat × Nat)
  bramCfg : List (Nat × BramCfg)
  /-- Key (region × 240 + memory) × 2 + port. -/
  bramPorts : List (Nat × BramPort)
  /-- Corrected rows that wait to be written back (R89), oldest first: key region × 240 + memory. -/
  writeback : List (Nat × List Nat)
  queues : List (Nat × QueueCtl)
  arith : List (Nat × Acc)
  arithCfg : List (Nat × ArithCfg)
  /-- Delay lines: key pin × 2 for the input delay, pin × 2 + 1 for the output delay. -/
  delays : List (Nat × DelayLine)
  /-- Settings from the frames of an image. Cells: key region × 80,000 + cell; chain inputs: region × 5,000 + block; I/O
  cells: region × 20 + i; regions; taps: line × 16 + position, the lines numbered as in `Config.frameTaps`; hold values
  of chip-wide taps: line × 16 + region. -/
  cells : List (Nat × CellCfg)
  chains : List (Nat × ChainIn)
  ios : List (Nat × IoCfg)
  rgns : List (Nat × RgnCfg)
  taps : List (Nat × TapCfg)
  tapHolds : List (Nat × Hold)
  /-- Sources of the clock trees and of the reset nets, from the chip-global frames (R69, R72). -/
  trees : List (Nat × TreeSrc)
  nets : List (Nat × NetSrc)
  /-- Flip-flops (R56): key (region × 80,000 + cell) × 2, plus 1 for FFB. -/
  ffs : List (Nat × Bool)
  /-- Registers of the I/O cells (R103): key region × 20 + i. -/
  ioRegs : List (Nat × IoRegs)
  /-- Levels of the global lines, which a keeper holds (R63, R66): key line. -/
  lines : List (Nat × Bool)
  /-- Uptime in ns at the latest rising edge of each tree, plus 1 (R79). -/
  treeSeen : List (Nat × Nat)
  /-- Edges of a tree for which a region's flip-flops on it stay in reset (R78, R79): key region × 16 + tree. -/
  treeHold : List (Nat × Nat)
  /-- The level of each tree (R69), and the half periods that each lane clock has run, modulo 16: key lane × 2, plus 1 for the
  recovered clock. -/
  treeLevel : BitVec 16
  laneHalf : List (Nat × Nat)
  /-- Gates that were open at the latest rising edge of their tree, and so stay until it is low again (R71): key region × 16 +
  tree. -/
  gateHigh : List (Nat × Bool)
  /-- Uptime in ns at which the last freeze reason of a region that thaws has cleared, plus 1 (R78). -/
  thawAt : List (Nat × Nat)
  /-- TX_QFLOW at the latest edge of an endpoint clock (R132): key region × 2, plus 1 for side B. -/
  qflow : List (Nat × BitVec 12)
  /-- What the freeze latches of a frozen region hold (R74, R77): the level or high impedance of each pin (key region × 20
  + i: 0 high impedance, 1 low, 2 high), enable and data of its chip-wide taps (key line × 16 + region), its reset driver. -/
  heldPins : List (Nat × Nat)
  heldTaps : List (Nat × (Bool × Bool))
  heldDriver : BitVec 12
  /-- The tap size trim that the calibration engine measured last, where it has (R105). -/
  tapTrim : Option (BitVec 16)
  /-- Window messages that wait for a region's window engine (R53, R91): key region. -/
  winq : List (Nat × List Cell)
  deriving DecidableEq, Repr

/-- The chip block: classes whose pending bit forces ALERT_N because R31 forced it. -/
structure ChipState where
  forcedAlert : Word
  deriving DecidableEq, Repr

/-- A request that passed the checks on arrival and waits for the hive (R510, R517). -/
structure Req where
  via : Via
  opcode : BitVec 16
  tag : BitVec 16
  /-- The FLAGS field as received; bit 0 is RETRY. -/
  flags : BitVec 16
  params : List Byte
  deriving DecidableEq, Repr

/-- A stored reply (R511, R518). -/
structure Reply where
  tag : BitVec 16
  status : BitVec 16
  alert : Bool
  replayed : Bool
  payload : List Byte
  deriving DecidableEq, Repr

/-- One transport, or one source endpoint of endpoint 48 (R518, R525, R530). -/
structure HivePort where
  rxErr : Bool
  reply : Option Reply
  /-- OPCODE and TAG of the latest request taken up (R519). -/
  latest : Option (BitVec 16 × BitVec 16)
  /-- JTAG: the bytes appended so far, whether bytes are discarded until ABORT, and the reply pointer. -/
  part : List Byte
  discard : Bool
  rptr : Nat
  /-- A request that arrived after every other of the transport has been refused at once (R514): the replies of those are not
  kept (R518). -/
  newer : Bool
  deriving DecidableEq, Repr

def HivePort.idle : HivePort :=
  { rxErr := false, reply := none, latest := none, part := [], discard := false, rptr := 0, newer := false }

/-- Where a stream session's bytes go (R334): DIRECT from the hive or from JTAG, slot or library entry. -/
inductive StreamTarget where
  | direct (jtag : Bool)
  | slot (t : Nat)
  | lib (e : Nat)
  deriving DecidableEq, Repr

/-- Whose erases a job performs: NVS_ERASE of a partition from a sector index, CFG_STREAM_OPEN of a target, or
CFG_LIB_ERASE of an entry. -/
inductive EraseFor where
  | nvs (part first : Nat)
  | stream (target : StreamTarget) (length : Nat)
  | lib (entry : Nat)
  deriving DecidableEq, Repr

/-- What a command that does not finish at once is doing. An erase run holds the logical sectors still to erase, whether
the first of them has started or waits for a token, and how many are done. -/
inductive JobKind where
  | erases (why : EraseFor) (todo : List Nat) (started waits : Bool) (done : Nat)
  | program (part offset length : Nat)
  | march (bank : Nat)
  | migrate (bank : Nat)
  | remapUndo (bank : Nat)
  | selftest (region kind : Nat)
  | shutdown
  | moduleScan
  | ownerSet (bank : Nat)
  deriving DecidableEq, Repr

/-- A command being executed, or one that continues under a ticket (R520 to R522). -/
structure Job where
  req : Req
  kind : JobKind
  progress : Byte
  ticket : Option Word
  final : Option (BitVec 16 × List Byte)
  /-- A hive reset has discarded its request, while the hardware still performs it (R523). -/
  gone : Bool
  deriving DecidableEq, Repr

/-- The resets that are due 10 ms after a reply (R531, R550). -/
inductive DueReset where
  | device
  | hive
  | commit
  | lifecycle
  deriving DecidableEq, Repr

/-- The hive and its transports (chapters 11 and 12). -/
structure HiveState where
  /-- CHIP_IMFA_STATUS.READY (R545). -/
  ready : Bool
  /-- Held in reset by rung 4 (R624), or because both firmware slots failed (R565). -/
  held : Bool
  failed : Bool
  fwSlot : Bool
  /-- Watchdog resets in a row (R564), those that came before READY (R565), and the uptime of the latest heartbeat. -/
  wdogRow : Byte
  wdogEarly : Nat
  wdogFrom : Time96
  /-- MGT_ADDR as sampled at power-good (R527), and whether it has been since the latest reset (R545). -/
  addr : BitVec 3
  sampled : Bool
  spi : HivePort
  i2c : HivePort
  jtag : HivePort
  ep48 : List (Nat × HivePort)
  waiting : List Req
  jobs : List Job
  /-- Resets answered and not yet performed, the first due in front. -/
  due : List DueReset
  /-- TICKET values issued since the latest hive reset (R521). -/
  tickets : List Word
  /-- What the latest SPI and I2C reads returned. -/
  spiOut : List Byte
  i2cOut : List Byte
  deriving DecidableEq, Repr

/-- A test of the shutdown suite (R634) with its estimate in mW. -/
inductive SuiteTest where
  | region (n : Fin 12) (est : Nat)
  | bank (p : Fin 17)
  deriving DecidableEq, Repr

/-- A shutdown in progress (R636). -/
structure Shutdown where
  byCommand : Bool
  selftest : Bool
  cap : Nat
  todo : List SuiteTest
  running : List SuiteTest
  /-- Banks that rung 3 has powered down: they record INCOMPLETE (R638). -/
  cut : BitVec 17
  deriving DecidableEq, Repr

/-- Supplies, resets, shedding and shutdown (chapter 14). -/
structure PowerState where
  /-- Before power-good: power-on reset holds (R615). -/
  por : Bool
  /-- A device reset has cleared the device, and its start sequence is still to run. -/
  startDue : Bool
  /-- RESET_N is low (R619), and a thermal trip holds the device in reset (R623). -/
  resetN : Bool
  thermHold : Bool
  /-- The two causes of rung 1 (R628). -/
  rung1Core : Bool
  rung1Aux : Bool
  /-- Shed classes that still have to thaw after the restore of rung 3, in order (R626). -/
  thawNext : List Nat
  /-- Banks of pins whose VCCIO is lost: HP0 to HP3, GP0, GP1 (R617). -/
  vccioOff : BitVec 6
  /-- A temperature has been read since the start (R643). -/
  sampled : Bool
  shutdown : Option Shutdown
  deriving DecidableEq, Repr

/-- An entry of an ingress replay store (R131, R158): the replay sequence, whether the cell has been sent, whether a
replay of it is due, whether it has been replayed, and whether a good copy has reached its egress. -/
structure ReplayEnt where
  seq : Byte
  cell : Cell
  sent : Bool
  due : Bool
  replayed : Bool
  arrived : Bool
  deriving DecidableEq, Repr

/-- The ingress side of an endpoint (R124, R130, R131). -/
structure Ingress where
  queue : List Cell
  /-- Cells that a block of the device has still to present at its ingress. -/
  outbox : List Cell
  be : List Cell
  replay : List ReplayEnt
  seq : Byte
  deriving DecidableEq, Repr

def Ingress.empty : Ingress := { queue := [], outbox := [], be := [], replay := [], seq := 0 }

/-- The framing state of one flow at one ingress (R125 to R127, R198). -/
structure Framing where
  isOpen : Bool
  count : Nat
  /-- The open or next message ends with ERR = 1. -/
  errNext : Bool
  /-- Cells are discarded up to the next EOM: not at all, for length, or for a denied class. -/
  skip : Bool
  denied : Bool
  cls : BitVec 2
  aspace : BitVec 6
  deriving DecidableEq, Repr

def Framing.closed : Framing :=
  { isOpen := false, count := 0, errNext := false, skip := false, denied := false, cls := 0, aspace := 0 }

/-- A cell on its way across the core: the ingress that sent it and its replay sequence where it is held for replay. -/
structure Flight where
  cell : Cell
  ingress : Nat
  seq : Option Byte
  second : Bool
  /-- The planes that carried slices 0 to 3, and where one was watched, that one and the spare that mirrored it (R157,
  R163). -/
  planes : List Nat
  mirror : Option (Nat × Nat)
  deriving DecidableEq, Repr

/-- An acknowledgement on its way to an ingress (R158), for the cell with this acceptance number. -/
structure Ack where
  ingress : Nat
  num : Nat
  good : Bool
  deriving DecidableEq, Repr

/-- A cell in an egress pool (R168). `missed` marks a CHECK miss (R159); `payloadOk` is false where it is undefined. -/
structure PoolEnt where
  cell : Cell
  missed : Bool
  payloadOk : Bool
  deriving DecidableEq, Repr

/-- One plane's record of check failures (R164). -/
structure PlaneState where
  fails : Nat
  consec : Nat
  deriving DecidableEq, Repr

def PlaneState.clean : PlaneState := { fails := 0, consec := 0 }

/-- A classifier entry (R148, R189). -/
structure ClsEntry where
  key : BitVec 128
  valid : Bool
  flow : BitVec 12
  deriving DecidableEq, Repr

def ClsEntry.blank : ClsEntry := { key := 0, valid := false, flow := 0 }

/-- The fabric core (chapter 03). -/
structure FabState where
  /-- The count of the next slot to start, once it has been set; the period whose boundary was last passed (R150). -/
  slotSet : Bool
  nextSlot : DWord
  period : DWord
  begun : Bool
  /-- Uptime at the latest period boundary (R151). -/
  boundaryUp : Time96
  /-- The next acceptance number. -/
  nextNum : Nat
  ingress : List (Nat × Ingress)
  /-- Key endpoint × 4,096 + flow. -/
  framing : List (Nat × Framing)
  flight : List Flight
  acks : List Ack
  /-- Flows whose credit is on its way back (R129). -/
  credits : List Nat
  pools : List (Nat × List PoolEnt)
  /-- What the receive side of an endpoint holds or last presented (R133): key endpoint. -/
  rx : List (Nat × List Cell)
  /-- Calendars: key egress × 512 + slot, the flow that holds the slot, 0 for none (R152). -/
  calActive : List (Nat × Nat)
  calStaged : List (Nat × Nat)
  swapPend : BitVec 52
  copyPend : BitVec 52
  /-- Best-effort start index and round-robin pointers (R155). -/
  beStart : Nat
  bePtr : List (Nat × Nat)
  planes : List (Nat × PlaneState)
  /-- The first slot count that a watch in progress mirrors (R163). -/
  watchFrom : Nat
  /-- Accepted-cell and miss counters of each flow (R182). -/
  flowAcc : List (Nat × Stat)
  flowMiss : List (Nat × Word)
  /-- Classifier tables: key port × 4,096 + index. -/
  cls : List (Nat × ClsEntry)
  /-- A cell of the message now being handed over was errored: key `msgKey` (R159, R161). -/
  egErr : List (Nat × Bool)
  /-- Where the rest of the message now being handed over goes: 0 on, 1 discarded (R144), 2 the window engine; key
  `msgKey`. -/
  msgRoute : List (Nat × Nat)
  deriving DecidableEq, Repr

/-- The states of a flow (R194). -/
inductive FlowState where
  | free
  | pending
  | live
  | draining
  | moving
  deriving DecidableEq, Repr

/-- A flow descriptor (R194) with what its ingress and egress keep for it. -/
structure Flow where
  src : BitVec 8
  dest : BitVec 8
  n : BitVec 16
  b : BitVec 16
  m : BitVec 16
  allocReq : BitVec 16
  dReq : Word
  flags : BitVec 16
  eventObj : BitVec 16
  state : FlowState
  holds : Bool
  destSusp : Bool
  srcSusp : Bool
  degraded : Bool
  alloc : BitVec 16
  gMax : BitVec 16
  required : BitVec 16
  bound : Word
  livePeriod : Word
  suspSeq : Word
  detail : Byte
  /-- Bucket and credits (R128, R129). -/
  tokens : Nat
  credits : Nat
  /-- Period boundaries until the flow resumes (R218); 0 when none is due. -/
  resumeIn : Nat
  /-- The egress discards arriving cells until a SOM (R218). -/
  skipToSom : Bool
  /-- Acceptance has stopped (R212), and the slots were taken out of the staged table. -/
  stopped : Bool
  slotsOut : Bool
  /-- The flow takes part in a swap that is requested: it goes live, or its slots change, at that swap. -/
  swapDue : Bool
  /-- The other SRC and DEST of a switchover: the new ones until B, the old ones after it, and the acceptance number
  at B (R226, R227). -/
  altSrc : BitVec 8
  altDest : BitVec 8
  movedAt : Nat
  deriving DecidableEq, Repr

def Flow.blank : Flow :=
  { src := 0, dest := 0, n := 0, b := 0, m := 0, allocReq := 0, dReq := 0, flags := 0, eventObj := 0, state := .free,
    holds := false, destSusp := false, srcSusp := false, degraded := false, alloc := 0, gMax := 0, required := 0,
    bound := 0, livePeriod := 0, suspSeq := 0, detail := 0, tokens := 0, credits := 0, resumeIn := 0,
    skipToSom := false, stopped := false, slotsOut := false, swapDue := false, altSrc := 0, altDest := 0, movedAt := 0 }

/-- A region pair (R223 to R228, R238). -/
structure PairState where
  declared : Bool
  /-- 0 none, 1 STAGED, 2 DRAINING, 3 DRAINED. -/
  step : BitVec 2
  target : Bool
  moved : BitVec 13
  flows : List Nat
  /-- The old slots are out of the staged tables and the swap is requested. -/
  slotsOut : Bool
  deriving DecidableEq, Repr

def PairState.none : PairState :=
  { declared := false, step := 0, target := false, moved := 0, flows := [], slotsOut := false }

/-- The admission engine (chapter 04). -/
structure AdmState where
  flows : List (Nat × Flow)
  pairs : List (Nat × PairState)
  /-- Endpoints marked suspended (R215). -/
  suspended : BitVec 52
  /-- ADM_FLOW_DATA, one snapshot of 64 bytes per identity (R239). -/
  snaps : List (Nat × List Byte)
  /-- The header of a full image whose flows wait for the window of R211 (R347), and whether a request of the hive is
  served before them (R200). -/
  loadWaits : Option (List Byte)
  loadBehind : Bool
  /-- A request that waits for the window without the hive that handed it to the engine: a hive reset has discarded it there
  (R523). -/
  handed : Option Req
  deriving DecidableEq, Repr

/-- One port's message waiting to be sent (R252): the flow it came on and its bytes. -/
structure TxMsg where
  flow : BitVec 12
  bytes : List Byte
  deriving DecidableEq, Repr

/-- A transmit stamp (R274). -/
structure TxStamp where
  /-- MAC_TXTS3 without VALID: message type, domain and sequence ID. -/
  tag : Word
  time : Time96
  deriving DecidableEq, Repr

/-- The raw gearbox of a lane (R256 to R261). -/
structure RawState where
  txSeq : BitVec 16
  rxSeq : BitVec 16
  txQueue : List Cell
  /-- The TIME of the cell at the head of the queue was still to come when it came there (R260). -/
  waits : Bool
  /-- The lane lost signal or CDR lock, and the alignment changed, since the latest received cell (R258). -/
  lost : Bool
  aligned : Bool
  /-- Running disparity of 8b/10b, sent and received; true is positive. -/
  txRd : Bool
  rxRd : Bool
  /-- The last 58 scrambled bits sent and received. -/
  txScr : BitVec 58
  rxScr : BitVec 58
  /-- Which of the last 64 blocks had an invalid sync header, while the block lock holds (R261). -/
  badHeads : BitVec 64
  /-- Consecutive valid sync headers, at most 64 of them counted (R261). -/
  goodHeads : Nat
  deriving DecidableEq, Repr

def RawState.idle : RawState :=
  { txSeq := 0, rxSeq := 0, txQueue := [], waits := false, lost := false, aligned := false, txRd := false, rxRd := false,
    txScr := 0, rxScr := 0, badHeads := 0, goodHeads := 0 }

/-- Lanes and ports (chapter 05). -/
structure SerialState where
  /-- Lanes whose transmitter shedding has turned off (R246). -/
  txShed : BitVec 16
  /-- Lanes whose rung has restored and whose transmitter is not on again yet (R246). -/
  txWait : BitVec 16
  macTx : List (Nat × List TxMsg)
  txts : List (Nat × List TxStamp)
  raw : List (Nat × RawState)
  /-- Bits that INJECT has inverted in the generated stream (R265): key lane. -/
  prbsInject : List (Nat × Nat)
  /-- The last 31 bits of the generated pattern before inversion (R265): key lane. -/
  prbs : List (Nat × BitVec 31)
  /-- What a port or lane sent last: a frame from its preamble to its FCS, or the fault that the MAC signals; raw units,
  each 8b/10b character as its 10 bits in two bytes, each block as its sync header and eight bytes; 64 bits of a pattern.
  Key lane. -/
  lineOut : List (Nat × List Byte)
  /-- What a near loopback has carried last from a lane's transmitter to its own receiver, as in `lineOut` (R264): key lane. -/
  loopIn : List (Nat × List Byte)
  /-- Lanes whose next falls of SIGNAL_DETECT and CDR_LOCK the device causes itself (R269). -/
  exempt : BitVec 16
  deriving DecidableEq, Repr

/-- Why a march runs on a physical bank (R425 to R430). -/
inductive MarchCause where
  | start
  | command
  | restore
  | suite
  deriving DecidableEq, Repr

/-- A march engine's run: its algorithm, its mode, why it runs, and whether it is stopped for now (R429). -/
structure MarchRun where
  checker : Bool
  preserving : Bool
  cause : MarchCause
  stopped : Bool
  deriving DecidableEq, Repr

/-- What a bank's port granted last (R420). -/
inductive Grant where
  | none
  | wipe
  | march
  | cpu (src flow : Nat)
  | data (src flow : Nat)
  | dma (src flow : Nat)
  | copy
  | writeBack
  /-- The second cycle of a read-modify-write (R421). -/
  | second
  deriving DecidableEq, Repr

/-- A message that a bank is executing (R414, R420): the number of its first cell, the bank and byte offset that its checks
gave, whether it reads the spare's window, the words performed, the data read so far, and whether a lane was
uncorrectable. -/
structure BankRun where
  num : Nat
  bank : Nat
  offset : Nat
  spare : Bool
  done : Nat
  data : List Byte
  bad : Bool
  deriving DecidableEq, Repr

/-- One bank port's history (R420, R421). -/
structure BankPort where
  last : Grant
  /-- The next cycle belongs to the read-modify-write of the latest grant. -/
  second : Bool
  /-- Port cycles since the latest CPU-class grant, up to 3. -/
  sinceCpu : Nat
  /-- Cycles that a migration copy has waited (R420). -/
  copyWait : Nat
  deriving DecidableEq, Repr

def BankPort.idle : BankPort := { last := .none, second := false, sinceCpu := 3, copyWait := 0 }

/-- The deep banks (chapter 08). -/
structure BankState where
  /-- Bank words: key physical bank × 65,536 + word. -/
  words : List (Nat × BitVec 512)
  /-- Banks whose words a march has left undefined: key physical bank; the first of their free values, plus 1. -/
  wordsFree : List (Nat × Nat)
  /-- Stored lane errors: key (bank × 65,536 + word) × 8 + lane; 1 one bit, 2 uncorrectable. -/
  ecc : List (Nat × Nat)
  /-- Request queues: key logical bank × 4 + class (1 CPU, 2 data, 3 DMA). -/
  queues : List (Nat × List Cell)
  /-- Messages held by a handover (R412): same keys. -/
  heldq : List (Nat × List Cell)
  /-- The queue that the open message of a flow enters: key flow; queue key × 2 + held, plus 1. -/
  route : List (Nat × Nat)
  marches : List (Nat × MarchRun)
  /-- Rows soft-repaired in each physical bank, ascending (R430). -/
  repairs : List (Nat × List Nat)
  ports : List (Nat × BankPort)
  /-- Messages of which a word access has been granted: key request queue × 4,096 + flow. -/
  running : List (Nat × BankRun)
  /-- Corrected words that wait to be written back (R424): key physical bank. -/
  writeback : List (Nat × List Nat)
  /-- The latest march of the replaced bank ran after the remap (R434). -/
  retested : Bool
  /-- The physical bank that serves no address, while a tamper or lifecycle wipe of its partition runs (R416, R418). -/
  wipeAlso : Option Nat
  deriving DecidableEq, Repr

/-- The pins whose level follows from the rest of the state after every command. True: the pin is asserted. -/
structure OutPins where
  /-- ALERT_N is low (R39). -/
  alert : Bool
  /-- SHUTDOWN_DONE is high (R636). -/
  shutdownDone : Bool
  /-- The causes of R215 that each endpoint last showed while it had any (R219). -/
  lastCauses : List (Nat × BitVec 5)
  deriving DecidableEq, Repr

/-- PATH: REGION, UNIT and SUB, all ones where there is none (R567). -/
structure Path where
  region : Option Nat
  unit : Option Nat
  sub : Option Nat
  deriving DecidableEq, Repr

/-- One escalated error, as it reaches the policy engine. -/
structure Escalation where
  cls : Nat
  source : Nat
  path : Path
  data : List Byte
  deriving DecidableEq, Repr

/-- A code word of the store (R368): its data, none where it is erased, and the bits in error. -/
structure NvWord where
  data : Option (BitVec 256)
  errs : Nat
  deriving DecidableEq, Repr

def NvWord.blank : NvWord := { data := none, errs := 0 }

/-- A journal entry (R386, R387). -/
structure JEntry where
  kind : Nat
  flags : Byte
  jseq : Word
  args : List Word
  boot : Word
  deriving DecidableEq, Repr

/-- What the data words of a checkpoint hold (R389). The spec gives their contents and no encoding of them, so the words
themselves are free values and their contents stand here. -/
structure Checkpoint where
  seq : Word
  start : Nat
  gap : Nat
  tally : Nat
  retired : List (Nat × Nat)
  usedSpares : List Nat
  dir : List (Nat × (Word × DWord))
  active : Option Nat
  boot : Word
  patrolNext : Nat
  patrolEpoch : BitVec 16
  erases : List (Nat × Nat)
  epochs : List (Nat × Nat)
  deriving DecidableEq, Repr

/-- The mapping of a new device, nothing retired, staged or patrolled (R401). -/
def Checkpoint.fresh : Checkpoint :=
  { seq := 1, start := 0, gap := 3040, tally := 0, retired := [], usedSpares := [], dir := [], active := none, boot := 0,
    patrolNext := 0, patrolEpoch := 0, erases := [], epochs := [] }

/-- A program or an erase of a plane (R378). A program names a logical sector, its first byte in its partition and the
words; an erase names a logical sector, or the gap, its cause (R386) and how often it has failed verification. -/
inductive NvOp where
  | program (lsec offset : Nat) (words : List (Nat × BitVec 256))
  | erase (lsec : Option Nat) (phys cause tries : Nat)
  deriving DecidableEq, Repr

/-- A plane (R378, R379): the operation in progress, the program that runs while its erase is suspended, the operations
that wait for each, and the suspend sources. -/
structure Plane where
  op : Option NvOp
  inner : Option NvOp
  queue : List NvOp
  innerQueue : List NvOp
  command : Bool
  shed : Bool
  read : Bool
  deriving DecidableEq, Repr

def Plane.idle : Plane :=
  { op := none, inner := none, queue := [], innerQueue := [], command := false, shed := false, read := false }

/-- A gap move (R383): none, copying its source into the gap, or erasing the old source; `extra` where it refreshes. -/
inductive MoveStep where
  | none
  | copying (extra : Bool)
  | erasing (extra : Bool)
  deriving DecidableEq, Repr

/-- The store (chapter 07). `words` and `ckpts` are non-volatile; a start takes the other fields up to `jseq` from the journal
rows. -/
structure StoreState where
  /-- Code words: key physical sector × 2,048 + word, and behind them the two journal rows of 8,192 words each; an unlisted
  word is blank. -/
  words : List (Nat × NvWord)
  /-- Erases and last-erase epoch of each physical sector. -/
  erases : List (Nat × Nat)
  epochs : List (Nat × Nat)
  /-- What the checkpoint of each journal row holds. -/
  ckpts : List (Nat × Checkpoint)
  start : Nat
  gap : Nat
  tally : Nat
  /-- The retirement table: window position to spare; and every spare that has been assigned (R366). -/
  retired : List (Nat × Nat)
  usedSpares : List Nat
  /-- Logical sectors whose erase is unfinished (R375, R392); the gap is not erased. -/
  suspect : List Nat
  gapDirty : Bool
  move : MoveStep
  /-- The slot directory: key target of R387; ARG1, and the first 8 bytes of the image's DIGEST. -/
  dir : List (Nat × (Word × DWord))
  active : Option Nat
  boot : Word
  /-- The latest PATROL entry. -/
  patrolNext : Nat
  patrolEpoch : BitVec 16
  /-- The current journal row, its next free word, a row switch cut short, and the next JSEQ. -/
  curRow : Nat
  jnext : Nat
  switching : Bool
  jseq : Word
  /-- Volatile from here on: step 2 of this start has read the journal (R328, R401). -/
  loaded : Bool
  planes : List (Nat × Plane)
  /-- Programs and erases that wait for the moving sector (R384). -/
  held : List NvOp
  movesDue : Nat
  /-- Next physical sector of the patrol, and of an extra pass. -/
  patrolPos : Nat
  patrolEp : BitVec 16
  extraPass : Option Nat
  /-- Logical sectors queued for refresh, oldest first (R395). -/
  refresh : List Nat
  deriving DecidableEq, Repr

/-- A DIRECT load in progress (R341 to R347): its header once that is whole and has passed checks 1 to 4, the frame
records of the body done, the frames of this load by address, whether it has ended well, and the code words of a stored
image that read uncorrectable, each by the image offset of the byte behind it (R369). -/
structure Load where
  hdr : Option (List Byte)
  recs : Nat
  written : List (Nat × List Byte)
  finished : Bool
  bad : List Nat
  /-- The load is a REGION_LOAD from a library entry (R340). -/
  entry : Bool
  deriving DecidableEq, Repr

def Load.fresh : Load := { hdr := none, recs := 0, written := [], finished := false, bad := [], entry := false }

/-- A stream session (R334, R335): its target, its LENGTH and the bytes received so far. -/
structure Session where
  target : StreamTarget
  length : Nat
  bytes : List Byte
  load : Load
  deriving DecidableEq, Repr

/-- How the flash is addressed (R320). -/
inductive FlashAddr where
  | three
  | fourInstruction
  | fourMode
  deriving DecidableEq, Repr

/-- How the loader reads the external flash (R320, R321): the wires of address and data, the read command, the addressing,
and the clock's code. -/
structure FlashRead where
  addrWires : Nat
  dataWires : Nat
  opcode : Byte
  addr : FlashAddr
  clock : BitVec 2
  deriving DecidableEq, Repr

/-- The configuration memory and the loader (chapter 06). -/
structure CfgState where
  /-- The 128-byte region record of each region that is loaded (R300). -/
  recs : List (Nat × List Byte)
  /-- Frames as the loader wrote them: key frame address, 256 bytes; an unlisted frame is all zero. -/
  frames : List (Nat × List Byte)
  /-- Bits of a frame that have flipped since (R349): key frame address. -/
  upsets : List (Nat × List Nat)
  /-- The next logic frame that each scrub checks: key region, 15 for the chip. -/
  scrub : List (Nat × Nat)
  /-- The chip record of the running full image, 448 bytes; none where no full image runs. -/
  chip : List Byte
  session : Option Session
  /-- Regions whose pins have left configuration state (R331). -/
  pinsOut : BitVec 12
  /-- The pull of the configuration state (R315). -/
  pull : BitVec 2
  /-- CFG_DONE is released (R332). -/
  done : Bool
  /-- The boot order has reached the chain source (R324); the chain is being read (R326); its stream has ended (R325). -/
  chainWanted : Bool
  chainOpen : Bool
  chainEnded : Bool
  /-- How the chain's flash is addressed, once its SFDP has been read (R320). -/
  chainAddr : Option FlashAddr
  /-- The bytes that the latest segment sent on CFG_DOUT. -/
  chainOut : List Byte
  /-- How the flash was read at this start. -/
  flashRead : Option FlashRead
  /-- The health record that step 2 of the start read; none where a code word was uncorrectable (R641). -/
  health : Option (List Byte)
  deriving DecidableEq, Repr

/-- The user pins (chapter 13). -/
structure PinState where
  /-- The synchronised level of each pin at its latest sample (R589). -/
  level : BitVec 240
  /-- The level of each pad itself, as the latest sample found it: I/O cells and clock trees take it whatever the pin's function
  (R103, R580). -/
  pad : BitVec 240
  /-- Pins that have switched function since their latest sample: the next one raises no edge (R586). -/
  fresh : BitVec 240
  deriving DecidableEq, Repr

/-- The scan engine (R597, R598), one bit per lane. -/
structure ModState where
  queued : BitVec 16
  running : BitVec 16
  /-- Leads whose presence has changed during their scan. -/
  again : BitVec 16
  /-- The debounced presence of each lead that has a presence pin. -/
  presence : BitVec 16
  /-- How the latest scan of each lead ended: 0 where the module answered, else a CAUSE of R603. -/
  ended : List (Nat × Option Nat)
  /-- The word of MOD_XFER_CTRL with which each bus's latest transfer began (R604). -/
  xfers : List (Nat × Word)
  deriving DecidableEq, Repr

/-- The test access port (R530, R675, R677): its instruction and what the latest Capture-DR returned. -/
structure JtagState where
  ir : BitVec 10
  out : Word
  /-- The 896 cells of the boundary register (R676), as the scans under the last instruction that selected it left them. -/
  boundary : BitVec 896
  deriving DecidableEq, Repr

/-- The states of a DMA channel (R479). -/
inductive ChState where
  | idle
  | active
  | preempted
  | waitTest
  | faulted
  | aborting
  deriving DecidableEq, Repr

/-- What an outstanding request of an engine is for: a descriptor, a walk, a source read or the write of the group of
transfer cells at an offset. -/
inductive ReqKind where
  | desc
  | walk
  | read (off : Nat)
  | write (off : Nat)
  deriving DecidableEq, Repr

/-- An outstanding request: its TAG, its channel, its server (R485), the cells that its answer may take in the receive
store, whether its answer is to be discarded, and whether it counts as answered, since its server was suspended (R496). -/
structure DmaReq where
  tag : BitVec 16
  chan : Fin 16
  kind : ReqKind
  server : Nat
  cells : Nat
  dead : Bool
  lost : Bool
  deriving DecidableEq, Repr

/-- How far a group of transfer cells has come. -/
inductive GroupState where
  | toRead
  | reading
  | toWrite
  | writing
  | done
  deriving DecidableEq, Repr

/-- Consecutive transfer cells that travel in one message (R483): their offset and length in the descriptor, the source
reads that are left (virtual address and length), and the data so far. -/
structure DmaGroup where
  off : Nat
  len : Nat
  parts : List (Nat × Nat)
  data : List Byte
  st : GroupState
  deriving DecidableEq, Repr

/-- A fault (R495, R499): where it arose, and the offset of its resume point; none in a descriptor fetch. -/
structure FaultInfo where
  kind : Nat
  detail : Nat
  phase : Nat
  walk : Bool
  va : Nat
  pa : Nat
  level : Nat
  off : Option Nat
  deriving DecidableEq, Repr

/-- A DMA channel (R479 to R487, R496, R497). -/
structure DmaChan where
  state : ChState
  result : Byte
  /-- The RESULT that ABORTING leads to. -/
  ending : Byte
  errMsg : Bool
  /-- The descriptor that runs, none until it has been fetched; its read is outstanding. -/
  desc : List Byte
  asked : Bool
  /-- Bytes of the descriptor for which groups have been made, and the bytes at which it ends. -/
  next : Nat
  stop : Nat
  groups : List DmaGroup
  /-- Data of writes after the resume point that RESUME performs again. -/
  kept : List (Nat × List Byte)
  /-- A fault whose earlier cells are not all written yet. -/
  fault : Option FaultInfo
  /-- The request that WAIT_TEST has repeated. -/
  trying : Option (BitVec 16)
  /-- The server for which WAIT_TEST last waited. -/
  waitOn : Nat
  /-- M2F: a message is open, the next cell is its SOM cell, its cells so far, the bytes of a partly filled cell, and the
  bytes of the descriptor taken. -/
  msgOpen : Bool
  somNext : Bool
  msgCells : Nat
  part : List Byte
  sent : Nat
  /-- F2M: the flow bound, and the bytes taken of its first cell in the store. -/
  bound : Option (BitVec 12)
  skip : Nat
  deriving DecidableEq, Repr

def DmaChan.idle : DmaChan :=
  { state := .idle, result := 0, ending := 0, errMsg := false, desc := [], asked := false, next := 0, stop := 0,
    groups := [], kept := [], fault := none, trying := none, waitOn := 0, msgOpen := false, somNext := false, msgCells := 0,
    part := [], sent := 0, bound := none, skip := 0 }

/-- A walk in progress (R490): its channel, space, address and phase, the level and entry address it reads, whether that
read is outstanding, and whether an invalidation has struck it (R494). -/
structure Walk where
  chan : Fin 16
  space : Nat
  va : Nat
  phase : Nat
  level : Nat
  entry : Nat
  asked : Bool
  stale : Bool
  deriving DecidableEq, Repr

/-- A TLB entry (R493): a page of 2^shift bytes. -/
structure TlbEnt where
  space : Nat
  shift : Nat
  vpn : Nat
  ppn : Nat
  r : Bool
  w : Bool
  deriving DecidableEq, Repr

/-- A DMA engine: the channel that holds it, its outstanding requests in order
of issue, its walk, its TLB with the latest used entry first, and its first-level fault queue. -/
structure DmaEngine where
  holder : Option (Fin 16)
  /-- For each priority the channel at which its round starts, and the bytes issued since the round came to it (R488). -/
  turn : List (Nat × Nat)
  burst : List (Nat × Nat)
  reqs : List DmaReq
  walk : Option Walk
  tlb : List TlbEnt
  fq : List (List Byte)
  fqSeq : Word
  deriving DecidableEq, Repr

def DmaEngine.idle : DmaEngine :=
  { holder := none, turn := [], burst := [], reqs := [], walk := none, tlb := [], fq := [], fqSeq := 0 }

/-- What an invalidation in progress names (R494). -/
inductive InvalScope where
  | all
  | space (a : Nat)
  | page (a va : Nat)
  deriving DecidableEq, Repr

/-- The DMA engines and the translation unit (chapter 10). Channel key: engine × 16 + channel. -/
structure DmaState where
  engines : List (Nat × DmaEngine)
  chans : List (Nat × DmaChan)
  slq : List (List Byte)
  slqSeq : Word
  inval : Option InvalScope
  deriving DecidableEq, Repr

/-- The device. -/
structure Dev where
  /-- Control-space registers by offset. -/
  regs : List (Nat × Word)
  /-- Registers with one copy per requester identity: key identity × 2^24 + offset. -/
  idRegs : List (Nat × Word)
  /-- Statistics counters by the offset of their low word (R11). -/
  stats : List (Nat × Stat)
  /-- The word that the latest control-bus read of each identity returned. -/
  readData : List (Nat × Word)
  /-- The index of the next free value. MODEL'S OWN. -/
  free : Nat
  time : TimeState
  log : LogState
  keys : KeyStore
  lcy : LcySession
  chip : ChipState
  sched : SchedState
  logic : LogicState
  hive : HiveState
  power : PowerState
  fab : FabState
  adm : AdmState
  serial : SerialState
  bank : BankState
  cfg : CfgState
  store : StoreState
  pins : PinState
  mods : ModState
  jtag : JtagState
  dma : DmaState
  /-- Escalations of the command in progress; empty between commands. -/
  raised : List Escalation
  out : OutPins
  deriving DecidableEq, Repr

/-- The block: the commands that wait, first in first out, and the device. -/
structure State where
  pending : List Instr
  dev : Dev
  deriving DecidableEq, Repr

/-! ## Reset -/

def TimeState.reset : TimeState :=
  { now := 0, uptime := 0, running := false, inc := 0x200000000, pendRate := none, pendStep := none, pendSet := none,
    ppsOut := none, ppsIn := false, ppsIrq := false }

def LogState.reset : LogState :=
  { entries := [], nextSeq := 0, lost := 0, wrapped := false, snaps := [], intake := [], fill := 0, fillAt := 0 }

/-- The key store as the model takes a device to leave manufacture: OPEN, nothing provisioned (log entry 4). -/
def KeyStore.fresh : KeyStore :=
  { state := .opened, attempts := 0, wipePending := false, userKeyHash := List.replicate 32 0,
    userKey := List.replicate 32 0, serviceKey := List.replicate 32 0, passwordHash := List.replicate 32 0,
    tamperCfg := 0, state2 := .opened, attempts2 := 0, cut := 0 }

def LcySession.reset : LcySession :=
  { nonce := none, working := none, scope := none, delayFrom := 0, tamperNow := 0, wiping := false }

def SchedState.reset : SchedState :=
  { threads := [], assign := [], nextOrder := 0, nextSpillSeq := 0, ports := [], events := [], evQueue := [],
    job := none, jobTag := 0, jobGen := 0, waitingCreates := [], heldExp := [], snaps := [] }

def LogicState.reset : LogicState :=
  { glineLatched := [], clineLatched := [], shiftRegs := [], bram := [], bramFree := [], bramErr := [], bramCfg := [], bramPorts := [],
    writeback := [], queues := [], arith := [], arithCfg := [], delays := [], cells := [], chains := [], ios := [], rgns := [],
    taps := [], tapHolds := [], trees := [], nets := [], ffs := [], ioRegs := [], lines := [], treeSeen := [], treeHold := [],
    treeLevel := 0, laneHalf := [], gateHigh := [], thawAt := [], qflow := [], heldPins := [], heldTaps := [], heldDriver := 0, tapTrim := none, winq := [] }

def HiveState.reset : HiveState :=
  { ready := false, held := false, failed := false, fwSlot := false, wdogRow := 0, wdogEarly := 0, wdogFrom := 0, addr := 0, sampled := false,
    spi := .idle, i2c := .idle, jtag := .idle, ep48 := [], waiting := [], jobs := [], due := [],
    tickets := [], spiOut := [], i2cOut := [] }

def PowerState.reset : PowerState :=
  { por := true, startDue := false, resetN := false, thermHold := false, rung1Core := false, rung1Aux := false, thawNext := [],
    vccioOff := 0, sampled := false, shutdown := none }

def FabState.reset : FabState :=
  { slotSet := false, nextSlot := 0, period := 0, begun := false, boundaryUp := 0, nextNum := 1, ingress := [], framing := [],
    flight := [], acks := [], credits := [], pools := [], rx := [], calActive := [], calStaged := [], swapPend := 0,
    copyPend := 0, beStart := 0, bePtr := [], planes := [], watchFrom := 0, flowAcc := [], flowMiss := [], cls := [],
    egErr := [], msgRoute := [] }

/-- Endpoints 16 to 39 start suspended (R241). -/
def AdmState.reset : AdmState := { flows := [], pairs := [], suspended := 0xFFFFFF0000, snaps := [], loadWaits := none, loadBehind := false, handed := none }

def SerialState.reset : SerialState :=
  { txShed := 0, txWait := 0, prbs := [], macTx := [], txts := [], raw := [], prbsInject := [], lineOut := [], loopIn := [], exempt := 0xFFFF }

def BankState.reset : BankState :=
  { words := [], wordsFree := [], ecc := [], queues := [], heldq := [], route := [], marches := [], repairs := [], ports := [], running := [],
    writeback := [], retested := false, wipeAlso := none }

/-- The first words of journal row 0 as the model takes a device to leave manufacture (log entry 4): CHECKPOINT of row
sequence 1 without data words, and SEAL. -/
def freshJournal : List (Nat × NvWord) :=
  [(6291456, { data := some 0x83BCA4D80000000000000000000000000000000000000001000000000000000A, errs := 0 }),
   (6291457, { data := some 0x9BE6ED620000000000000000000000000000000000000001000000010000000B, errs := 0 })]

/-- The store as the model takes a device to leave manufacture: every sector blank, an empty journal (log entry 4). -/
def StoreState.fresh : StoreState :=
  { words := freshJournal, ckpts := [(0, .fresh)], erases := [], epochs := [], start := 0, gap := 3040, tally := 0, retired := [], usedSpares := [],
    suspect := [], gapDirty := false, move := .none, dir := [], active := none, boot := 0, patrolNext := 0,
    patrolEpoch := 0, curRow := 0, jnext := 2, switching := false, jseq := 2, loaded := false, planes := [], held := [], movesDue := 0, patrolPos := 0, patrolEp := 0, extraPass := none,
    refresh := [] }

def CfgState.reset : CfgState :=
  { recs := [], frames := [], upsets := [], scrub := [], chip := [], session := none, pinsOut := 0, pull := 0,
    done := false, chainWanted := false, chainOpen := false, chainAddr := none, chainEnded := false, chainOut := [], flashRead := none, health := none }

def PinState.reset : PinState := { level := 0, pad := 0, fresh := 0 }

/-- After Test-Logic-Reset the instruction is IDCODE (R675). -/
def JtagState.reset : JtagState := { ir := 0x009, out := 0, boundary := 0 }

def ModState.reset : ModState := { queued := 0, running := 0, again := 0, presence := 0, ended := [], xfers := [] }

def DmaState.reset : DmaState := { engines := [], chans := [], slq := [], slqSeq := 0, inval := none }

/-- The device right after power-on reset, before power-good. -/
def Dev.reset : Dev :=
  { regs := [], idRegs := [], stats := [], readData := [], free := 0, time := .reset, log := .reset, keys := .fresh,
    lcy := .reset, chip := { forcedAlert := 0 }, sched := .reset, logic := .reset, hive := .reset, power := .reset,
    fab := .reset, adm := .reset, serial := .reset, bank := .reset, cfg := .reset, store := .fresh,
    pins := .reset, mods := .reset, jtag := .reset, dma := .reset, raised := [], out := { alert := false, shutdownDone := false, lastCauses := [] } }

def State.reset : State := { pending := [], dev := Dev.reset }

end Sys2Proof.Machine
end

