-- ==== Sys2Proof/Machine/Ops.lean ====
section
/-! DEFINITION. The named operations over sparse maps, registers and counters that every meaning uses. -/
namespace Sys2Proof.Machine

/-! ## Parameter fields of a request (R513) -/

def Req.u (r : Req) (n off : Nat) : Nat := getLE n r.params off
def Req.len (r : Req) : Nat := r.params.length

/-! ## Sparse maps: strictly rising keys, no entry equal to what its key reads as when unlisted -/

/-- The value at a key; `d k` where the key is not listed. -/
def mget {α : Type} (d : Nat → α) : List (Nat × α) → Nat → α
  | [], k => d k
  | (k', v) :: t, k => if k' = k then v else mget d t k

/-- Removes a key. -/
def mdel {α : Type} : List (Nat × α) → Nat → List (Nat × α)
  | [], _ => []
  | (k', v) :: t, k => if k' = k then mdel t k else (k', v) :: mdel t k

/-- Places a value at a key in rising order. -/
def mput {α : Type} (k : Nat) (v : α) : List (Nat × α) → List (Nat × α)
  | [] => [(k, v)]
  | (k', v') :: t =>
    if k < k' then (k, v) :: (k', v') :: t
    else if k' = k then (k, v) :: t
    else (k', v') :: mput k v t

/-- Writes a key: an entry equal to the unlisted value is removed. -/
def mset {α : Type} [DecidableEq α] (d : Nat → α) (m : List (Nat × α)) (k : Nat) (v : α) : List (Nat × α) :=
  if v = d k then mdel m k else mput k v m

/-- The canonical form. -/
def mwf {α : Type} [DecidableEq α] (d : Nat → α) : List (Nat × α) → Bool
  | [] => true
  | [(k, v)] => decide (v ≠ d k)
  | (k, v) :: (k', v') :: t => decide (v ≠ d k) && decide (k < k') && mwf d ((k', v') :: t)

/-- Drops every entry whose key satisfies `p`: those keys read as unlisted again. -/
def mdrop {α : Type} (p : Nat → Bool) (m : List (Nat × α)) : List (Nat × α) := m.filter (fun e => !p e.1)

/-- Items `base` to `base + count - 1` of a map take the values of `g`. -/
def mfill {α : Type} [DecidableEq α] (d : Nat → α) (m : List (Nat × α)) (base count : Nat) (g : Nat → α) :
    List (Nat × α) :=
  (List.range count).foldl (fun m i => mset d m (base + i) (g i)) m

/-! ## Registers -/

/-- The stored word of a register. -/
def Dev.reg (d : Dev) (off : Nat) : Word := mget regReset d.regs off

def Dev.setReg (d : Dev) (off : Nat) (v : Word) : Dev := { d with regs := mset regReset d.regs off v }

/-- Field [lo + len − 1 : lo] of a register. -/
def Dev.fld (d : Dev) (off lo len : Nat) : Nat := bits (d.reg off) lo len

def Dev.setFld (d : Dev) (off lo len v : Nat) : Dev := d.setReg off (setBits (d.reg off) lo len v)

def Dev.rbit (d : Dev) (off i : Nat) : Bool := bit (d.reg off) i

def Dev.setRbit (d : Dev) (off i : Nat) (b : Bool) : Dev := d.setReg off (setBit (d.reg off) i b)

/-- A register with one copy per requester identity. -/
def idKey (id off : Nat) : Nat := id * 0x1000000 + off

def Dev.idReg (d : Dev) (id off : Nat) : Word := mget (fun k => regReset (k % 0x1000000)) d.idRegs (idKey id off)

def Dev.setIdReg (d : Dev) (id off : Nat) (v : Word) : Dev :=
  { d with idRegs := mset (fun k => regReset (k % 0x1000000)) d.idRegs (idKey id off) v }

/-! ## Counters (R11, R14) -/

/-- An event and error counter: 32 bits, stays at its largest value. -/
def Dev.count (d : Dev) (off : Nat) (n : Nat := 1) : Dev :=
  d.setReg off (BitVec.ofNat 32 (min ((d.reg off).toNat + n) 0xFFFFFFFF))

/-- A sequence counter of 32 bits: wraps to 0. -/
def Dev.seqUp (d : Dev) (off : Nat) : Dev := d.setReg off (d.reg off + 1)

/-- `n` increments of a statistics counter: an increment that finds the largest value is lost and sets SAT. -/
def Stat.add (c : Stat) (n : Nat) : Stat :=
  let t := c.count.toNat + n
  if t ≤ 0xFFFFFFFFFFFF then { c with count := BitVec.ofNat 48 t }
  else { count := 0xFFFFFFFFFFFF, sat := true }

def Dev.stat (d : Dev) (off : Nat) : Stat := mget (fun _ => Stat.zero) d.stats off

def Dev.statUp (d : Dev) (off : Nat) (n : Nat := 1) : Dev :=
  { d with stats := mset (fun _ => Stat.zero) d.stats off ((d.stat off).add n) }

/-- The owning block's clear: count and SAT to 0. -/
def Dev.statClear (d : Dev) (off : Nat) : Dev :=
  { d with stats := mset (fun _ => Stat.zero) d.stats off Stat.zero }

/-- The high word that a low-word read latches: [47:32] with SAT in bit 31 (R11, R12). -/
def Stat.high (c : Stat) : Word := setBit (BitVec.ofNat 32 (c.count.toNat / 2 ^ 32)) 31 c.sat

def Stat.low (c : Stat) : Word := BitVec.ofNat 32 c.count.toNat

/-! ## Free values -/

/-- The next free value, at width `w`. -/
def Dev.freeVal (d : Dev) (w : Nat) : BitVec w := Config.freeValue d.free w

def Dev.freeNext (d : Dev) : Dev := { d with free := d.free + 1 }

/-! ## Time -/

/-- Nanoseconds of device time (R10). -/
def TimeState.ns (t : TimeState) : DWord := BitVec.ofNat 64 (t.now.toNat / 2 ^ 32)

def Dev.ns (d : Dev) : DWord := d.time.ns

/-- Time passes: device time, where it runs, and the uptime go on by the increment in use (R277). -/
def TimeState.tick (t : TimeState) : TimeState :=
  if t.running then { t with now := t.now + t.inc.setWidth 96, uptime := t.uptime + t.inc.setWidth 96 }
  else { t with uptime := t.uptime + t.inc.setWidth 96 }

/-- Device time, where it runs, and the uptime go on by `x`, in units of 2⁻³² ns; device time wraps (R10). -/
def TimeState.pass (t : TimeState) (x : Nat) : TimeState :=
  if t.running then { t with now := t.now + BitVec.ofNat 96 x, uptime := t.uptime + BitVec.ofNat 96 x } else t

/-- A time-driven event brings device time to the nanosecond at which it falls, where that lies ahead (an unsigned
comparison, R10). -/
def TimeState.reach (t : TimeState) (ns : DWord) : TimeState := t.pass (ns.toNat * 2 ^ 32 - t.now.toNat)

/-- Device time comes to the instant `k` whole ns after the ns that it counts, across a wrap where one lies between. -/
def TimeState.reachAhead (t : TimeState) (k : Nat) : TimeState := t.pass (k * 2 ^ 32 - t.now.toNat % 2 ^ 32)

def Dev.pass (d : Dev) (x : Nat) : Dev := { d with time := d.time.pass x }
def Dev.reach (d : Dev) (ns : DWord) : Dev := { d with time := d.time.reach ns }
def Dev.reachAhead (d : Dev) (k : Nat) : Dev := { d with time := d.time.reachAhead k }

/-! ## The trouble log (R566 to R571) -/

/-- A level path of chip only. -/
def Path.chip : Path := { region := none, unit := none, sub := none }

def Path.rgn (n : Nat) : Path := { region := some n, unit := none, sub := none }

def Path.toWord (p : Path) : BitVec 16 :=
  BitVec.ofNat 16 ((p.region.getD 0xF) * 0x1000 + (p.unit.getD 0xFF) * 0x10 + p.sub.getD 0xF)

/-- The log's capacity (R566). -/
def logDepth : Nat := 4096

/-- The log accepts an entry: it takes the next SEQ, and the oldest entry goes where the log is full (R570). -/
def LogState.append (l : LogState) (time : DWord) (code source : Nat) (path : BitVec 16) (data : List Byte) : LogState :=
  let e : LogEntry :=
    { time, seq := l.nextSeq, code := BitVec.ofNat 8 code, source := BitVec.ofNat 8 source, path, data := fit 16 data }
  if l.entries.length < logDepth then
    { l with entries := l.entries ++ [e], nextSeq := l.nextSeq + 1 }
  else
    { l with entries := l.entries.tail ++ [e], nextSeq := l.nextSeq + 1, wrapped := true,
             lost := BitVec.ofNat 32 (min (l.lost.toNat + 1) 0xFFFFFFFF) }

/-- Writes one log entry, stamped with device time (R567). -/
def Dev.logNow (d : Dev) (code source : Nat) (p : Path) (data : List Byte) : Dev :=
  { d with log := d.log.append d.ns code source p.toWord data }

/-- Offers one entry to the log, which takes it at the end of the command behind the command's escalations (R570). -/
def Dev.logEntry (d : Dev) (code source : Nat) (p : Path) (data : List Byte) (flows : List Nat := []) : Dev :=
  { d with log := { d.log with intake := d.log.intake ++ [{ time := d.ns, code, source, path := p.toWord, data, flows }] } }

/-- The 32 bytes of an entry (R567). -/
def LogEntry.bytes (e : LogEntry) : List Byte :=
  putLE 8 e.time.toNat ++ putLE 4 e.seq.toNat ++ [e.code, e.source] ++ putLE 2 e.path.toNat ++ fit 16 e.data

/-- An escalation joins the group that reaches the policy engine at the end of the command (R26, R32). -/
def Dev.escalate (d : Dev) (cls source : Nat) (path : Path) (data : List Byte) : Dev :=
  { d with raised := d.raised ++ [{ cls, source, path, data }] }

/-- Source codes (R569). -/
def srcBus : Nat := 0x00
def srcRegion : Nat := 0x01
def srcBram : Nat := 0x02
def srcBank : Nat := 0x03
def srcFabric : Nat := 0x04
def srcAdmission : Nat := 0x05
def srcStore : Nat := 0x06
def srcLoader : Nat := 0x07
def srcSched : Nat := 0x08
def srcDma : Nat := 0x09
def srcHive : Nat := 0x0A
def srcWatchdog : Nat := 0x0B
def srcPower : Nat := 0x0C
def srcClocks : Nat := 0x0D
def srcLifecycle : Nat := 0x0E
def srcLane : Nat := 0x0F
def srcMac : Nat := 0x10
def srcTime : Nat := 0x11
def srcGpio : Nat := 0x12
def srcInjected : Nat := 0x13
def srcBist : Nat := 0x14
def srcFence : Nat := 0x15
def srcLog : Nat := 0x16

/-- Class numbers (R29). -/
def clsCtrlDecode : Nat := 0
def clsScrub : Nat := 1
def clsBram : Nat := 2
def clsContention : Nat := 3
def clsBankUncorr : Nat := 4
def clsRepair : Nat := 5
def clsMiss : Nat := 6
def clsPlane : Nat := 7
def clsDegraded : Nat := 8
def clsNvs : Nat := 9
def clsSpares : Nat := 10
def clsDma : Nat := 11
def clsSpill : Nat := 12
def clsWatchdog : Nat := 13
def clsClock : Nat := 14
def clsShed : Nat := 15
def clsThermal : Nat := 16
def clsTamper : Nat := 17
def clsLane : Nat := 18
def clsAuth : Nat := 19
def clsFallback : Nat := 20

/-- A refusal of the fence: counted in FENCE_DENIED and logged with its kind, index and address (R562). -/
def Dev.fenceRefuse (d : Dev) (kind index addr : Nat) : Dev :=
  (d.count fenceDenied).logEntry 0x34 srcFence Path.chip
    (putLE 1 kind ++ putLE 2 index ++ [0] ++ putLE 4 addr)

/-! ## Lists of commands over the device -/

/-- Performs `f` for each element in order. -/
def Dev.forEach {α : Type} (d : Dev) (xs : List α) (f : Dev → α → Dev) : Dev := xs.foldl f d

/-- Performs `f` where the condition holds. -/
def Dev.cond (d : Dev) (b : Bool) (f : Dev → Dev) : Dev := if b then f d else d

/-- Clears bits of a register. -/
def Dev.clearBits (d : Dev) (off : Nat) (bs : List Nat) : Dev := d.forEach bs (fun d b => d.setRbit off b false)

/-! ## The lifecycle state as every block sees it (R546, R551) -/

def Dev.inManufacture (d : Dev) : Bool := decide (d.keys.state = .manufacture)
def Dev.inOpen (d : Dev) : Bool := decide (d.keys.state = .opened)
def Dev.inRetired (d : Dev) : Bool := decide (d.keys.state = .retired)
/-- SERVICE: DEPLOYED with a session open (R547). -/
def Dev.inSession (d : Dev) : Bool := decide (d.keys.state = .deployed) && d.lcy.scope.isSome
def Dev.inDeployed (d : Dev) : Bool := decide (d.keys.state = .deployed) && d.lcy.scope.isNone

/-- The code of R546. -/
def Dev.lcCode (d : Dev) : Nat :=
  match d.keys.state with
  | .manufacture => 0
  | .opened => 1
  | .deployed => if d.lcy.scope.isSome then 3 else 2
  | .retired => 4

/-- MANUFACTURE, OPEN, or SERVICE with SCOPE bit `i` (R551): bit 0 READBACK, bit 1 TEST, bit 2 IMAGES. -/
def Dev.served (d : Dev) (i : Nat) : Bool :=
  match d.keys.state with
  | .manufacture => true
  | .opened => true
  | .deployed => match d.lcy.scope with
    | some sc => bit sc i
    | none => false
  | .retired => false

/-! ## The region records in force (R300, R301) -/

/-- The bytes of region n's record; all zero where the region is not loaded. -/
def Dev.recOf (d : Dev) (n : Nat) : List Byte := mget (fun _ => []) d.cfg.recs n

/-- Bit `k` of CTRL_PERMIT of region n. -/
def Dev.permitBit (d : Dev) (n k : Nat) : Bool := (getLE 4 (d.recOf n) 0x48).testBit k

/-- Requester identity `id` is the hive, or a control port whose image grants bit `k` of CTRL_PERMIT (R48, R301). -/
def Dev.granted (d : Dev) (id : Fin 13) (k : Nat) : Bool :=
  decide (id = 0) || d.permitBit (id.val - 1) k

/-- The identity is a region's control port. -/
def portOf (id : Fin 13) : Option Nat := if id.val = 0 then none else some (id.val - 1)

end Sys2Proof.Machine
end

