-- ==== Sys2Proof/Machine/SchedOps.lean ====
section
/-! DEFINITION. The scheduler's shared operations: thread records, the ready order, prefetch, wakes, signals and the
freeze of a region's dispatch ports (R445 to R462). -/
namespace Sys2Proof.Machine

/-! ## Records, ports and objects by index -/

def Dev.thread (d : Dev) (i : Nat) : Thread := mget (fun _ => Thread.blank) d.sched.threads i

def Dev.setThread (d : Dev) (i : Nat) (t : Thread) : Dev :=
  { d with sched := { d.sched with threads := mset (fun _ => Thread.blank) d.sched.threads i t } }

def Dev.dport (d : Dev) (p : Nat) : DispPort := mget (fun _ => DispPort.vacant) d.sched.ports p

def Dev.setDport (d : Dev) (p : Nat) (x : DispPort) : Dev :=
  { d with sched := { d.sched with ports := mset (fun _ => DispPort.vacant) d.sched.ports p x } }

def Dev.ev (d : Dev) (e : Nat) : EvObj := mget (fun _ => EvObj.zero) d.sched.events e

def Dev.setEv (d : Dev) (e : Nat) (x : EvObj) : Dev :=
  { d with sched := { d.sched with events := mset (fun _ => EvObj.zero) d.sched.events e x } }

/-- The handle of a record: GEN above INDEX (R445). -/
def handleOf (i : Nat) (t : Thread) : BitVec 24 := BitVec.ofNat 24 (t.gen.toNat * 0x10000 + i)

/-- The INDEX that a handle names, where it names a record in use (R446). -/
def Dev.handle? (d : Dev) (h : Nat) : Option Nat :=
  let i := h % 0x10000
  let t := d.thread i
  if i ≠ 0 ∧ t.state ≠ .free ∧ t.gen.toNat = h / 0x10000 then some i else none

/-- The indices in use, ascending. -/
def Dev.inUse (d : Dev) : List Nat :=
  (d.sched.threads.filter (fun e => decide (e.2.state ≠ .free))).map (·.1)

/-- On-chip records in use, and spilled ones (R470). -/
def Dev.onChip (d : Dev) : Nat := (d.inUse.filter (fun i => decide ((d.thread i).spill = none))).length
def Dev.spilled (d : Dev) : Nat := (d.inUse.filter (fun i => decide ((d.thread i).spill ≠ none))).length

/-! ## The ready order (R449) -/

/-- `a` ranks before `b` among READY threads: priority, then deadlines by R15, then ORDER by R15. -/
def Thread.before (a b : Thread) : Bool :=
  if a.priority.toNat ≠ b.priority.toNat then decide (a.priority.toNat < b.priority.toNat)
  else if a.dl && !b.dl then true
  else if b.dl && !a.dl then false
  else if a.dl && laterSeq 32 b.deadline.toNat a.deadline.toNat then true
  else if a.dl && laterSeq 32 a.deadline.toNat b.deadline.toNat then false
  else laterSeq 32 b.order.toNat a.order.toNat

/-- The best of a list of indices under an order. -/
def Dev.bestBy (d : Dev) (f : Thread → Thread → Bool) (xs : List Nat) : Option Nat :=
  xs.foldl (fun acc i =>
    match acc with
    | none => some i
    | some j => if f (d.thread i) (d.thread j) then some i else some j) none

/-- The two deadlines have no order under R15: they lie outside the window of R449. -/
def Thread.apart (a b : Thread) : Bool := a.dl && b.dl && decide (a.deadline - b.deadline = 0x80000000)

/-- The best of a list of indices where R449 states one. Where deadlines of its level lie outside the window, so that
another thread has no order to it or ranks before it, the order is not stated: a free choice among the level. -/
def Dev.bestStated (d : Dev) (f : Thread → Thread → Bool) (xs : List Nat) : Option Nat :=
  match d.bestBy f xs with
  | none => none
  | some i =>
    let t := d.thread i
    let level := xs.filter (fun j =>
      let u := d.thread j
      t.dl && u.dl && decide (t.state = .ready) && decide (u.state = .ready) && decide (u.priority = t.priority))
    if level.any (fun j => decide (j ≠ i) && (t.apart (d.thread j) || f (d.thread j) t)) then
      some (level.getD ((d.freeVal 31 : BitVec 31).toNat % level.length) i)
    else some i

/-- The region of a dispatch port. -/
def Dev.portRegion (d : Dev) (p : Nat) : Option Nat :=
  match mget (fun _ => 0) d.sched.assign p with
  | 0 => none
  | n + 1 => some n

/-- FROZEN of a region (R110), or a freeze reason just set. -/
def Dev.frozen (d : Dev) (n : Nat) : Bool := d.rbit (rgnStatus n) 31

/-- A port is online: assigned, its region not frozen, its side A clock present (R450). -/
def Dev.online (d : Dev) (p : Nat) : Bool :=
  match d.portRegion p with
  | none => false
  | some n => !d.frozen n && !d.rbit (fabEpStatus (16 + 2 * n)) clkLostBit

/-- The record is being spilled: it is no longer shown in a prefetch slot (R465). -/
def Dev.spilling (d : Dev) (i : Nat) : Bool :=
  match d.sched.job with
  | some (.spill j _) => decide (i = j)
  | _ => false

/-- The prefetch slot of a port: its best eligible on-chip READY thread (R451). -/
def Dev.prefetch (d : Dev) (p : Nat) : Option Nat :=
  if d.online p then
    d.bestStated Thread.before (d.inUse.filter (fun i =>
      let t := d.thread i
      decide (t.state = .ready) && decide (t.spill = none) && bit t.affinity p && !d.spilling i))
  else none

/-- PREEMPT_REQ of a port (R460). -/
def Dev.preempt (d : Dev) (p : Nat) : Bool :=
  let r := (d.dport p).running
  if r = 0 then false
  else match d.prefetch p with
    | none => false
    | some i => decide ((d.thread i).priority.toNat < (d.thread r).priority.toNat)

/-! ## Entering READY and leaving a port -/

/-- The record enters READY last in its level, with a RESULT (R447, R449). -/
def Dev.makeReady (d : Dev) (i : Nat) (result : Nat) : Dev :=
  let d := d.setThread i { d.thread i with state := .ready, result := BitVec.ofNat 4 result, waitObj := none,
                                           wake := none, order := d.sched.nextOrder, newOrder := true }
  { d with sched := { d.sched with nextOrder := d.sched.nextOrder + 1 } }

/-- The head of a priority level among READY threads of the same DL class. -/
def Dev.levelHead (d : Dev) (t : Thread) : Option Nat :=
  d.bestBy (fun a b => laterSeq 32 b.order.toNat a.order.toNat) (d.inUse.filter (fun j =>
    let u := d.thread j
    decide (u.state = .ready) && decide (u.priority = t.priority) && decide (u.dl = t.dl)))

/-- The record enters READY first in its level: ORDER one below the level's head (R455, R461). -/
def Dev.makeReadyFirst (d : Dev) (i : Nat) (result : Nat) : Dev :=
  let t := d.thread i
  match d.levelHead t with
  | none => d.makeReady i result
  | some j =>
    d.setThread i { t with state := .ready, result := BitVec.ofNat 4 result, waitObj := none, wake := none,
                           order := (d.thread j).order - 1, newOrder := true }

/-- INDEX returns to FREE and GEN advances (R446). -/
def Dev.freeThread (d : Dev) (i : Nat) : Dev :=
  d.setThread i { Thread.blank with gen := (d.thread i).gen + 1 }

/-- The port becomes vacant. -/
def Dev.vacate (d : Dev) (p : Nat) : Dev := d.setDport p { d.dport p with running := 0 }

/-- A result is presented at a port (R452). -/
def Dev.portResult (d : Dev) (p code : Nat) (handle : BitVec 24 := 0) (cookie : DWord := 0) (aux : BitVec 4 := 0) : Dev :=
  d.setDport p { d.dport p with resValid := true, resCode := BitVec.ofNat 4 code, resHandle := handle, resCookie := cookie, resAux := aux }

/-- A TAKE_NEXT that finds a thread: it becomes RUNNING on the port (R448, R455). -/
def Dev.dispatch (d : Dev) (p : Fin 32) (i : Nat) : Dev :=
  let t := d.thread i
  let d := d.setThread i { t with state := .running, port := some p }
  let d := d.setDport p { d.dport p with running := i, takeNext := false }
  (d.portResult p 0 (handleOf i t) t.cookie t.result).count (schPortDispatches p)

/-- Serves the outstanding TAKE_NEXT calls, lowest port first (R455, R462). -/
def Dev.serveTakeNext (d : Dev) : Dev :=
  d.forEach (List.finRange 32) (fun d p =>
    if (d.dport p).takeNext then
      match d.prefetch p with
      | some i => d.dispatch p i
      | none => d
    else d)

/-! ## Waking and signals (R457, R458) -/

/-- Threads BLOCKED on an object, in the order in which they wake: priority, then ORDER. -/
def Dev.waiters (d : Dev) (e : Nat) : List Nat :=
  let xs := d.inUse.filter (fun i =>
    let t := d.thread i
    decide (t.state = .blocked) && decide (t.waitObj.map (·.val) = some e))
  insSort (fun i j =>
    let a := d.thread i
    let b := d.thread j
    if a.priority = b.priority then !laterSeq 32 a.order.toNat b.order.toNat
    else decide (a.priority.toNat < b.priority.toNat)) xs

/-- One more signal of the object would take its pending count, or the count of a SEM object that has fewer waiters, past
65,535 (R458). -/
def Dev.signalOver (d : Dev) (e : Fin 512) : Bool :=
  let o := d.ev e
  decide (o.pending = 0xFFFF) ||
  (!o.broadcast && decide (0xFFFF < o.count.toNat + (o.pending.toNat + 1 - (d.waiters e).length)))

/-- One signal arrives at an object: it is merged into the pending count, or sets OVF where it would take a count past its
largest value (R458). The Boolean says that it was counted. -/
def Dev.signal (d : Dev) (e : Fin 512) : Dev × Bool :=
  let o := d.ev e
  if d.signalOver e then (d.setEv e { o with ovf := true }, false)
  else
    let d := d.setEv e { o with pending := o.pending + 1 }
    if e ∈ d.sched.evQueue then (d, true)
    else ({ d with sched := { d.sched with evQueue := d.sched.evQueue ++ [e] } }, true)

/-- A signal from hardware. -/
def Dev.hwSignal (d : Dev) (e : Nat) : Dev := (d.signal (Fin.ofNat 512 e)).1

/-! ## Freeze of a region's dispatch ports (R461) -/

/-- The dispatch ports assigned to a region. -/
def Dev.regionPorts (d : Dev) (n : Nat) : List (Fin 32) :=
  (List.finRange 32).filter (fun p => decide (d.portRegion p = some n))

/-- One port of a freezing region: its RUNNING thread becomes READY with FROZEN, its TAKE_NEXT is cancelled, and the result
of a CREATE that waits is discarded. -/
def Dev.portFreeze (d : Dev) (p : Fin 32) : Dev :=
  let x := d.dport p
  let d := d.setDport p { x with running := 0, takeNext := false, resValid := false }
  let d := { d with sched := { d.sched with waitingCreates := d.sched.waitingCreates.map (fun a =>
    if a.caller = .port p then { a with caller := .gone } else a) } }
  if x.running = 0 then d else d.makeReadyFirst x.running 4

def Dev.freezePorts (d : Dev) (n : Nat) : Dev := (d.regionPorts n).foldl Dev.portFreeze d

/-- What a record holds once every record is FREE: GEN advances where the record was in use (R446). -/
def Thread.cleared (t : Thread) : Thread :=
  if t.state = .free then t else { Thread.blank with gen := t.gen + 1 }

/-- Every record FREE, every event count 0, every timer disabled, SCH_SPILL_CFG.EN 0 (R448). -/
def Dev.schedClear (d : Dev) : Dev :=
  let d := d.forEach d.inUse (fun d i => d.setThread i (d.thread i).cleared)
  let d := d.forEach (d.sched.events.map (·.1)) (fun d e => d.setEv e { d.ev e with count := 0, pending := 0 })
  let d := { d with sched := { d.sched with ports := [], evQueue := [], job := none, waitingCreates := [] } }
  let d := (d.setRbit schSpillCfg 31 false).setRbit schStatus 29 false
  d.forEach (List.range 256) (fun d t => d.setRbit (schTmrCtrl t) 31 false)

end Sys2Proof.Machine
end

