-- ==== Sys2Proof/Machine/FabricOps.lean ====
section
/-! DEFINITION. Flows, endpoints, ingress and egress as shared operations (R117 to R144, R194 to R218). -/
namespace Sys2Proof.Machine

/-! ## Flow descriptors -/

/-- What a flow ID holds before any request: flow 0 is LIVE, every other one FREE (R195, R236). -/
def flowDefault (f : Nat) : Flow := if f = 0 then { Flow.blank with state := .live } else Flow.blank

def Dev.flow (d : Dev) (f : Nat) : Flow := mget flowDefault d.adm.flows f

def Dev.setFlow (d : Dev) (f : Nat) (x : Flow) : Dev :=
  { d with adm := { d.adm with flows := mset flowDefault d.adm.flows f x } }

/-- The flow IDs whose descriptors are not FREE, flow 0 left out, ascending. -/
def Dev.flowIds (d : Dev) : List Nat :=
  (d.adm.flows.filter (fun e => decide (e.1 ≠ 0) && decide (e.2.state ≠ .free))).map (·.1)

def FlowState.code : FlowState → Nat
  | .free => 0
  | .pending => 1
  | .live => 2
  | .draining => 3
  | .moving => 4

/-- The PROMISE byte of R194. -/
def Flow.promise (x : Flow) : Nat := b2n x.holds + 2 * b2n x.destSusp + 4 * b2n x.srcSusp + 8 * b2n x.degraded

/-- The 64 bytes of a flow descriptor (R194). -/
def Flow.bytes (f : Nat) (x : Flow) : List Byte :=
  putLE 2 f ++ [x.src, x.dest] ++ putLE 2 x.n.toNat ++ putLE 2 x.b.toNat ++ putLE 2 x.m.toNat ++
  putLE 2 x.allocReq.toNat ++ putLE 4 x.dReq.toNat ++ putLE 2 x.flags.toNat ++ putLE 2 x.eventObj.toNat ++ zeros 12 ++
  putLE 1 x.state.code ++ putLE 1 x.promise ++ putLE 2 x.alloc.toNat ++ putLE 2 x.gMax.toNat ++
  putLE 2 x.required.toNat ++ putLE 4 x.bound.toNat ++ putLE 4 x.livePeriod.toNat ++ putLE 4 x.suspSeq.toNat ++
  [x.detail] ++ zeros 11

/-- A flow with a reservation (R196). -/
def Flow.reserved (x : Flow) : Bool := decide (x.n ≠ 0)

/-- FLAGS of R194. -/
def Flow.autoGrow (x : Flow) : Bool := bit x.flags 0
def Flow.carryExcess (x : Flow) : Bool := bit x.flags 1
def Flow.event (x : Flow) : Bool := bit x.flags 2

/-- LIVE or MOVING, or DRAINING before acceptance stops, at its SRC (R199). -/
def Flow.openAt (x : Flow) (e : Nat) : Bool :=
  decide (x.src.toNat = e) &&
  (match x.state with
   | .live => true
   | .moving => true
   | .draining => !x.stopped
   | _ => false)

/-- LIVE in the sense of a memory message's reply flow or of a classifier entry: LIVE or MOVING, from source `e`. -/
def Flow.liveFrom (x : Flow) (e : Nat) : Bool :=
  decide (x.src.toNat = e) && (decide (x.state = .live) || decide (x.state = .moving))

/-- From the start of slot 496 to the boundary, the admission engine writes no staged table (R211). -/
def Dev.stagingShut (d : Dev) : Bool :=
  d.fab.begun && (decide (497 ≤ d.fab.nextSlot.toNat % 512) ||
    (decide (d.fab.nextSlot.toNat % 512 = 0) && decide (d.fab.nextSlot.toNat / 512 ≠ d.fab.period.toNat)))

/-! ## Endpoints -/

def isLaneEp (e : Nat) : Bool := decide (e < 16)
def isRegionEp (e : Nat) : Bool := decide (16 ≤ e ∧ e < 40)
def isGatewayEp (e : Nat) : Bool := decide (40 ≤ e ∧ e < 48)
/-- The region of a region endpoint (R117). -/
def epRegion (e : Nat) : Nat := (e - 16) / 2

/-- The capacity of an endpoint in cells per period (R119). -/
def epCapacity (e : Nat) : Nat := if e = 48 then 384 else 512

/-- MODE of a lane: 0 OFF, 1 ETH, 2 RAW_8B10B, 3 RAW_64B66B, 4 RAW_PASS (R285). -/
def Dev.laneMode (d : Dev) (n : Nat) : Nat := d.fld (sdsCfg n) 24 4

def Dev.isRaw (d : Dev) (n : Nat) : Bool := decide (2 ≤ d.laneMode n)

/-- The enabled Ethernet port that lane n is a member of: its primary lane and its lane count (R249). A lane in a raw mode
is never part of a port (R247). -/
def Dev.portOfLane (d : Dev) (n : Nat) : Option (Nat × Nat) :=
  if d.isRaw n then none
  else (List.range 16).findSome? (fun p =>
    let k := d.fld (macCfg p) 16 4
    if d.rbit (macCfg p) 31 && decide (p ≤ n) && decide (n < p + k) then some (p, k) else none)

/-- The lanes that MAC_CFG of a port names, and its members among them. -/
def Dev.portLanes (d : Dev) (p : Nat) : List Nat := (List.range (d.fld (macCfg p) 16 4)).map (fun i => p + i)
def Dev.members (d : Dev) (p : Nat) : List Nat := (d.portLanes p).filter (fun n => !d.isRaw n)

/-- The lane is marked TEST: by itself or by another member of its port (R263). -/
def Dev.laneTest (d : Dev) (n : Nat) : Bool :=
  d.rbit (sdsCtrl n) 31 ||
  (match d.portOfLane n with
   | none => false
   | some (p, _) => (d.members p).any (fun i => d.rbit (sdsCtrl i) 31))

/-- LOOPBACK of a lane marked TEST: 0 none, 1 and 2 near, 3 and 4 far (R264). -/
def Dev.loopback (d : Dev) (n : Nat) : Nat := if d.laneTest n then d.fld (sdsCtrl n) 28 3 else 0

def Dev.laneReset (d : Dev) (n : Nat) : Bool := d.rbit (sdsCtrl n) 0

/-- The lane permit in force (R561). -/
def Dev.lanePermit (d : Dev) (n : Nat) : Bool := d.rbit fenceLane n

/-- TXPLL_LOCK in SDS_STATUS (R287). -/
def bitTxpll : Nat := 29

/-- The transmitter is out of electrical idle (R245, R246, R264, R267). -/
def Dev.txOn (d : Dev) (n : Nat) : Bool :=
  decide (d.laneMode n ≠ 0) && !d.laneReset n && d.rbit (sdsCtrl n) 1 && d.rbit (sdsStatus n) bitTxpll && d.lanePermit n &&
  !bit d.serial.txShed n && decide (d.loopback n ≠ 1) && decide (d.loopback n ≠ 2)

/-- A transmitter that the restore of its rung left idle is on again (R246). -/
def Dev.txAgain (d : Dev) (n : Nat) : Dev :=
  if d.txOn n then { d with serial := { d.serial with txWait := setBit d.serial.txWait n false } } else d

/-- TX_SHED: shedding has turned the transmitter off, and it is not on again (R246). -/
def Dev.txHeld (d : Dev) (n : Nat) : Bool := bit d.serial.txShed n || (bit d.serial.txWait n && !d.txOn n)

/-- The hive runs, or boots: nothing but its own firmware keeps it from READY. -/
def Dev.hiveRuns (d : Dev) : Bool :=
  !d.power.por && !d.power.resetN && !d.power.thermHold && !d.power.startDue && !d.rbit pwrStatus 3 && !d.hive.failed

/-- The reset of the hive ends, where nothing else holds it. -/
def Dev.hiveResetEnds (d : Dev) : Dev :=
  if d.hiveRuns then { d with hive := { d.hive with held := false } } else d

/-- The causes of suspension that hold at an endpoint now, as bits [4:0] of ADM_EP_STATE (R215, R241). -/
def Dev.epCauses (d : Dev) (e : Nat) : BitVec 5 :=
  BitVec.ofNat 5
    (if isLaneEp e then 4 * b2n (d.txHeld e) + 8 * b2n (d.laneTest e)
     else if isRegionEp e then b2n (d.frozen (epRegion e)) + 2 * b2n (d.rbit (fabEpStatus e) clkLostBit)
     else if e = 48 then 16 * b2n d.hive.held
     else 0)

/-- SUSPENDED of an endpoint (R241). -/
def Dev.suspendedEp (d : Dev) (e : Nat) : Bool := bit d.adm.suspended e

/-- FAB_STATUS.DEGRADED (R166, R175). -/
def Dev.degraded (d : Dev) : Bool := d.rbit fabStatus 31

/-- Best-effort service is stopped by BE_STOP or by rung 2 of shedding (R156). -/
def Dev.beStopped (d : Dev) : Bool := d.rbit fabCtrl 0 || d.rbit pwrStatus 1

/-! ## Ingress and egress stores -/

def Dev.ing (d : Dev) (e : Nat) : Ingress := mget (fun _ => Ingress.empty) d.fab.ingress e

def Dev.setIng (d : Dev) (e : Nat) (x : Ingress) : Dev :=
  { d with fab := { d.fab with ingress := mset (fun _ => Ingress.empty) d.fab.ingress e x } }

def Dev.framing (d : Dev) (e f : Nat) : Framing := mget (fun _ => Framing.closed) d.fab.framing (e * 4096 + f)

def Dev.setFraming (d : Dev) (e f : Nat) (x : Framing) : Dev :=
  { d with fab := { d.fab with framing := mset (fun _ => Framing.closed) d.fab.framing (e * 4096 + f) x } }

def Dev.pool (d : Dev) (e : Nat) : List PoolEnt := mget (fun _ => []) d.fab.pools e

def Dev.setPool (d : Dev) (e : Nat) (x : List PoolEnt) : Dev :=
  { d with fab := { d.fab with pools := mset (fun _ => []) d.fab.pools e x } }

def Dev.rxCells (d : Dev) (e : Nat) : List Cell := mget (fun _ => []) d.fab.rx e

def Dev.setRx (d : Dev) (e : Nat) (x : List Cell) : Dev :=
  { d with fab := { d.fab with rx := mset (fun _ => []) d.fab.rx e x } }

/-- The message that a cell belongs to at egress e: its flow, its source and whether it is accepted. -/
def msgKey (e : Nat) (c : Cell) : Nat := ((e * 4096 + c.flow.toNat) * 64 + c.src.toNat) * 2 + b2n c.acc

def Dev.egErr (d : Dev) (k : Nat) : Bool := mget (fun _ => false) d.fab.egErr k

def Dev.setEgErr (d : Dev) (k : Nat) (b : Bool) : Dev :=
  { d with fab := { d.fab with egErr := mset (fun _ => false) d.fab.egErr k b } }

def Dev.msgRoute (d : Dev) (k : Nat) : Nat := mget (fun _ => 0) d.fab.msgRoute k

def Dev.setMsgRoute (d : Dev) (k v : Nat) : Dev :=
  { d with fab := { d.fab with msgRoute := mset (fun _ => 0) d.fab.msgRoute k v } }

/-- FAB_EP_BE_LEVEL (R168, R183). -/
def Dev.beLevel (d : Dev) (e : Nat) : Nat := ((d.pool e).filter (fun p => !p.cell.acc)).length

/-- FAB_EP_ALLOC: allocations held from the swap at which a flow goes live to the swap that frees it (R197). A moved
flow holds its allocation at both its egresses while MOVING after B. -/
def Dev.allocAt (d : Dev) (e : Nat) : Nat :=
  d.flowIds.foldl (fun a f =>
    let x := d.flow f
    let here := decide (x.dest.toNat = e) && decide (x.state ≠ .pending)
    let there := decide (x.state = .moving) && decide (x.altDest.toNat = e) && decide (x.altDest ≠ x.dest)
      && decide (x.movedAt ≠ 0)
    a + (if here then x.alloc.toNat else 0) + (if there then x.alloc.toNat else 0)) 0

/-- ADM_EP_REPLAY_RES: the sum of B + 2 over flows with a reservation at this SRC (R131, R240). -/
def Dev.replayRes (d : Dev) (e : Nat) : Nat :=
  d.flowIds.foldl (fun a f =>
    let x := d.flow f
    let here := decide (x.src.toNat = e) || (decide (x.state = .moving) && decide (x.altSrc.toNat = e))
    a + (if x.reserved && here then x.b.toNat + 2 else 0)) 0

/-- The egress has best-effort space (R168). -/
def Dev.beSpace (d : Dev) (e : Nat) : Bool := decide (d.beLevel e < 4096 - d.allocAt e)

/-- The slot that has begun, modulo 65,536: the stamp of an acceptance or of a handover (R136, R162). -/
def Dev.slotNow (d : Dev) : BitVec 16 := BitVec.ofNat 16 (d.fab.nextSlot.toNat + 65535)

/-! ## Calendars: entry f + 4,096 marks an old slot of a moved flow (R226, R227) -/

def calKey (e t : Nat) : Nat := e * 512 + t

def calGet (m : List (Nat × Nat)) (e t : Nat) : Nat := mget (fun _ => 0) m (calKey e t)

def calSet (m : List (Nat × Nat)) (e t v : Nat) : List (Nat × Nat) := mset (fun _ => 0) m (calKey e t) v

/-- The entries of one egress: slot and value, ascending. -/
def calOf (m : List (Nat × Nat)) (e : Nat) : List (Nat × Nat) :=
  (m.filter (fun x => decide (x.1 / 512 = e))).map (fun x => (x.1 % 512, x.2))

/-- One table of egress `e` replaced by another map's. -/
def calCopy (src dst : List (Nat × Nat)) (e : Nat) : List (Nat × Nat) :=
  (calOf src e).foldl (fun m x => calSet m e x.1 x.2) (mdrop (fun k => decide (k / 512 = e)) dst)

/-- The staged table of an egress after a swap becomes a copy of the active one (R154). -/
def Dev.copyCal (d : Dev) (e : Nat) : Dev :=
  { d with fab := { d.fab with calStaged := calCopy d.fab.calActive d.fab.calStaged e,
                               copyPend := setBit d.fab.copyPend e false } }

/-- The engine does not write a staged table until its copy is done (R154, R211). -/
def Dev.copied (d : Dev) (e : Nat) : Dev := d.cond (bit d.fab.copyPend e) (fun d => d.copyCal e)

/-- Requests a swap of an egress (R154). -/
def Dev.reqSwap (d : Dev) (e : Nat) : Dev :=
  { d with fab := { d.fab with swapPend := setBit d.fab.swapPend e true } }

/-- Takes every staged slot of a flow entry out of an egress's staged table. -/
def Dev.unstage (d : Dev) (e v : Nat) : Dev :=
  let d := d.copied e
  { d with fab := { d.fab with
      calStaged := (calOf d.fab.calStaged e).foldl
        (fun m x => if x.2 = v then calSet m e x.1 0 else m) d.fab.calStaged } }

/-! ## Acceptance (R128 to R130, R149) -/

/-- One accepted cell enters the replay store of an ingress: it takes a token and a credit. -/
def Dev.acceptCell (d : Dev) (e : Nat) (c : Cell) : Dev :=
  let f := c.flow.toNat
  let x := d.flow f
  let c := { c with acc := true, src := BitVec.ofNat 6 e, dest := BitVec.ofNat 6 x.dest.toNat, astamp := d.slotNow,
                    num := d.fab.nextNum }
  let g := d.ing e
  let ent : ReplayEnt := { seq := g.seq, cell := c, sent := false, due := false, replayed := false, arrived := false }
  let d := d.setFlow f { x with tokens := x.tokens - 1, credits := x.credits - 1 }
  let d := d.setIng e { d.ing e with replay := g.replay ++ [ent], seq := g.seq + 1 }
  let d := { d with fab := { d.fab with
      nextNum := d.fab.nextNum + 1,
      flowAcc := mset (fun _ => Stat.zero) d.fab.flowAcc f ((mget (fun _ => Stat.zero) d.fab.flowAcc f).add 1) } }
  d.statUp (fabEpAcc e)

/-- One carried cell enters the best-effort store of an ingress. -/
def Dev.carryCell (d : Dev) (e : Nat) (c : Cell) : Dev :=
  let dest := if c.flow = 0 then c.dest else BitVec.ofNat 6 (d.flow c.flow.toNat).dest.toNat
  let c := { c with acc := false, src := BitVec.ofNat 6 e, dest := dest, astamp := 0, num := d.fab.nextNum }
  let g := d.ing e
  let d := d.setIng e { g with be := g.be ++ [c] }
  let d := { d with fab := { d.fab with nextNum := d.fab.nextNum + 1 } }
  d.statUp (fabEpCarry e)

/-- A flow whose cells are judged by shaper and credit: reserved and not suspended at its DEST (R130, R216). -/
def Flow.judged (x : Flow) : Bool := x.reserved && !x.destSusp

/-! ## Taking a cell (R124 to R127, R198) -/

/-- CLASSES of FAB_EP_CFG: what an endpoint may use beside class 0b00 (R184). -/
def Dev.classesOf (d : Dev) (e : Nat) : Nat :=
  if isRegionEp e then d.fld (fabEpCfg e) 16 3 else if 48 ≤ e then 7 else 0

def Dev.classOk (d : Dev) (e : Nat) (cls : BitVec 2) : Bool :=
  decide (cls = 0) || (d.classesOf e).testBit (cls.toNat - 1)

/-- A cell discarded for its framing: counted, with FRAMING (R126). -/
def Dev.igDiscard (d : Dev) (e : Nat) : Dev := (d.count (fabEpIgDiscard e)).setRbit (fabEpStatus e) 0 true

/-- The framing state with its open or next message to end with ERR = 1. -/
def Dev.markErr (d : Dev) (e f : Nat) : Dev := d.setFraming e f { d.framing e f with errNext := true }

/-- The largest message of a flow at an ingress other than a lane: 256 cells, or M (R125, R198). -/
def Dev.msgLimit (d : Dev) (e f : Nat) : Nat :=
  let x := d.flow f
  if x.reserved && x.openAt e then min 256 x.m.toNat else 256

/-- A cell joins the ingress queue. -/
def Dev.enqueue (d : Dev) (e : Nat) (c : Cell) : Dev :=
  let g := d.ing e
  d.setIng e { g with queue := g.queue ++ [c] }

/-- A cell of an open message, or the SOM cell of a permitted one, goes on; the message ends at its limit. -/
def Dev.takeFramed (d : Dev) (e : Nat) (c : Cell) : Dev :=
  let f := c.flow.toNat
  let fr := d.framing e f
  let cls := if c.som then c.cls else fr.cls
  let aspace := if c.som then c.aspace else fr.aspace
  let n := (if c.som then 0 else fr.count) + 1
  let forced := !c.eom && decide (d.msgLimit e f ≤ n)
  let eom := c.eom || forced
  let bad := fr.errNext || c.err
  let c' := { c with eom, cls, aspace, err := c.err || forced || (eom && bad), bytes := if c.eom then c.bytes else 0 }
  let fr' : Framing :=
    if eom then { Framing.closed with skip := forced }
    else { fr with isOpen := true, count := n, errNext := bad, cls, aspace, skip := false, denied := false }
  let d := (d.enqueue e c').setFraming e f fr'
  if forced && decide (256 ≤ n) then d.setRbit (fabEpStatus e) 0 true else d

/-- The checks of R126 and R127 on one taken cell. Each cell that is discarded after a forced end sets FRAMING, as R198 says
of those after an M-th cell; the cells of a message that is denied after its SOM are discarded with no count and no flag
(DESIGN CHOICE, log 23). -/
def Dev.takeCell (d : Dev) (e : Nat) (c : Cell) : Dev :=
  let f := c.flow.toNat
  let fr := d.framing e f
  if f = 0 ∧ 51 < c.dest.toNat then
    (if fr.isOpen then d.markErr e f else d).enqueue e c
  else if fr.skip then
    let d := if c.eom then d.setFraming e f { fr with skip := false, denied := false } else d
    if fr.denied then d else d.igDiscard e
  else if c.som = fr.isOpen then (d.markErr e f).igDiscard e
  else if c.som && !d.classOk e c.cls then
    let d := (d.count (fabEpClassDeny e)).setRbit (fabEpStatus e) 1 true
    if c.eom then d else d.setFraming e f { fr with skip := true, denied := true }
  else d.takeFramed e c

/-- The cells that an ingress queue holds (R43, R124). -/
def ingressDepth : Nat := 32

/-- TX_QREADY for a flow at an ingress (R132, R199). -/
def Dev.txQready (d : Dev) (e f : Nat) : Bool :=
  let x := d.flow f
  let queued := ((d.ing e).queue.filter (fun c => decide (c.flow.toNat = f))).length
  if f ≠ 0 ∧ x.openAt e = false then true
  else if f ≠ 0 ∧ x.judged then decide (queued < x.tokens) && decide (queued < x.credits)
  else decide ((d.ing e).be.length < 64)

/-! ## Messages that a block of the device sends or answers with -/

/-- The endpoints whose blocks query TX_QREADY before they present a cell: the gateways, the DMA engines and
the hive (R422, R486, R529). -/
def queries (e : Nat) : Bool := decide (40 ≤ e) && decide (e ≠ 51)

/-- The next cell that a block presents: the oldest, or, where it queries, the oldest of those that are the first of their
flow and whose flow is ready. -/
def Dev.presents (d : Dev) (e : Nat) : List Cell → List (BitVec 12) → Option Cell
  | [], _ => none
  | c :: rest, seen =>
    if !queries e then some c
    else if decide (c.flow ∉ seen) && d.txQready e c.flow.toNat then some c
    else d.presents e rest (c.flow :: seen)

/-- A block of the device presents one cell, where the ingress queue has room. -/
def Dev.feedOne (d : Dev) (e : Nat) : Dev :=
  let g := d.ing e
  if g.queue.length < ingressDepth then
    match d.presents e g.outbox [] with
    | some c => (d.setIng e { g with outbox := g.outbox.erase c }).takeCell e c
    | none => d
  else d

/-- It presents cells while they are taken. -/
def Dev.feed (d : Dev) (e : Nat) : Dev := d.forEach (d.ing e).outbox (fun d _ => d.feedOne e)


/-- The cells of a message of a flow. -/
def cellsOf (flow : BitVec 12) (dest : BitVec 6) (cls : BitVec 2) (aspace : BitVec 6) (bs : List Byte) : List Cell :=
  let n := max 1 ((bs.length + 63) / 64)
  (List.range n).map (fun i =>
    { flow, som := decide (i = 0), eom := decide (i + 1 = n), err := false, acc := false, cls, aspace, src := 0, dest,
      bytes := if i + 1 = n then BitVec.ofNat 6 (bs.length % 64) else 0, astamp := 0,
      payload := slice bs (64 * i) 64, num := 0 })

/-- A block of the device has a message to send: its cells wait until the ingress takes them (R43, R124). -/
def Dev.postMessage (d : Dev) (e f : Nat) (cls : BitVec 2) (aspace : BitVec 6) (bs : List Byte) : Dev :=
  let g := d.ing e
  let cs := cellsOf (BitVec.ofNat 12 f) (BitVec.ofNat 6 (d.flow f).dest.toNat) cls aspace bs
  d.setIng e { g with outbox := g.outbox ++ cs }

def Dev.sendMessage (d : Dev) (e f : Nat) (cls : BitVec 2) (aspace : BitVec 6) (bs : List Byte) : Dev :=
  (d.postMessage e f cls aspace bs).feed e

/-- The bytes of a whole message. -/
def messageBytes (cs : List Cell) : List Byte :=
  cs.foldl (fun a c =>
    a ++ (if c.eom then slice c.payload 0 (if c.bytes = 0 then 64 else c.bytes.toNat) else fit 64 c.payload)) []

/-! ## The receive store of a DMA engine (R117, R486) -/

def Dev.dmaChan (d : Dev) (e c : Nat) : DmaChan := mget (fun _ => DmaChan.idle) d.dma.chans (e * 16 + c)

def Dev.setDmaChan (d : Dev) (e c : Nat) (x : DmaChan) : Dev :=
  { d with dma := { d.dma with chans := mset (fun _ => DmaChan.idle) d.dma.chans (e * 16 + c) x } }

def Dev.dmaEng (d : Dev) (e : Nat) : DmaEngine := mget (fun _ => DmaEngine.idle) d.dma.engines e

def Dev.setDmaEng (d : Dev) (e : Nat) (x : DmaEngine) : Dev :=
  { d with dma := { d.dma with engines := mset (fun _ => DmaEngine.idle) d.dma.engines e x } }

/-- A flow that some route of engine e names for answers. -/
def Dev.isReplyFlow (d : Dev) (e f : Nat) : Bool :=
  (List.range 21).any (fun s => d.rbit (dmaRoute e s) 31 && decide (d.fld (dmaRoute e s) 16 12 = f))

/-- The channel of engine e that a flow is bound to. -/
def Dev.boundChan (d : Dev) (e f : Nat) : Option Nat :=
  (List.range 16).find? (fun c => decide (((d.dmaChan e c).bound.map BitVec.toNat) = some f))

/-- Cells of the receive store that are taken, or kept for answers to come. -/
def Dev.storeUse (d : Dev) (e : Nat) : Nat :=
  (d.rxCells (49 + e)).length + (((d.dmaEng e).reqs.filter (fun r => !r.lost)).map (fun r => r.cells)).sum

/-- The store takes no further cell of a flow: 256 of an F2M flow, or 2,048 in all. An F2M flow leaves room for the answers to
come. -/
def Dev.storeShut (d : Dev) (e f : Nat) : Bool :=
  if d.isReplyFlow e f then decide (2048 ≤ (d.rxCells (49 + e)).length)
  else (d.boundChan e f).isSome &&
    (decide (256 ≤ ((d.rxCells (49 + e)).filter (fun c => decide (c.flow.toNat = f))).length) || decide (2048 ≤ d.storeUse e))

/-- A cell reaches the store: kept, or discarded where no channel's F2M descriptor runs for its flow. -/
def Dev.storeCell (d : Dev) (e : Nat) (c : Cell) : Dev :=
  let keep (d : Dev) : Dev := d.setRx (49 + e) (d.rxCells (49 + e) ++ [c])
  if d.isReplyFlow e c.flow.toNat then keep d
  else
    match d.boundChan e c.flow.toNat with
    | none => d.count (dmaRxUnbound e)
    | some k =>
      let x := d.dmaChan e k
      keep (d.setDmaChan e k { x with errMsg := x.errMsg || c.err })

/-- A memory-message header (R139). -/
def memHeader (type flags length replyFlow tag address reason status : Nat) : List Byte :=
  putLE 1 type ++ putLE 1 flags ++ putLE 2 length ++ putLE 2 replyFlow ++ putLE 2 tag ++ putLE 5 address ++
  putLE 1 reason ++ putLE 2 status

/-- The answer to a request (R139, R140): sent on the request's reply flow, or discarded and counted in BAD_MSG where
that flow is no longer live with the server as source (R144). -/
def Dev.answer (d : Dev) (e : Nat) (cls : BitVec 2) (aspace : BitVec 6) (req : List Byte)
    (flags reason status : Nat) (data : List Byte) : Dev :=
  let rf := getLE 2 req 4 % 4096
  let h := memHeader 3 flags data.length 0 (getLE 2 req 6) (getLE 5 req 8) reason status
  if (d.flow rf).liveFrom e then d.sendMessage e rf cls aspace (h ++ data)
  else (d.count (fabEpBadMsg e)).setRbit (fabEpStatus e) 2 true

/-- A request's answer with a failure (R143): no answer to a WRITE with ACK = 0. -/
def Dev.answerFail (d : Dev) (e : Nat) (cls : BitVec 2) (aspace : BitVec 6) (req : List Byte) (reason status : Nat) : Dev :=
  let t := getLE 1 req 0
  if t = 1 then
    (if getLE 1 req 1 % 2 = 1 then d.answer e cls aspace req 4 reason status [] else d)
  else d.answer e cls aspace req (if t = 4 then 2 else 0) reason status []

/-- A list without the first n elements for which p holds. -/
def dropSome {α : Type} (p : α → Bool) : Nat → List α → List α
  | 0, l => l
  | _, [] => []
  | n + 1, x :: l => if p x then dropSome p n l else x :: dropSome p (n + 1) l

/-- The oldest whole message of a flow from one source, of accepted or of carried cells, in a list of cells, with the rest: the
cells up to its EOM. -/
def takeFrom (f : BitVec 12) (src : BitVec 6) (acc : Bool) (cs : List Cell) : Option (List Cell × List Cell) :=
  let mine (c : Cell) : Bool := decide (c.flow = f) && decide (c.src = src) && decide (c.acc = acc)
  let upTo := (cs.filter mine).takeWhile (fun c => !c.eom)
  match (cs.filter mine).drop upTo.length with
  | [] => none
  | e :: _ => some (upTo ++ [e], dropSome mine (upTo.length + 1) cs)

/-- The whole messages of a flow, the oldest of each source and of accepted and carried cells, each with the cells that it
leaves. -/
def wholeMessages (f : BitVec 12) (cs : List Cell) : List (List Cell × List Cell) :=
  (((cs.filter (fun c => decide (c.flow = f))).map (fun c => (c.src, c.acc))).eraseDups).filterMap
    (fun x => takeFrom f x.1 x.2 cs)

/-- The oldest whole message of a flow. Flow 0 carries the messages of every source side by side, and a flow that carries its
excess has accepted and carried messages side by side (R142, R149), so cells are put together by flow, source and ACC. -/
def takeMessage (f : BitVec 12) (cs : List Cell) : Option (List Cell × List Cell) :=
  (wholeMessages f cs).head?

end Sys2Proof.Machine
end

