-- ==== Sys2Proof/Machine/BankOps.lean ====
section
/-! DEFINITION. Deep banks as shared operations: words, lanes, the remap, service, marches, wipes and handovers
(R407 to R435). -/
namespace Sys2Proof.Machine

/-- The owner value that names nobody (R410). -/
def ownerNone : Nat := 0x3F

/-! ## BANK_REMAP (R439) and the bank that serves an address (R51) -/

def Dev.remapState (d : Dev) : Nat := d.fld bankRemap 30 2
def Dev.remapTarget (d : Dev) : Nat := d.fld bankRemap 0 4

/-- The physical bank that the remap register names for logical bank k. -/
def Dev.physOf (d : Dev) (k : Nat) : Nat :=
  if (d.remapState = 2 ∨ d.remapState = 3) ∧ d.remapTarget = k then 16 else k

/-- The logical bank that a physical bank serves, where it serves one. -/
def Dev.logicalOf (d : Dev) (p : Nat) : Option Nat := (List.range 16).find? (fun k => decide (d.physOf k = p))

/-- A physical bank is in service (R428): its BANK_READY bit. -/
def Dev.inService (d : Dev) (p : Nat) : Bool := d.rbit bankReady p

/-- Powered down by shedding (R435). -/
def Dev.bankDown (d : Dev) (p : Nat) : Bool := d.rbit bankShed p

/-- Puts a bank into or out of service: BANK_READY and SERVICE of BANK_TEST_STATUS (R443). -/
def Dev.setService (d : Dev) (p code : Nat) : Dev :=
  (d.setRbit bankReady p (decide (code = 0))).setFld (bankTestStatus p) 30 2 code

/-! ## Words and lanes (R407, R408, R424) -/

def wordKey (p a : Nat) : Nat := p * 65536 + a

/-- What an unlisted word reads as: zero, or a free value where a destroying march was cut short. -/
def wordUnlisted (undef : List (Nat × Nat)) (k : Nat) : BitVec 512 :=
  let b := mget (fun _ => 0) undef (k / 65536)
  if b = 0 then 0 else Config.freeValue (b - 1 + k % 65536) 512

def Dev.bword (d : Dev) (p a : Nat) : BitVec 512 := mget (wordUnlisted d.bank.wordsFree) d.bank.words (wordKey p a)

def Dev.setBword (d : Dev) (p a : Nat) (v : BitVec 512) : Dev :=
  { d with bank := { d.bank with words := mset (wordUnlisted d.bank.wordsFree) d.bank.words (wordKey p a) v } }

/-- 0: the lane is clean; 1: one bit in error; 2: uncorrectable. -/
def Dev.laneErr (d : Dev) (p a l : Nat) : Nat := mget (fun _ => 0) d.bank.ecc (wordKey p a * 8 + l)

def Dev.setLaneErr (d : Dev) (p a l v : Nat) : Dev :=
  { d with bank := { d.bank with ecc := mset (fun _ => 0) d.bank.ecc (wordKey p a * 8 + l) v } }

/-- Byte i of a word. -/
def wordByte (w : BitVec 512) (i : Nat) : Byte := BitVec.ofNat 8 (bits w (8 * i) 8)

/-- Every word of a physical bank zero with a valid code (R425). -/
def Dev.zeroBank (d : Dev) (p : Nat) : Dev :=
  { d with bank := { d.bank with
      words := mdrop (fun k => decide (k / 65536 = p)) d.bank.words,
      wordsFree := mdel d.bank.wordsFree p,
      ecc := mdrop (fun k => decide (k / 8 / 65536 = p)) d.bank.ecc,
      writeback := mdrop (fun k => decide (k = p)) d.bank.writeback } }

/-- The words of the secure partition: rows 2,016 to 2,047 (R415). -/
def secureWord (a : Nat) : Bool := decide (64512 ≤ a)

/-- The secure partition of a physical bank zeroed (R418): its words are listed no more or, where an unlisted word of the
bank has no stated contents, are listed as zero. -/
def Dev.zeroSecure (d : Dev) (p : Nat) : Dev :=
  let d :=
    if mget (fun _ => 0) d.bank.wordsFree p = 0 then
      { d with bank := { d.bank with
          words := mdrop (fun k => decide (k / 65536 = p) && secureWord (k % 65536)) d.bank.words } }
    else d.forEach (List.range 1024) (fun d i => d.setBword p (64512 + i) 0)
  { d with bank := { d.bank with
      ecc := mdrop (fun k => decide (k / 8 / 65536 = p) && secureWord (k / 8 % 65536)) d.bank.ecc,
      writeback := mset (fun _ => []) d.bank.writeback p
        ((mget (fun _ => []) d.bank.writeback p).filter (fun a => !secureWord a)) } }

/-- The bank that a copy in progress fills, where p is its source (R432, R434). -/
def Dev.mirrorOf (d : Dev) (p : Nat) : Option Nat :=
  if (d.remapState = 1 ∨ d.remapState = 3) ∧ d.physOf d.remapTarget = p then
    some (if d.remapState = 1 then 16 else d.remapTarget)
  else none

/-! ## Marches (R425 to R430) -/

def Dev.march? (d : Dev) (p : Nat) : Option MarchRun := (d.bank.marches.find? (fun e => decide (e.1 = p))).map (·.2)

def Dev.setMarch (d : Dev) (p : Nat) (m : MarchRun) : Dev :=
  { d with bank := { d.bank with marches := mput p m d.bank.marches } }

def Dev.endMarch (d : Dev) (p : Nat) : Dev := { d with bank := { d.bank with marches := mdel d.bank.marches p } }

/-- A wipe runs on a physical bank (R418): WIPING of the logical bank that it serves or, of the bank that serves none, the
wipe of its own. -/
def Dev.bankWiping (d : Dev) (p : Nat) : Bool :=
  match d.logicalOf p with
  | some k => d.rbit (bankCtrl k) 31
  | none => decide (d.bank.wipeAlso = some p)

/-- A march starts on a physical bank: out of service, RESULT running. While the 0.776 V rung holds or a wipe runs on the bank
it waits (R418, R429). -/
def Dev.startMarch (d : Dev) (p : Nat) (m : MarchRun) : Dev :=
  let d := if d.remapState = 2 ∧ d.remapTarget = p then { d with bank := { d.bank with retested := true } } else d
  let m := { m with stopped := m.stopped || d.rbit pwrStatus 0 || d.bankWiping p }
  ((d.setMarch p m).setService p 1).setFld (bankTestStatus p) 0 3 1

/-- RESULT codes of BANK_TEST_STATUS (R443). -/
def resPass : Nat := 2
def resFail : Nat := 3
def resIncomplete : Nat := 4
def resSkipped : Nat := 5

/-- The 0.776 V rung stops every running march: a preserving one ends INCOMPLETE and its bank returns to service, a
destroying one waits, out of service, to start again (R429). -/
def Dev.stopMarch (d : Dev) (p : Nat) : Dev :=
  match d.march? p with
  | none => d
  | some m =>
    if m.preserving then ((d.endMarch p).setService p 0).setFld (bankTestStatus p) 0 3 resIncomplete
    else d.setMarch p { m with stopped := true }

/-- The restore of the rung starts the destroying marches again (R429), and the end of a wipe the marches that it stopped
(R418); where the other of the two still holds, a march waits for it. -/
def Dev.restartMarch (d : Dev) (p : Nat) : Dev :=
  match d.march? p with
  | none => d
  | some m => d.setMarch p { m with stopped := d.rbit pwrStatus 0 || d.bankWiping p }

/-- A wipe of logical bank k's secure partition begins: its words are zero from then on, WIPING is 1 until
BANK_WIPE_DONE, and a march on the bank stops meanwhile. The writes are mirrored where a copy is in progress (R432). A bank
that is powered down holds nothing to wipe. -/
def Dev.startWipe (d : Dev) (k : Nat) : Dev :=
  let p := d.physOf k
  if d.bankDown p then d
  else
    let d := ((p :: (d.mirrorOf p).toList).foldl Dev.zeroSecure d).setRbit (bankCtrl k) 31 true
    match d.march? p with
    | some m => d.setMarch p { m with stopped := true }
    | none => d

/-- The physical bank that serves no address (R428). -/
def Dev.idleBank (d : Dev) : Nat := if d.remapState = 2 ∨ d.remapState = 3 then d.remapTarget else 16

/-- The wipe of the bank that serves no address; a march on it stops meanwhile. It ends with the others, which run in
parallel: with the next BANK_WIPE_DONE. -/
def Dev.wipeIdle (d : Dev) : Dev :=
  let p := d.idleBank
  if d.bankDown p || !(List.range 16).any (fun k => d.rbit (bankCtrl k) 31) then d
  else
    let d := { d with bank := { d.bank with wipeAlso := some p } }
    match d.march? p with
    | some m => d.setMarch p { m with stopped := true }
    | none => d

/-- The wipe of the bank that serves no address ends, and a march that it stopped goes on. -/
def Dev.wipeIdleDone (d : Dev) : Dev :=
  match d.bank.wipeAlso with
  | none => d
  | some p => ({ d with bank := { d.bank with wipeAlso := none } } : Dev).restartMarch p

/-- A tamper event or a lifecycle transition wipes the partition of all 17 physical banks, whatever SECURE holds. -/
def Dev.wipeAllSecure (d : Dev) : Dev :=
  ((d.forEach (List.range 17) Dev.zeroSecure).forEach (List.range 16) Dev.startWipe).wipeIdle

/-! ## Shedding (R435) -/

/-- The copy of a migration is abandoned (R433). -/
def Dev.abandonCopy (d : Dev) : Dev :=
  d.setReg bankRemap (setBits (setBits (d.reg bankRemap) 30 2 (if d.remapState = 3 then 2 else 0)) 8 17 0)

/-- A physical bank powers down and loses its contents; the result of a march that it cuts short is INCOMPLETE (R429). -/
def Dev.powerDown (d : Dev) (p : Nat) : Dev :=
  let d := d.cond (d.march? p).isSome (fun d => d.setFld (bankTestStatus p) 0 3 resIncomplete)
  let d := (d.zeroBank p).endMarch p
  let d := (d.setRbit bankShed p true).setService p 3
  let copying := d.remapState = 1 ∨ d.remapState = 3
  if copying ∧ d.physOf d.remapTarget = p then d.abandonCopy else d

/-! ## Ownership (R410 to R413) -/

/-- Step 4 of R412: the new owner, no guests, every address space permitted, and the BANK_OWNER log entry. -/
def Dev.takeOwner (d : Dev) (k : Nat) : Dev :=
  let old := d.fld (bankOwner k) 0 6
  let new := d.fld (bankOwner k) 8 6
  let d := d.setReg (bankOwner k) (BitVec.ofNat 32 new)
  let d := (d.setReg (bankGuestR k) 0).setReg (bankGuestW k) 0
  let d := (d.setReg (bankAspace k 0) 0xFFFFFFFF).setReg (bankAspace k 1) 0xFFFFFFFF
  let d := d.logEntry 0x2A srcBank Path.chip (putLE 1 k ++ putLE 1 old ++ putLE 1 new)
  d.forEach [1, 2, 3] (fun d c =>
    let q := mget (fun _ => []) d.bank.queues (k * 4 + c)
    let h := mget (fun _ => []) d.bank.heldq (k * 4 + c)
    { d with bank := { d.bank with
        queues := mset (fun _ => []) d.bank.queues (k * 4 + c) (q ++ h),
        heldq := mset (fun _ => []) d.bank.heldq (k * 4 + c) [],
        route := d.bank.route.map (fun r => if (r.2 - 1) / 2 = k * 4 + c then (r.1, (k * 4 + c) * 2 + 1) else r) } })

/-- The endpoints that may own a bank (R409). -/
def ownerOk (e : Nat) : Bool := decide ((16 ≤ e ∧ e ≤ 39) ∨ (48 ≤ e ∧ e ≤ 51) ∨ e = ownerNone)

/-- A handover begins (R412): refused in silence for a forbidden endpoint or while one is in progress (R411). -/
def Dev.startHandover (d : Dev) (k e : Nat) : Dev :=
  if ownerOk e && !d.rbit (bankOwner k) 31 then
    d.setReg (bankOwner k) (setBits (setBits (d.reg (bankOwner k)) 8 6 e) 31 1 1)
  else d

/-- Every start and every full-image load by stream or JTAG: no owners, no guests, SECURE and RETAIN clear (R410). -/
def Dev.clearOwners (d : Dev) : Dev :=
  d.forEach (List.range 16) (fun d k =>
    let d := d.setFld (bankOwner k) 0 6 ownerNone
    let d := (d.setReg (bankGuestR k) 0).setReg (bankGuestW k) 0
    let d := (d.setReg (bankAspace k 0) 0xFFFFFFFF).setReg (bankAspace k 1) 0xFFFFFFFF
    d.setFld (bankCtrl k) 0 2 0)

/-- BANK_REPAIR (R444): fused rows, soft rows, and what is left of the rows that the fuses leave. -/
def Dev.bankFree (d : Dev) (p : Nat) : Nat :=
  Config.bankFuses p - (mget (fun _ => []) d.bank.repairs p).length

end Sys2Proof.Machine
end

