-- ==== Sys2Proof/Machine/DmaWait.lean ====
section
/-! DEFINITION. How a DMA channel waits for a server that is out of service (R488, R496, R502). -/
namespace Sys2Proof.Machine

def Dev.chPriority (d : Dev) (e c : Nat) : Nat := d.fld (dmaChCfg e c) 23 3

/-- Changes the channel's own state. -/
def Dev.updChan (d : Dev) (e c : Nat) (f : DmaChan → DmaChan) : Dev := d.setDmaChan e c (f (d.dmaChan e c))

/-- Changes the engine's own state. -/
def Dev.updEng (d : Dev) (e : Nat) (f : DmaEngine → DmaEngine) : Dev := d.setDmaEng e (f (d.dmaEng e))

/-- The endpoint of a route index. -/
def serverEp (s : Nat) : Nat := if s < 8 then 40 + s else if s < 20 then 17 + 2 * (s - 8) else 48

/-- The server's endpoint is suspended (R215, R496). -/
def Dev.serverSuspended (d : Dev) (s : Nat) : Bool := decide (d.epCauses (serverEp s) ≠ 0) || d.suspendedEp (serverEp s)

/-- The engine turns away from a channel that it no longer serves; its round goes on with 4 KiB for the next (R488). -/
def Dev.releaseEngine (d : Dev) (e c : Nat) : Dev :=
  let p := d.chPriority e c
  d.updEng e (fun x => { x with
    holder := if x.holder = some (Fin.ofNat 16 c) then none else x.holder,
    burst := if mget (fun _ => 0) x.turn p = c then mset (fun _ => 0) x.burst p 0 else x.burst })

/-- The channel waits for a server that is out of service (R496). -/
def Dev.enterWait (d : Dev) (e c s : Nat) : Dev :=
  d.updChan e c (fun x => if x.state = .active ∨ x.state = .preempted ∨ x.state = .waitTest
    then { x with state := .waitTest, trying := none, waitOn := s } else x) |>.releaseEngine e c

/-- A request is answered TARGET_IN_TEST, or its server is suspended: it will be repeated. -/
def Dev.inTest (d : Dev) (e : Nat) (r : DmaReq) : Dev :=
  let c := r.chan.val
  let back (off : Nat) (st : GroupState) (d : Dev) : Dev := d.updChan e c (fun x => { x with
    groups := x.groups.map (fun g => if g.off = off then { g with st := st } else g) })
  let d := match r.kind with
    | .desc => d.updChan e c (fun x => { x with asked := false })
    | .walk => d.updEng e (fun x => { x with walk := x.walk.map (fun (w : Walk) => { w with asked := false }) })
    | .read off => back off .toRead d
    | .write off => back off .toWrite d
  d.enterWait e c r.server

/-- Every request of an engine outstanding to a suspended server counts as answered TARGET_IN_TEST (R496); what arrives for it
later is discarded. -/
def Dev.dmaSuspend (d : Dev) (e : Nat) : Dev :=
  let gone := (d.dmaEng e).reqs.filter (fun r => !r.lost && d.serverSuspended r.server)
  let d := d.updEng e (fun x => { x with
    reqs := x.reqs.map (fun r => if gone.contains r then { r with dead := true, lost := true } else r) })
  d.forEach (gone.filter (fun r => !r.dead)) (fun d r => d.inTest e r)

/-- An endpoint has come to be suspended: both engines. -/
def Dev.dmaSuspendAll (d : Dev) : Dev := d.forEach [0, 1] Dev.dmaSuspend

end Sys2Proof.Machine
end

