-- ==== Sys2Proof/Machine/Netlist.lean ====
section
/-! DEFINITION. The logic of a region as its image wires it: cells, carry chains, flip-flops, global lines, clock trees and
gates, reset nets, I/O cells, queue sides, and what the freeze latches hold (R55 to R80, R97, R98, R103). -/
namespace Sys2Proof.Machine

/-! ## Items of a region by number -/

def memKey (n m : Nat) : Nat := n * 240 + m
def rowKey (n m r : Nat) : Nat := memKey n m * 512 + r
def portKey (n m : Nat) (p : BramSide) : Nat := memKey n m * 2 + (match p with | .a => 0 | .b => 1)
def srlKey (n c : Nat) : Nat := n * 80000 + c
def ffKey (n c : Nat) (second : Bool) : Nat := (n * 80000 + c) * 2 + b2n second
def ioKey (n i : Nat) : Nat := n * 20 + i
def lineKey (n l : Nat) : Nat := n * 4096 + l
def chipLineKey (l : Nat) : Nat := 65536 + l

def Dev.cellCfg (d : Dev) (n c : Nat) : CellCfg := mget (fun _ => CellCfg.plain) d.logic.cells (srlKey n c)
def Dev.ioCfg (d : Dev) (n i : Nat) : IoCfg := mget (fun _ => IoCfg.plain) d.logic.ios (ioKey n i)
def Dev.rgnCfg (d : Dev) (n : Nat) : RgnCfg := mget (fun _ => RgnCfg.plain) d.logic.rgns n
def Dev.tapCfg (d : Dev) (line p : Nat) : TapCfg := mget (fun _ => TapCfg.off) d.logic.taps (line * 16 + p)
def Dev.bramCfg (d : Dev) (n m : Nat) : BramCfg := mget (fun _ => BramCfg.plain) d.logic.bramCfg (memKey n m)
def Dev.arithCfg (d : Dev) (n b : Nat) : ArithCfg := mget (fun _ => ArithCfg.plain) d.logic.arithCfg (n * 320 + b)

def Dev.ff (d : Dev) (n c : Nat) (second : Bool) : Bool := mget (fun _ => false) d.logic.ffs (ffKey n c second)

def Dev.setFf (d : Dev) (k : Nat) (v : Bool) : Dev :=
  { d with logic := { d.logic with ffs := mset (fun _ => false) d.logic.ffs k v } }

def Dev.srl (d : Dev) (n c : Nat) : DWord := mget (fun _ => 0) d.logic.shiftRegs (srlKey n c)

def Dev.acc (d : Dev) (n b : Nat) : Acc := mget (fun _ => Acc.zero) d.logic.arith (n * 320 + b)

def Dev.ioReg (d : Dev) (n i : Nat) : IoRegs := mget (fun _ => IoRegs.zero) d.logic.ioRegs (ioKey n i)

def Dev.setIoReg (d : Dev) (n i : Nat) (x : IoRegs) : Dev :=
  { d with logic := { d.logic with ioRegs := mset (fun _ => IoRegs.zero) d.logic.ioRegs (ioKey n i) x } }

def Dev.bramPort (d : Dev) (n m : Nat) (p : BramSide) : BramPort :=
  mget (fun _ => BramPort.zero) d.logic.bramPorts (portKey n m p)

def Dev.setBramPort (d : Dev) (n m : Nat) (p : BramSide) (x : BramPort) : Dev :=
  { d with logic := { d.logic with bramPorts := mset (fun _ => BramPort.zero) d.logic.bramPorts (portKey n m p) x } }

/-- The pin of region n with region pin index i (R577). -/
def pinOf (n i : Nat) : Nat := if i < 16 then 16 * n + i else 192 + 4 * n + (i - 16)

/-! ## Queue controllers as each side sees them (R94, R97, R98) -/

def Dev.queue (d : Dev) (n m : Nat) : QueueCtl := mget (fun _ => QueueCtl.empty) d.logic.queues (memKey n m)

def Dev.setQueue (d : Dev) (n m : Nat) (q : QueueCtl) : Dev :=
  { d with logic := { d.logic with queues := mset (fun _ => QueueCtl.empty) d.logic.queues (memKey n m) q } }

/-- The levels: reads not yet at the write side still count there, writes not yet at the read side do not (R97). -/
def QueueCtl.wlevel (q : QueueCtl) : Nat := q.level + q.toWrite.length
def QueueCtl.rlevel (q : QueueCtl) : Nat := q.level - q.toRead.length

/-- QRST, or its release that is still on its way, holds a side (R98). -/
def QueueCtl.heldW (q : QueueCtl) : Bool := q.qrst || decide (q.holdW ≠ 0)
def QueueCtl.heldR (q : QueueCtl) : Bool := q.qrst || decide (q.holdR ≠ 0)

/-- ECC mode has both ports at width 72, whatever the image sets (R87). -/
def cfgShift (c : BramCfg) : BramSide → Nat
  | .a => if c.ecc then 0 else c.shiftA
  | .b => if c.ecc then 0 else c.shiftB

/-- The depth of a queue (R82, R94). -/
def Dev.queueDepth (d : Dev) (n m : Nat) : Nat := 512 * 2 ^ cfgShift (d.bramCfg n m) .a

/-- FULL, EMPTY, ALMOST_FULL and ALMOST_EMPTY (R94, R98). -/
def Dev.queueFull (d : Dev) (n m : Nat) : Bool :=
  (d.queue n m).heldW || decide (d.queueDepth n m ≤ (d.queue n m).wlevel)
def Dev.queueEmpty (d : Dev) (n m : Nat) : Bool := (d.queue n m).heldR || decide ((d.queue n m).rlevel = 0)
def Dev.almostFull (d : Dev) (n m : Nat) : Bool := decide ((d.bramCfg n m).afThreshold ≤ (d.queue n m).wlevel)
def Dev.almostEmpty (d : Dev) (n m : Nat) : Bool := decide ((d.queue n m).rlevel ≤ (d.bramCfg n m).aeThreshold)

/-- An edge of the clock where the crossings were made, and one of the other clock: there a crossing arrives at the latest
with its last cycle, and the oldest may arrive earlier (R97). -/
def crossOwn (xs : List (Nat × Nat)) : List (Nat × Nat) := xs.map (fun x => (x.1 - 1, x.2))

def crossOther (early : Bool) (xs : List (Nat × Nat)) : List (Nat × Nat) :=
  let ys := (xs.map (fun x => if x.1 = 0 then (0, x.2 - 1) else x)).dropWhile (fun x => decide (x.2 = 0))
  if early then ys.drop 1 else ys

/-- One edge of a side's clock at a queue controller. -/
def QueueCtl.edge (q : QueueCtl) (side : BramSide) (early : Bool) : QueueCtl :=
  match side with
  | .a => { q with toRead := crossOwn q.toRead, toWrite := crossOther early q.toWrite, holdW := if q.qrst then q.holdW else q.holdW - 1 }
  | .b => { q with toWrite := crossOwn q.toWrite, toRead := crossOther early q.toRead, holdR := if q.qrst then q.holdR else q.holdR - 1 }

/-- The same for the device; whether a crossing arrives before its last cycle is free. -/
def Dev.queueEdge (d : Dev) (n m : Nat) (side : BramSide) : Dev :=
  let q := d.queue n m
  if q.toRead = [] ∧ q.toWrite = [] then d.setQueue n m (q.edge side false)
  else d.freeNext.setQueue n m (q.edge side (bit (d.freeVal 1) 0))

/-! ## The level of a signal -/

/-- Taps of a line that contention has latched disabled (R66). -/
def Dev.tapLatched (d : Dev) (line p : Nat) : Bool :=
  if line < 65536 then bit (mget (fun _ => 0) d.logic.glineLatched line) p
  else bit (mget (fun _ => 0) d.logic.clineLatched (line - 65536)) p

/-- Enable and data of a tap as user logic drives them, where `ev` gives the level of a signal of a region. -/
def tapDriven (t : TapCfg) (ev : Sig → Bool) : Bool × Bool :=
  match t.mode with
  | .off => (false, false)
  | .steady => (true, ev t.data)
  | .dynamic => (ev t.enable, ev t.data)

/-- Enable and data of a tap at its line: latched disabled by contention, or held by the freeze latches of its region
(R64, R66, R74). -/
def Dev.tapNow (d : Dev) (ev : Nat → Sig → Bool) (line p : Nat) : Bool × Bool :=
  if d.tapLatched line p then (false, false)
  else if line < 65536 then tapDriven (d.tapCfg line p) (ev (line / 4096))
  else if !d.frozen p then tapDriven (d.tapCfg line p) (ev p)
  else
    let held := mget (fun _ => (false, false)) d.logic.heldTaps (line * 16 + p)
    match mget (fun _ => Hold.last) d.logic.tapHolds (line * 16 + p) with
    | .last => held
    | .zero => (false, held.2)
    | .one => (decide ((d.tapCfg line p).mode ≠ .off), held.2)

/-- Contention has latched taps of the line disabled (R66). -/
def Dev.lineLatched (d : Dev) (line : Nat) : Bool :=
  if line < 65536 then decide (mget (fun _ => 0) d.logic.glineLatched line ≠ 0)
  else decide (mget (fun _ => 0) d.logic.clineLatched (line - 65536) ≠ 0)

/-- The tap positions of a line: 16 of a region-wide line, 12 of a chip-wide one (R62). -/
def tapPlaces (line : Nat) : Nat := if line < 65536 then 16 else 12

/-- The level of a line: an enabled tap drives it, and a keeper holds it where none is enabled (R63). After contention it
stays low until its taps are released (R66). While several enabled taps contend and the comparator's event has not come,
the level is that of the lowest-numbered of them (DESIGN CHOICE, log 59: R66 states none). -/
def Dev.lineNow (d : Dev) (ev : Nat → Sig → Bool) (line : Nat) : Bool :=
  if d.lineLatched line then false else
  match (List.range (tapPlaces line)).find? (fun p => (d.tapNow ev line p).1) with
  | some p => (d.tapNow ev line p).2
  | none => mget (fun _ => false) d.logic.lines line

/-- The chain input of a block; a chain does not cross a cluster boundary (R57). -/
def Dev.chainIn (d : Dev) (ev : Sig → Bool) (n b : Nat) : Bool :=
  match mget (fun _ => ChainIn.driven (.const false)) d.logic.chains (n * 5000 + b) with
  | .driven s => ev s
  | .previous => if b % 20 = 0 then false else ev (.cell (16 * b - 1) .co)

/-- The outputs of a LUT in its mode: bits 31 to 0 of the LUT give LA, bits 63 to 32 LB. None where the mode has no such
output (R55). -/
def lutOut (g : CellCfg) (ins : Nat) : CellOut → Option Bool
  | .lf => if g.shift || g.dual then none else some (bit g.table (ins % 64))
  | .la => if !g.shift && g.dual then some (bit g.table (ins % 32)) else none
  | .lb => if !g.shift && g.dual then some (bit g.table (32 + ins % 32)) else none
  | _ => none

/-- An output of a cell (R55 to R59); one that the cell's mode does not have is free. -/
def Dev.cellNow (d : Dev) (ev : Sig → Bool) (n c : Nat) (o : CellOut) : Bool :=
  let g := d.cellCfg n c
  let ins := bitsOf 6 (fun i => ev (g.ins.getD i (.const false)))
  match o with
  | .ffa => d.ff n c false
  | .ffb => d.ff n c true
  | .q => bit (d.srl n c) ins
  | .q63 => bit (d.srl n c) 63
  | .co =>
    let ci := if c % 16 = 0 then d.chainIn ev n (c / 16) else ev (.cell (c - 1) .co)
    let x : BitVec 6 := BitVec.ofNat 6 ins
    Config.carryOut g.table true x (Config.carryOut g.table false x ci)
  | o => (lutOut g ins o).getD (bit (d.freeVal 1) 0)

def Dev.memOut (d : Dev) (n m : Nat) (p : BramSide) : MemOut → Bool
  | .dout k => bit (d.bramPort n m p).now.dout k
  | .busy => (d.bramPort n m p).now.busy
  | .corr => (d.bramPort n m p).now.corr
  | .uncorr => (d.bramPort n m p).now.uncorr

def Dev.queueOut (d : Dev) (n m : Nat) : QueueOut → Bool
  | .full => d.queueFull n m
  | .almostFull => d.almostFull n m
  | .overflow => (d.queue n m).overflow
  | .wlevel k => (d.queue n m).wlevel.testBit k
  | .empty => d.queueEmpty n m
  | .almostEmpty => d.almostEmpty n m
  | .underflow => (d.queue n m).underflow
  | .rlevel k => (d.queue n m).rlevel.testBit k

/-- GPIO_IRQ[i] of a region follows the status bit of its pin i while that is routed to it (R594). -/
def Dev.irqNow (d : Dev) (n i : Nat) : Bool :=
  let p := pinOf n i
  d.rbit (gpioStatus (p / 16)) (p % 16) && decide (d.fld (gpioRoute p) 30 2 = 2)

/-- Numbers of the signals, under which a level that no rule states is free. -/
def rxCode : RxOut → Nat
  | .valid => 0
  | .som => 1
  | .eom => 2
  | .err => 3
  | .acc => 4
  | .data k => 8 * k + 8
  | .flow k => 8 * k + 9
  | .src k => 8 * k + 10
  | .bytes k => 8 * k + 11
  | .cls k => 8 * k + 12
  | .aspace k => 8 * k + 13

def dispCode : DispOut → Nat
  | .callReady => 0
  | .resValid => 1
  | .pfValid => 2
  | .preempt => 3
  | .resCode k => 4 * k + 4
  | .resHandle k => 4 * k + 5
  | .resCookie k => 4 * k + 6
  | .resAux k => 4 * k + 7

/-- An RX_ signal of a cell (R133). -/
def rxBit (c : Cell) : RxOut → Bool
  | .valid => true
  | .som => c.som
  | .eom => c.eom
  | .err => c.err
  | .acc => c.acc
  | .data k => bit (c.payload.getD (k / 8) 0) (k % 8)
  | .flow k => bit c.flow k
  | .src k => bit c.src k
  | .bytes k => bit c.bytes k
  | .cls k => bit c.cls k
  | .aspace k => bit c.aspace k

/-- The endpoint of side A or B of a region (R117). -/
def sideEp (n : Nat) (side : Bool) : Nat := 16 + 2 * n + b2n side

/-- An RX_ signal at a side of a region: of the cell presented, if one is (R133, R134). -/
def Dev.rxNow (d : Dev) (n : Nat) (side : Bool) (o : RxOut) : Bool :=
  match d.rxCells (sideEp n side) with
  | c :: _ => rxBit c o
  | [] => if o = .valid then false else Config.ifaceLevel n (3 * (2 * rxCode o + b2n side) + 1) d.time.uptime

/-- The dispatch port in a slot of region n's record (R300, R450). -/
def Dev.slotPort (d : Dev) (n slot : Nat) : Option Nat :=
  let b := getLE 1 (d.recOf n) (0x40 + slot)
  if 128 ≤ b ∧ d.portRegion (b % 32) = some n then some (b % 32) else none

/-- CALL_READY: the port has no call outstanding, a TAKE_NEXT without a thread or a CREATE that waits for a spill (R453). -/
def Dev.callReady (d : Dev) (p : Nat) : Bool :=
  d.online p && !(d.dport p).takeNext && !d.sched.waitingCreates.any (fun a => decide (a.caller = .port (Fin.ofNat 32 p)))

/-- A signal that the scheduler drives at a port (R452). -/
def Dev.dispBit (d : Dev) (p : Nat) : DispOut → Bool
  | .callReady => d.callReady p
  | .resValid => (d.dport p).resValid
  | .resCode k => bit (d.dport p).resCode k
  | .resHandle k => bit (d.dport p).resHandle k
  | .resCookie k => bit (d.dport p).resCookie k
  | .resAux k => bit (d.dport p).resAux k
  | .pfValid => (d.prefetch p).isSome
  | .preempt => d.preempt p

def Dev.dispNow (d : Dev) (n slot : Nat) (o : DispOut) : Bool :=
  match d.slotPort n slot with
  | some p => d.dispBit p o
  | none => Config.ifaceLevel n (3 * (8 * dispCode o + slot) + 2) d.time.uptime

/-- TX_READY: the ingress queue has room (R124). -/
def Dev.txReady (d : Dev) (e : Nat) : Bool := decide ((d.ing e).queue.length < ingressDepth)

/-- The flow that a side queried at the latest edge (R132). -/
def Dev.queried (d : Dev) (n : Nat) (side : Bool) : Nat := (mget (fun _ => 0) d.logic.qflow (n * 2 + b2n side)).toNat

/-- The level of a signal, where `ev` gives the level of the signals behind it. -/
def Dev.sigStep (d : Dev) (ev : Nat → Sig → Bool) (n : Nat) : Sig → Bool
  | .const b => b
  | .cell c o => d.cellNow (ev n) n c o
  | .line l => d.lineNow ev (lineKey n l)
  | .chipLine l => d.lineNow ev (chipLineKey l)
  | .mem m p o => d.memOut n m p o
  | .queue m o => d.queueOut n m o
  | .pOut b k => bit (d.acc n b).acc k
  | .ovf b => (d.acc n b).ovf
  | .pin i fall => if fall then (d.ioReg n i).q2 else (d.ioReg n i).q1
  | .irq i => d.irqNow n i
  | .txReady side => d.txReady (sideEp n side)
  | .txQready side => d.txQready (sideEp n side) (d.queried n side)
  | .rx side o => d.rxNow n side o
  | .disp slot o => d.dispNow n slot o
  | .iface k => Config.ifaceLevel n (3 * k) d.time.uptime

/-- The level of a signal of region n through at most `fuel` cells and lines. A loop without a register has no stated
level: it is free. -/
def Dev.sigAt (d : Dev) : Nat → Nat → Sig → Bool
  | 0, _, _ => bit (d.freeVal 1) 0
  | fuel + 1, n, s => d.sigStep (d.sigAt fuel) n s

/-- More cells and lines than a path without a loop can pass (R107). -/
def netDepth : Nat := 4000000

def Dev.sig (d : Dev) (n : Nat) (s : Sig) : Bool := d.sigAt netDepth n s

/-! ## Clock gates and reset nets (R69 to R72, R113) -/

/-- Uptime in ns. -/
def Dev.upNs (d : Dev) : Nat := d.time.uptime.toNat / 2 ^ 32

/-- `k` cycles of HCLK, at its nominal 5 ns, have passed since the last freeze reason of a region that thaws (R78). -/
def Dev.thawing (d : Dev) (n k : Nat) : Bool :=
  match mget (fun _ => 0) d.logic.thawAt n with
  | 0 => false
  | u + 1 => decide (u + 5 * k ≤ d.upNs)

/-- The gate of a tree in region n lets the next rising edge through: no freeze, or step 2 of the thaw; GATE is 0; and user
logic does not drive its enable to 0 (R71, R78, R113). A clock that no tree is connected to has no edge. -/
def Dev.gateOpen (d : Dev) (n : Nat) : Option (Fin 16) → Bool
  | none => false
  | some t => (!d.frozen n || d.thawing n 16) && !d.rbit (rgnClkGate n) t.val &&
      d.sig n ((d.rgnCfg n).gates.getD t.val (.const true))

/-- The gate was open at the latest rising edge of the tree: it stays so through the high phase (R71). -/
def Dev.gateWasOpen (d : Dev) (n t : Nat) : Bool := mget (fun _ => false) d.logic.gateHigh (n * 16 + t)

/-- The region holds a complete image (R110). -/
def Dev.imageLoaded (d : Dev) (n : Nat) : Bool := d.rbit (rgnStatus n) 8

/-- A region's global reset driver through its freeze latch (R72, R74). -/
def Dev.driverNow (d : Dev) (n : Nat) : Bool :=
  if !d.frozen n then d.sig n (d.rgnCfg n).driver
  else match (d.rgnCfg n).driverHold with
    | .last => bit d.logic.heldDriver n
    | .zero => false
    | .one => true

/-- A pin as its input buffer sees it: 0 while its bank is unpowered (R617). -/
def pinBank (p : Nat) : Nat := if p < 192 then p / 48 else 4 + (p - 192) / 24
def Dev.pinUnpowered (d : Dev) (p : Nat) : Bool := bit d.power.vccioOff (pinBank p)
def Dev.padIn (d : Dev) (p : Nat) : Bool := bit d.pins.pad p && !d.pinUnpowered p

/-- GRST0 to GRST3 (R72). -/
def Dev.grst (d : Dev) (k : Nat) : Bool :=
  match mget (fun _ => NetSrc.none) d.logic.nets k with
  | .none => false
  | .pin p => d.padIn p
  | .driver n => d.driverNow n

/-! ## Flip-flops (R56, R79) -/

def Dev.ffReset (d : Dev) (n : Nat) (x : FFCfg) : Bool :=
  match x.reset with
  | .routed s => d.sig n s
  | .net k => d.grst k

/-- D of a flip-flop of cell c. -/
def Dev.ffD (d : Dev) (n c : Nat) (x : FFCfg) : Bool :=
  match x.src with
  | .lf => d.sig n (.cell c .lf)
  | .la => d.sig n (.cell c .la)
  | .lb => d.sig n (.cell c .lb)
  | .direct => d.sig n x.direct

/-- A flip-flop after an edge of its clock: reset wins over D, which CE lets in. A synchronous reset acts whatever CE is
(DESIGN CHOICE, log 59: R56 does not say). -/
def Dev.ffNext (d : Dev) (n c : Nat) (x : FFCfg) (old : Bool) : Bool :=
  if d.ffReset n x then false else if d.sig n x.ce then d.ffD n c x else old

/-- Edges of a tree for which flip-flops of the region stay in reset (R79). -/
def Dev.treeHeld (d : Dev) (n t : Nat) : Nat := mget (fun _ => 0) d.logic.treeHold (n * 16 + t)

/-- The flip-flops on a tree are in reset (R78, R79). -/
def Dev.heldOn (d : Dev) (n : Nat) : Option (Fin 16) → Bool
  | none => true
  | some t => decide (d.treeHeld n t.val ≠ 0)

/-- The two flip-flops of a cell at an edge of its clock, with their keys. -/
def Dev.cellFfs (d : Dev) (k : Nat) (g : CellCfg) : List (Nat × Bool) :=
  let n := k / 80000
  let c := k % 80000
  if !d.gateOpen n g.tree || d.heldOn n g.tree then []
  else [(ffKey n c false, d.ffNext n c g.ffa (d.ff n c false)), (ffKey n c true, d.ffNext n c g.ffb (d.ff n c true))]

/-- Asynchronous resets (R56): the keys of the flip-flops that one holds at 0. -/
def Dev.asyncOff (d : Dev) : List Nat :=
  d.logic.cells.flatMap (fun e =>
    let n := e.1 / 80000
    let c := e.1 % 80000
    (if e.2.ffa.async && d.ffReset n e.2.ffa then [ffKey n c false] else []) ++
    (if e.2.ffb.async && d.ffReset n e.2.ffb then [ffKey n c true] else []))

/-! ## I/O cells (R103) -/

/-- An I/O cell at a rising or a falling edge of its clock. -/
def Dev.ioNext (d : Dev) (n i : Nat) (rise : Bool) : IoRegs :=
  let g := d.ioCfg n i
  let x := d.ioReg n i
  let pad := d.padIn (pinOf n i)
  if rise then
    { capRise := pad, capFall := x.capFall,
      q1 := if g.ddrIn then x.capRise else pad, q2 := if g.ddrIn then x.capFall else x.q2,
      o1 := d.sig n g.rise, o2 := d.sig n g.fall, oe := d.sig n g.oe, high := true }
  else { x with capFall := pad, high := false }

/-- What an I/O cell drives: high impedance, or a level. -/
def Dev.ioOut (d : Dev) (n i : Nat) : Option Bool :=
  let x := d.ioReg n i
  if x.oe then some (if (d.ioCfg n i).ddrOut && !x.high then x.o2 else x.o1) else none

/-! ## The edges of one TCLK cycle -/

/-- What a tree does in one cycle: no edge, a rising edge, a falling edge. -/
inductive Edge where
  | none
  | rise
  | fall
  deriving DecidableEq, Repr

/-- Edges of a clock whose period is `p` ns, over uptimes in units of 2⁻³² ns. -/
def edgeOf (p : Nat) (t u : Nat) : Edge :=
  let q := p * 2 ^ 32
  if t / q < u / q then .rise else if (t + q / 2) / q < (u + q / 2) / q then .fall else .none

/-- A lane clock that a tree takes runs: the transmit clock with its PLL locked and not shed, the recovered clock with
CDR_LOCK (R70's caution). -/
def Dev.laneClock (d : Dev) (n : Nat) (tx : Bool) : Bool :=
  if tx then d.rbit (sdsStatus n) 29 && !bit d.serial.txShed n else d.rbit (sdsStatus n) 28

/-- The half periods that a lane clock has run, modulo 16 (key lane × 2, plus 1 for the recovered clock). The clock divided
by 2^k has the level of bit k (R69). -/
def Dev.laneHalf (d : Dev) (k : Nat) : Nat := mget (fun _ => 0) d.logic.laneHalf k

/-- The lane clocks that some tree takes, each once. -/
def Dev.laneSources (d : Dev) : List Nat :=
  ((d.logic.trees.filterMap (fun e => match e.2 with
    | .laneTx n _ => some (2 * n.val)
    | .laneRx n _ => some (2 * n.val + 1)
    | _ => none))).eraseDups

/-- A lane clock that runs goes on by half a period or not, which is free; every tree that takes it sees the same (R69). -/
def Dev.laneTick (d : Dev) (k : Nat) : Dev :=
  if d.laneClock (k / 2) (decide (k % 2 = 0)) then
    { d.freeNext with logic := { d.logic with
      laneHalf := mset (fun _ => 0) d.logic.laneHalf k ((d.laneHalf k + (d.freeVal 1).toNat) % 16) } }
  else d

def Dev.laneTicks (d : Dev) : Dev := d.forEach d.laneSources Dev.laneTick

/-- The edge between two levels. -/
def levelEdge (was is_ : Bool) : Edge := if was = is_ then .none else if is_ then .rise else .fall

/-- The edge of tree t between two states of one cycle, before and after. A tree from a pin follows the pad of GCk, user pin
12k (R69, R580). -/
def treeEdge (was is_ : Dev) (t : Nat) : Edge :=
  let lane (k div : Nat) : Edge := levelEdge ((was.laneHalf k).testBit div) ((is_.laneHalf k).testBit div)
  match mget (fun _ => TreeSrc.none) is_.logic.trees t with
  | .none => .none
  | .fclk4 => edgeOf 4 was.time.uptime.toNat is_.time.uptime.toNat
  | .fclk8 => edgeOf 8 was.time.uptime.toNat is_.time.uptime.toNat
  | .pin k => levelEdge (bit was.logic.treeLevel t) (is_.padIn (12 * k.val))
  | .laneTx n div => lane (2 * n.val) div.val
  | .laneRx n div => lane (2 * n.val + 1) div.val

/-- The edges of the 16 trees, and behind them that of FCLK/4, which an endpoint may take (R120). -/
def treeEdges (was is_ : Dev) : List Edge :=
  (List.range 16).map (treeEdge was is_) ++ [edgeOf 4 was.time.uptime.toNat is_.time.uptime.toNat]

/-- A tree is running: it has toggled within the last 1 µs (R79). -/
def Dev.treeRuns (d : Dev) (t : Nat) : Bool :=
  match mget (fun _ => 0) d.logic.treeSeen t with
  | 0 => false
  | u + 1 => decide (d.upNs ≤ u + 1000)

/-- CLOCK_A or CLOCK_B of a region: 0x00 to 0x0F a tree, 0x10 FCLK/4 (R300). -/
def Dev.sideClock (d : Dev) (n : Nat) (side : Bool) : Nat := getLE 1 (d.recOf n) (0x3B + b2n side)

/-- The region uses a tree: the image connects it to a clock input there, a cell's, a memory port's, an arithmetic block's, an
I/O cell's, or that of an endpoint or dispatch port interface (R79, R300, R450). -/
def Dev.usesTree (d : Dev) (n t : Nat) : Bool :=
  let on (x : Option (Fin 16)) : Bool := decide (x.map Fin.val = some t)
  d.logic.cells.any (fun e => decide (e.1 / 80000 = n) && on e.2.tree) ||
  d.logic.ios.any (fun e => decide (e.1 / 20 = n) && on e.2.tree) ||
  d.logic.bramCfg.any (fun e => decide (e.1 / 240 = n) && (on e.2.treeA || on e.2.treeB)) ||
  d.logic.arithCfg.any (fun e => decide (e.1 / 320 = n) && on e.2.tree) ||
  (d.imageLoaded n && (decide (d.sideClock n false = t) || decide (d.sideClock n true = t)))

/-- One edge less to wait for the flip-flops that a tree's start releases (R78, R79). -/
def Dev.countHold (d : Dev) (n t : Nat) : Dev :=
  { d with logic := { d.logic with treeHold := mset (fun _ => 0) d.logic.treeHold (n * 16 + t) (d.treeHeld n t - 1) } }

/-- A line takes the level that it has now (R63). -/
def Dev.settleLine (d : Dev) (line : Nat) : Dev :=
  { d with logic := { d.logic with lines := mset (fun _ => false) d.logic.lines line (d.lineNow d.sig line) } }

/-- The lines that have a tap, each once. -/
def Dev.tappedLines (d : Dev) : List Nat := (d.logic.taps.map (fun e => e.1 / 16)).eraseDups

/-- Tree t rises: it is seen, its gates are fixed for its high phase (R71), and a region out of freeze, or that thaws, has one
edge less to wait (R78, R79). -/
def Dev.treeRise (d : Dev) (gates : List (Nat × Bool)) (t : Nat) : Dev :=
  let d := { d with logic := { d.logic with
    treeSeen := mset (fun _ => 0) d.logic.treeSeen t (d.upNs + 1),
    gateHigh := gates.foldl (fun m (x : Nat × Bool) => mset (fun _ => false) m (x.1 * 16 + t) x.2) d.logic.gateHigh } }
  d.forEach ((List.range 12).filter (fun n => (!d.frozen n || d.thawing n 1) && decide (d.treeHeld n t ≠ 0)))
    (fun d n => d.countHold n t)

/-- An edge of the clock of a side of region n: what was presented has been sampled, so that the strobes RX_VALID and, at
side A, RES_VALID end (R134, R452, R453), and TX_QFLOW is taken (R132). -/
def Dev.sideEdge (d : Dev) (x : Nat × Bool × BitVec 12) : Dev :=
  let d := d.setRx (sideEp x.1 x.2.1) []
  let d := { d with logic := { d.logic with
    qflow := mset (fun _ => 0) d.logic.qflow (x.1 * 2 + b2n x.2.1) x.2.2 } }
  d.cond (!x.2.1) (fun d => d.forEach (d.regionPorts x.1) (fun d p => d.setDport p { d.dport p with resValid := false }))

/-- The flow that a side presents on TX_QFLOW. -/
def Dev.qflowNow (d : Dev) (n : Nat) (side : Bool) : BitVec 12 :=
  let xs := if side then (d.rgnCfg n).qflowB else (d.rgnCfg n).qflowA
  BitVec.ofNat 12 (bitsOf 12 (fun i => d.sig n (xs.getD i (.const false))))

/-- The edges of one cycle reach the logic: flip-flops outside shift-register mode, I/O cells and queue sides, all from the
levels before the edge; then asynchronous resets and the lines. An I/O cell's falling edge is that of a high phase which its
gate let begin (R71). Shift registers, block memories and arithmetic blocks have commands of their own. -/
def Dev.clockLogic (d : Dev) (es : List Edge) : Dev :=
  let at_ (t : Nat) : Edge := es.getD t .none
  let rises (t : Nat) : Bool := decide (at_ t = .rise)
  let treeRises (t : Option (Fin 16)) : Bool := (t.map (fun t => rises t.val)).getD false
  let ffs := d.logic.cells.flatMap (fun e => if !e.2.shift && treeRises e.2.tree then d.cellFfs e.1 e.2 else [])
  let ios := d.logic.ios.filterMap (fun e =>
    let n := e.1 / 20
    match e.2.tree with
    | none => none
    | some t =>
      match at_ t.val with
      | .none => none
      | .rise => if d.gateOpen n (some t) then some (n, e.1 % 20, d.ioNext n (e.1 % 20) true) else none
      | .fall => if d.gateWasOpen n t.val then some (n, e.1 % 20, d.ioNext n (e.1 % 20) false) else none)
  let sides := d.logic.bramCfg.flatMap (fun e =>
    let n := e.1 / 240
    if e.2.queue then
      (if treeRises e.2.treeA && d.gateOpen n e.2.treeA then [(n, e.1 % 240, BramSide.a)] else []) ++
      (if treeRises e.2.treeB && d.gateOpen n e.2.treeB then [(n, e.1 % 240, BramSide.b)] else [])
    else [])
  let eps := (List.range 12).flatMap (fun n => [false, true].filterMap (fun b =>
    if d.imageLoaded n && rises (d.sideClock n b) then some (n, b, d.qflowNow n b) else none))
  let gates (t : Nat) : List (Nat × Bool) := (List.range 12).map (fun n => (n, d.gateOpen n (some (Fin.ofNat 16 t))))
  let falls := (List.range 16).filter (fun t => decide (at_ t = .fall))
  let rs := (List.range 16).filter rises
  let d1 := d.forEach ffs (fun d x => d.setFf x.1 x.2)
  let d1 := d1.forEach ios (fun d x => d.setIoReg x.1 x.2.1 x.2.2)
  let d1 := d1.forEach sides (fun d x => d.queueEdge x.1 x.2.1 x.2.2)
  let d1 := d1.forEach eps Dev.sideEdge
  let d1 := d1.forEach rs (fun d1 t => d1.treeRise (gates t) t)
  let level := rs.foldl (fun w t => setBit w t true) (falls.foldl (fun w t => setBit w t false) d1.logic.treeLevel)
  let d1 := { d1 with logic := { d1.logic with treeLevel := level } }
  let d1 := d1.forEach d1.asyncOff (fun d k => d.setFf k false)
  d1.forEach d1.tappedLines Dev.settleLine

/-! ## What the freeze latches take (R73, R74, R77) -/

/-- A level or high impedance as the latch of a pin holds it. -/
def pinCode : Option Bool → Nat
  | none => 0
  | some false => 1
  | some true => 2

def codePin : Nat → Option Bool
  | 1 => some false
  | 2 => some true
  | _ => none

/-- The freeze state of pin i of a region (R300): last value, high impedance, 0 or 1. -/
def Dev.pinFreeze (d : Dev) (n i : Nat) : Nat := getLE 5 (d.recOf n) 0x6A / 2 ^ (2 * i) % 4

/-- A pin of a frozen region (R74). -/
def Dev.frozenPin (d : Dev) (n i : Nat) : Option Bool :=
  match d.pinFreeze n i with
  | 0 => codePin (mget (fun _ => 0) d.logic.heldPins (ioKey n i))
  | 1 => none
  | 2 => some false
  | _ => some true

/-- Keys of a region in the maps of its logic: the key divided by the number of items per region. -/
def ofRegion (per n k : Nat) : Bool := decide (k / per = n)

/-- The flip-flops of a region in reset (R77, R80). -/
def Dev.resetFfs (d : Dev) (n : Nat) : Dev :=
  { d with logic := { d.logic with ffs := mdrop (ofRegion 160000 n) d.logic.ffs } }

/-- Steps 1 and 2 of a freeze: the latches take what the region drives, and its flip-flops go to reset. The device is the
one before FROZEN is set. -/
def Dev.latchFreeze (d : Dev) (n : Nat) : Dev :=
  let lines := (List.range 128).filter (fun l => decide ((d.tapCfg (chipLineKey l) n).mode ≠ .off))
  let taps := lines.foldl (fun m l =>
    mset (fun _ => (false, false)) m (chipLineKey l * 16 + n) (tapDriven (d.tapCfg (chipLineKey l) n) (d.sig n))) d.logic.heldTaps
  let pins := (List.range 20).foldl (fun m i => mset (fun _ => 0) m (ioKey n i) (pinCode (d.ioOut n i))) d.logic.heldPins
  { d with logic := { d.logic with heldTaps := taps, heldPins := pins,
                                   heldDriver := setBit d.logic.heldDriver n (d.sig n (d.rgnCfg n).driver) } }.resetFfs n

end Sys2Proof.Machine
end

