-- ==== Sys2Proof/Machine/SpillOps.lean ====
section
/-! DEFINITION. The scheduler's spill area as shared operations: thread records as bytes, what is spilled and refilled, and
the requests for it (R445, R463 to R466). -/
namespace Sys2Proof.Machine

/-! ## The record as software sees it (R445, R473) -/

def ThreadState.code : ThreadState → Nat
  | .free => 0
  | .ready => 1
  | .running => 2
  | .blocked => 3
  | .sleeping => 4

/-- The 32 bytes of a record. PORT before any dispatch and WAKE where none is set are not stated: free values. -/
def Thread.bytes (t : Thread) (i : Nat) (free : BitVec 64) (spilled : Bool) : List Byte :=
  let port := match t.port with
    | some p => p.val + 0x80
    | none => bits free 32 5
  let wake := match t.wake with
    | some w => w.toNat
    | none => bits free 0 32
  putLE 3 (handleOf i t).toNat ++ putLE 1 (t.state.code + 16 * t.result.toNat) ++
  putLE 1 (t.priority.toNat + 64 * b2n t.dl + 128 * b2n spilled) ++ putLE 1 (if spilled then 0 else port) ++
  putLE 2 (if t.state = .blocked then (match t.waitObj with | some e => e.val | none => 0xFFFF) else 0xFFFF) ++
  putLE 4 (if spilled then 0 else t.affinity.toNat) ++ putLE 4 (if spilled then 0 else t.deadline.toNat) ++
  putLE 8 (if spilled then 0 else t.cookie.toNat) ++ putLE 4 wake ++
  putLE 4 (if spilled then 0 else t.order.toNat)

/-! ## The spill area (R463 to R468) -/

def Dev.spillEn (d : Dev) : Bool := d.rbit schSpillCfg 31
def Dev.spillBank (d : Dev) : Nat := d.fld schSpillCfg 16 4
def Dev.spillSize (d : Dev) : Nat := d.fld schSpillCfg 8 5
def Dev.spillBase (d : Dev) : Nat := d.fld schSpillCfg 0 6
def Dev.writeFlow (d : Dev) : Nat := d.fld schSpillFlows 0 12
def Dev.replyFlow (d : Dev) : Nat := d.fld schSpillFlows 16 12
/-- SPILL_HALT and SPILL_CFG_ERR of SCH_STATUS (R471). -/
def spillHaltBit : Nat := 29
def spillErrBit : Nat := 28

/-- The spill capacity in records. -/
def Dev.spillCap (d : Dev) : Nat := if d.spillEn then d.spillSize * 2048 else 0

/-- The spill records that hold a thread, or that a spill in progress writes. -/
def Dev.slotUsed (d : Dev) (k : Nat) : Bool :=
  d.inUse.any (fun i => decide ((d.thread i).spill = some k)) ||
  (match d.sched.job with
   | some (.spill _ j) => decide (j = k)
   | _ => false)

/-- The physical bank that holds the spill area is in service. -/
def Dev.spillUp (d : Dev) : Bool := d.inService (d.physOf d.spillBank)

/-- The first value from a start that the spec leaves open, cyclically, for which `p` holds. -/
def pickFrom (start n : Nat) (p : Nat → Bool) : Option Nat :=
  (List.range n).findSome? (fun k => if p ((start + k) % n) then some ((start + k) % n) else none)

/-- A free spill record; which one is open. -/
def Dev.pickSlot (d : Dev) : Option Nat := pickFrom (d.freeVal 16).toNat d.spillCap (fun k => !d.slotUsed k)

/-- A thread is shown in some prefetch slot. -/
def Dev.prefetched (d : Dev) (i : Nat) : Bool := (List.range 32).any (fun p => decide (d.prefetch p = some i))

/-- `a` is spilled rather than `b` (R465). -/
def Thread.spillsBefore (a b : Thread) : Bool :=
  if a.priority ≠ b.priority then decide (b.priority.toNat < a.priority.toNat)
  else if a.state ≠ .ready ∧ b.state = .ready then true
  else if a.state = .ready ∧ b.state ≠ .ready then false
  else if a.state = .ready then b.before a
  else laterSeq 32 a.order.toNat b.order.toNat

/-- The records that may be spilled: on chip, not RUNNING, in no prefetch slot. -/
def Dev.spillable (d : Dev) : List Nat :=
  d.inUse.filter (fun i =>
    let t := d.thread i
    decide (t.spill = none) && decide (t.state ≠ .running) && !d.prefetched i)

def Dev.victim (d : Dev) : Option Nat := d.bestStated Thread.spillsBefore d.spillable

/-- The physical address of spill record k (R463). -/
def Dev.spillAddr (d : Dev) (k : Nat) : Nat := d.spillBank * 0x400000 + d.spillBase * 65536 + 32 * k

/-- The request of the spill or refill in progress: data class, no translation; its TAG is the scheduler's to choose, a free
value. -/
def Dev.sendJob (d : Dev) : Dev :=
  let tag : BitVec 16 := d.freeVal 16
  let d := { d with sched := { d.sched with jobTag := tag } }
  match d.sched.job with
  | none => d
  | some (.spill i k) =>
    let t := d.thread i
    let h := memHeader 1 1 32 d.replyFlow tag.toNat (d.spillAddr k) 0 0
    let d := (d.sendMessage 51 d.writeFlow 2 0 (h ++ t.bytes i (d.freeVal 64) false)).freeNext
    d.setThread i { t with newOrder := false, newDeadline := false }
  | some (.refill _ k) =>
    (d.sendMessage 51 d.writeFlow 2 0 (memHeader 2 0 32 d.replyFlow tag.toNat (d.spillAddr k) 0 0)).freeNext

/-- A spill or refill of thread i begins. -/
def Dev.startJob (d : Dev) (i : Nat) (j : SpillJob) : Dev :=
  ({ d with sched := { d.sched with job := some j, jobGen := (d.thread i).gen } }).sendJob

/-- Starts to spill the record that R465 chooses. -/
def Dev.startSpill (d : Dev) (i : Nat) : Dev :=
  match d.pickSlot with
  | some k => d.freeNext.startJob i (.spill i k)
  | none => d

/-- A record can be spilled now: the area is enabled, in service, not halted and not full, and a record may go. -/
def Dev.canSpill (d : Dev) : Bool :=
  d.spillEn && d.spillUp && !d.rbit schStatus spillHaltBit && d.pickSlot.isSome && d.victim.isSome

/-- The records on chip (R464). -/
def onChipMax : Nat := 1024

/-- The spilled READY thread that is refilled next: lowest priority number, then the earliest spilled (R466). -/
def Dev.refillNext (d : Dev) : Option Nat :=
  d.bestBy (fun a b =>
      decide (a.priority.toNat < b.priority.toNat) || (decide (a.priority = b.priority) && decide (a.spillSeq < b.spillSeq)))
    (d.inUse.filter (fun i => decide ((d.thread i).spill ≠ none) && decide ((d.thread i).state = .ready)))

/-- What the scheduler starts for a spilled READY thread when no spill or refill is in progress (R466): a refill where an
on-chip record is free; a spill of the record that R465 chooses, where an on-chip READY thread has a numerically higher priority
than the spilled one and that record is not itself a READY thread of the same priority or a better one. -/
def Dev.balance (d : Dev) : Dev :=
  if d.sched.job.isSome || decide (d.sched.waitingCreates ≠ []) then d
  else match d.refillNext with
    | none => d
    | some i =>
      if d.onChip < onChipMax then d.startJob i (.refill i ((d.thread i).spill.getD 0))
      else match d.victim with
        | none => d
        | some v =>
          let worse (j : Nat) : Bool := decide ((d.thread i).priority.toNat < (d.thread j).priority.toNat)
          let better := d.inUse.any (fun j =>
            decide ((d.thread j).spill = none) && decide ((d.thread j).state = .ready) && worse j)
          if better && (decide ((d.thread v).state ≠ .ready) || worse v) && d.canSpill then d.startSpill v else d

/-- After a change of the threads or ports that refuses no CREATE: outstanding TAKE_NEXT calls, then spills and refills. -/
def Dev.schedSettle (d : Dev) : Dev := d.serveTakeNext.balance

end Sys2Proof.Machine
end

