-- ==== Sys2Proof/Machine/RegionOps.lean ====
section
/-! DEFINITION. Freeze and thaw of a region as shared operations (R75 to R80). -/
namespace Sys2Proof.Machine

/-- Bit numbers of the freeze reasons in RGN_STATUS (R110). -/
def rsnLogicFail : Nat := 0
def rsnCommand : Nat := 1
def rsnSelftest : Nat := 2
def rsnPolicy : Nat := 3
def rsnShed : Nat := 4
def rsnReconfig : Nat := 5
def rsnStart : Nat := 6

/-- The freeze reasons set in a region: bits [6:0] of RGN_STATUS. -/
def Dev.reasons (d : Dev) (n : Nat) : Nat := d.fld (rgnStatus n) 0 7

/-- FREEZE_ENTRY (R77): the freeze latches hold and the flip-flops go to reset; FROZEN, the entry's count and time; and
the region's dispatch ports (R461), after which another port's TAKE_NEXT may find a thread (R455); DMA requests outstanding to it count as answered (R496, R502). Its
gates close with FROZEN (R71). Where a thaw had begun and its latches have not opened
yet, they go on holding what they hold (R74, R78). -/
def Dev.freezeEntry (d : Dev) (n : Nat) : Dev :=
  let d := (if d.frozen n then d.resetFfs n else d.latchFreeze n).setRbit (rgnStatus n) 31 true
  let d := { d with logic := { d.logic with thawAt := mdel d.logic.thawAt n } }
  let d := d.count (rgnFreezeCount n)
  let d := d.setReg (rgnFreezeTime n) (BitVec.ofNat 32 d.ns.toNat)
  let d := d.setReg (rgnFreezeTime n + 4) (BitVec.ofNat 32 (d.ns.toNat / 2 ^ 32))
  (d.freezePorts n).schedSettle.dmaSuspendAll

/-- A freeze reason is set; the first one freezes the region (R75, R76). -/
def Dev.setReason (d : Dev) (n rsn : Nat) : Dev :=
  let first := decide (d.reasons n = 0)
  let d := d.setRbit (rgnStatus n) rsn true
  d.cond first (fun d => d.freezeEntry n)

/-- R80: every flip-flop, shift register, arithmetic block, I/O cell, block-memory output register and queue controller of
the region is cleared. -/
def Dev.clearUser (d : Dev) (n : Nat) : Dev :=
  let d := d.resetFfs n
  { d with logic := { d.logic with
      shiftRegs := mdrop (ofRegion 80000 n) d.logic.shiftRegs,
      arith := mdrop (ofRegion 320 n) d.logic.arith,
      ioRegs := mdrop (ofRegion 20 n) d.logic.ioRegs,
      bramPorts := mdrop (ofRegion 480 n) d.logic.bramPorts,
      writeback := mdrop (ofRegion 240 n) d.logic.writeback,
      queues := mdrop (ofRegion 240 n) d.logic.queues } }

/-- Step 1 of a thaw: the region's user state is cleared (R80), and its flip-flops stay in reset for 2 cycles of each tree
(R78). -/
def Dev.thawStart (d : Dev) (n : Nat) : Dev :=
  let d := d.clearUser n
  { d with logic := { d.logic with
      thawAt := mset (fun _ => 0) d.logic.thawAt n (d.upNs + 1),
      treeHold := mfill (fun _ => 0) d.logic.treeHold (n * 16) 16 (fun _ => 2) } }

/-- Freeze reasons are cleared. With the last one the region begins to thaw; the thaw ends with REGION_THAW_DONE
(R76, R78). -/
def Dev.clearReasons (d : Dev) (n : Nat) (rs : List Nat) : Dev :=
  let e := d.clearBits (rgnStatus n) rs
  if d.reasons n ≠ 0 ∧ e.reasons n = 0 ∧ d.frozen n then e.thawStart n else e

def Dev.clearReason (d : Dev) (n rsn : Nat) : Dev := d.clearReasons n [rsn]

/-- A thaw command clears COMMAND and POLICY and no other reason (R76, R111). -/
def Dev.thawCommand (d : Dev) (n : Nat) : Dev := d.clearReasons n [rsnCommand, rsnPolicy]


/-- R79: when the latches open, the flip-flops on every running tree have left reset; those on a tree that the region uses
and that does not run leave it at its second edge. -/
def Dev.holdStopped (d : Dev) (n : Nat) : Dev :=
  d.forEach (List.range 16) (fun d t =>
    let k := if d.usesTree n t && !d.treeRuns t then d.treeHeld n t else 0
    { d with logic := { d.logic with treeHold := mset (fun _ => 0) d.logic.treeHold (n * 16 + t) k } })

/-- The latched taps of region n's region-wide lines are released (R67). -/
def Dev.releaseTaps (d : Dev) (n : Nat) : Dev :=
  { d with logic := { d.logic with glineLatched := mdrop (ofRegion 4096 n) d.logic.glineLatched } }

end Sys2Proof.Machine
end

