-- ==== Sys2Proof/Machine/StoreOps.lean ====
section
/-! DEFINITION. The store as shared operations: partitions, the rotating window, code words, reads with their error
counts, the journal, and what a reset leaves of it (R362 to R392). -/
namespace Sys2Proof.Machine

/-! ## Partitions (R363, R364) -/

/-- First logical sector and sector count of a partition. -/
def partBase (p : Nat) : Nat := [0, 640, 1280, 1920, 2688, 2944, 3008].getD p 3040
def partCount (p : Nat) : Nat := [640, 640, 640, 768, 256, 64, 32].getD p 0

/-- The partition of a logical sector. -/
def partOf (l : Nat) : Nat :=
  if l < 640 then 0 else if l < 1280 then 1 else if l < 1920 then 2 else if l < 2688 then 3
  else if l < 2944 then 4 else if l < 3008 then 5 else 6

def sectorBytes : Nat := 65536
def sectorWords : Nat := 2048

/-- The code words of `len` bytes from byte offset `off` of partition p: logical sector and word. -/
def partWords (p off len : Nat) : List (Nat × Nat) :=
  (List.range ((len + off % 32 + 31) / 32)).map (fun i =>
    let o := off / 32 * 32 + 32 * i
    (partBase p + o / sectorBytes, o % sectorBytes / 32))

/-! ## The rotating window (R365, R366) -/

/-- The window position of a logical sector. -/
def StoreState.position (s : StoreState) (l : Nat) : Nat :=
  let p := (l + s.start) % 3040
  if s.gap ≤ p then p + 1 else p

/-- The logical sector at a position; none at the gap. -/
def StoreState.logical (s : StoreState) (p : Nat) : Option Nat :=
  if p = s.gap then none
  else
    let q := if s.gap < p then p - 1 else p
    some ((q + 3040 - s.start) % 3040)

/-- The physical sector of a position. -/
def StoreState.physAt (s : StoreState) (p : Nat) : Nat := mget (fun k => k) s.retired p

def StoreState.phys (s : StoreState) (l : Nat) : Nat := s.physAt (s.position l)

/-- The position that a physical sector holds; none for an unused or retired spare, and for a retired sector. -/
def StoreState.holds (s : StoreState) (ph : Nat) : Option Nat := (List.range 3041).find? (fun p => decide (s.physAt p = ph))

/-- The source position of the next gap move (R383). -/
def StoreState.moveSource (s : StoreState) : Nat := if s.gap = 0 then 3040 else s.gap - 1

/-- The spare that a retirement in the plane of `ph` takes (R366). -/
def StoreState.pickSpare (s : StoreState) (ph : Nat) : Option Nat :=
  let free := (List.range' 3041 31).filter (fun x => !s.usedSpares.contains x)
  match free.find? (fun x => decide (x % 16 = ph % 16)) with
  | some x => some x
  | none => free.head?

def StoreState.freeSpares (s : StoreState) : Nat := 31 - s.usedSpares.length

/-! ## Code words (R368, R369) -/

def nvKey (ph w : Nat) : Nat := ph * sectorWords + w

def StoreState.word (s : StoreState) (ph w : Nat) : NvWord := mget (fun _ => NvWord.blank) s.words (nvKey ph w)

def StoreState.setWord (s : StoreState) (ph w : Nat) (v : NvWord) : StoreState :=
  { s with words := mset (fun _ => NvWord.blank) s.words (nvKey ph w) v }

/-- The count that a read reports (R369). -/
def NvWord.count (w : NvWord) : Nat :=
  if 3 < w.errs then 0xF else if w.data.isNone then 4 else w.errs

def NvWord.isBlank (w : NvWord) : Bool := decide (w.count = 4)

/-- Programs a blank code word. Cells that have lost their 1 stay at 0, so between none and that many bits of the word
are wrong. -/
def Dev.programWord (d : Dev) (k : Nat) (v : BitVec 256) : Dev :=
  let e := (mget (fun _ => NvWord.blank) d.store.words k).errs
  let put (d : Dev) (n : Nat) : Dev :=
    { d with store := { d.store with words := mset (fun _ => NvWord.blank) d.store.words k { data := some v, errs := n } } }
  if e = 0 then put d 0 else put d.freeNext ((d.freeVal 16 : BitVec 16).toNat % (e + 1))

/-- Programs words of a physical sector. -/
def Dev.programWords (d : Dev) (ph : Nat) (ws : List (Nat × BitVec 256)) : Dev :=
  d.forEach ws (fun d w => d.programWord (nvKey ph w.1) w.2)

/-- The 32 bytes of a word that decodes; a blank word reads as 0xFF. -/
def NvWord.bytes (w : NvWord) : List Byte :=
  match w.data with
  | some v => putLE 32 v.toNat
  | none => List.replicate 32 0xFF

/-- Every word of a physical sector blank. -/
def StoreState.blankSector (s : StoreState) (ph : Nat) : StoreState :=
  { s with words := mdrop (fun k => decide (k / sectorWords = ph)) s.words }

def Dev.setStore (d : Dev) (s : StoreState) : Dev := { d with store := s }

/-- Bits that have drifted since the latest read: added to the words they fall in. -/
def StoreState.upset (s : StoreState) (us : List (Nat × Nat)) : StoreState :=
  us.foldl (fun s u =>
    let w := mget (fun _ => NvWord.blank) s.words u.1
    { s with words := mset (fun _ => NvWord.blank) s.words u.1 { w with errs := w.errs + u.2 } }) s

/-- The partition's warning threshold (R404). -/
def Dev.nvThresh (d : Dev) (p : Nat) : Nat := d.fld nvsThresh (2 * p) 2

/-- Queues a logical sector for refresh (R395): 64 entries, none twice. -/
def Dev.queueRefresh (d : Dev) (l : Nat) : Dev :=
  if d.store.refresh.contains l || decide (64 ≤ d.store.refresh.length) then d
  else d.setStore { d.store with refresh := d.store.refresh ++ [l] }

/-- An uncorrectable word: counted, recorded and escalated (R369). Of a physical sector that holds no logical sector, the
number that the record names is free. -/
def Dev.noteUncorr (d : Dev) (l : Option Nat) (ph w : Nat) : Dev :=
  let v := (d.freeVal 12 : BitVec 12).toNat
  let (d, n) := match l with
    | some l => (d, l)
    | none => (d.freeNext, v)
  let d := (d.count nvsUncorr).setReg nvsLastEcc (BitVec.ofNat 32 (0xC0000000 + n * 0x10000 + w))
  d.escalate clsNvs srcStore { region := none, unit := some (ph % 16), sub := none } (putLE 2 n ++ putLE 2 w)

/-- What one word's read records besides its data (R369, R370): corrected bits, the latest word to warn of, an
uncorrectable word's escalation, and the sector's refresh. -/
def Dev.noteWord (d : Dev) (l w : Nat) (x : NvWord) : Dev :=
  let c := x.count
  let t := d.nvThresh (partOf l)
  if c = 0xF then d.noteUncorr (some l) (d.store.phys l) w
  else if 1 ≤ c ∧ c ≤ 3 then
    let d := d.statUp nvsCorrBits c
    let warn := decide (t ≠ 0 ∧ t ≤ c)
    let d := d.cond warn (fun d => d.setReg nvsLastEcc (BitVec.ofNat 32 (0x80000000 + c * 0x10000000 + l * 0x10000 + w)))
    d.cond (warn || decide (c = 3)) (fun d => d.queueRefresh l)
  else d

/-- A word makes its read a warning read (R370). -/
def Dev.warns (d : Dev) (l : Nat) (x : NvWord) : Bool :=
  let c := x.count
  let t := d.nvThresh (partOf l)
  decide (1 ≤ c ∧ c ≤ 3 ∧ t ≠ 0 ∧ t ≤ c)

/-- Reads words: the device with what the read records, the words, and whether the read warns or met an uncorrectable
word (R370). -/
def Dev.readWords (d : Dev) (ws : List (Nat × Nat)) : Dev × List NvWord × Bool :=
  let xs := ws.map (fun p => d.store.word (d.store.phys p.1) p.2)
  let warn := (List.zip ws xs).any (fun p => d.warns p.1.1 p.2)
  let bad := xs.any (fun x => decide (x.count = 0xF))
  let d := d.forEach (List.zip ws xs) (fun d p => d.noteWord p.1.1 p.1.2 p.2)
  (d.cond warn (fun d => d.count nvsWarn), xs, warn || bad)

/-- The bytes of words as a host sees them: the bytes of an uncorrectable word are free values (R369). -/
def Dev.wordsBytes (d : Dev) (xs : List NvWord) : Dev × List Byte :=
  xs.foldl (fun (r : Dev × List Byte) x =>
    if x.count = 0xF then
      let v : BitVec 256 := r.1.freeVal 256
      (r.1.freeNext, r.2 ++ putLE 32 v.toNat)
    else (r.1, r.2 ++ x.bytes)) (d, [])

/-! ## The journal (R385 to R390) -/

/-- Causes of an erase (R386). -/
def erCommand : Nat := 0
def erStaging : Nat := 1
def erRecovery : Nat := 2
def erGap : Nat := 3
def erWipe : Nat := 4
def erRefresh : Nat := 5

/-- Words of a journal row (R385). -/
def rowWords : Nat := 8192

/-- The key of word w of a journal row, behind the physical sectors. -/
def jKey (row w : Nat) : Nat := 3072 * sectorWords + row * rowWords + w

/-- Bytes 0 to 27 of an entry (R386). -/
def JEntry.body (e : JEntry) : List Byte :=
  putLE 1 e.kind ++ [e.flags] ++ zeros 2 ++ putLE 4 e.jseq.toNat ++
  (List.range 4).flatMap (fun i => putLE 4 (e.args.getD i 0).toNat) ++ putLE 4 e.boot.toNat

/-- The code word of an entry: its bytes and their CRC-32C. -/
def JEntry.word (e : JEntry) : BitVec 256 :=
  BitVec.ofNat 256 (getLE 28 e.body 0 + crc32c e.body * 2 ^ 224)

/-- The entry that a word holds: none where the word does not decode, is blank, or its CRC does not match (R388). -/
def NvWord.entry (x : NvWord) : Option JEntry :=
  match x.data with
  | none => none
  | some v =>
    let bs := putLE 32 v.toNat
    if x.count ≤ 3 ∧ crc32c (bs.take 28) = getLE 4 bs 28 then
      some { kind := getLE 1 bs 0, flags := bs.getD 1 0, jseq := BitVec.ofNat 32 (getLE 4 bs 4),
             args := (List.range 4).map (fun i => BitVec.ofNat 32 (getLE 4 bs (8 + 4 * i))),
             boot := BitVec.ofNat 32 (getLE 4 bs 24) }
    else none

/-- Programs an entry at the next free word and reads it back; one that is not valid is programmed again at the word after
it (R388). It answers whether the entry stands valid. -/
def Dev.programEntry (d : Dev) (e : JEntry) : Nat → Dev × Bool
  | 0 => (d, false)
  | n + 1 =>
    let k := jKey d.store.curRow d.store.jnext
    let d := d.programWord k e.word
    let d := d.setStore { d.store with jnext := d.store.jnext + 1 }
    if ((mget (fun _ => NvWord.blank) d.store.words k).entry).isSome then (d, true) else d.programEntry e n

/-- Puts a new entry into the current row. -/
def Dev.enter (d : Dev) (kind flags : Nat) (args : List Nat) : Dev × Bool :=
  let e : JEntry := { kind, flags := BitVec.ofNat 8 flags, jseq := d.store.jseq, args := args.map (BitVec.ofNat 32),
                      boot := d.store.boot }
  let d := d.setStore { d.store with jseq := d.store.jseq + 1 }
  d.programEntry e (rowWords - d.store.jnext)

/-- What a checkpoint written now holds (R389). -/
def StoreState.checkpoint (s : StoreState) (seq : Word) : Checkpoint :=
  { seq, start := s.start, gap := s.gap, tally := s.tally, retired := s.retired, usedSpares := s.usedSpares, dir := s.dir,
    active := s.active, boot := s.boot, patrolNext := s.patrolNext, patrolEpoch := s.patrolEpoch, erases := s.erases,
    epochs := s.epochs }

def StoreState.ckpt (s : StoreState) (row : Nat) : Checkpoint := mget (fun _ => Checkpoint.fresh) s.ckpts row

/-- Data words of a checkpoint, each programmed at the next free word, and their bytes. -/
def Dev.dataWords (d : Dev) (n : Nat) : Dev × List Byte :=
  (List.range n).foldl (fun (r : Dev × List Byte) _ =>
    let v : BitVec 256 := r.1.freeVal 256
    let d := r.1.freeNext.programWord (jKey r.1.store.curRow r.1.store.jnext) v
    (d.setStore { d.store with jnext := d.store.jnext + 1 }, r.2 ++ putLE 32 v.toNat)) (d, [])

/-- The switch of rows (R389): the erase of the other row, journaled in the current one, then CHECKPOINT, the data words
and SEAL in the other. What the spec does not state is free: the ARG0 of a journal row's erase, which names no physical
sector, its cause, and the number and the encoding of the data words. -/
def Dev.switchRows (d : Dev) : Dev :=
  let a := (d.freeVal 31 : BitVec 31).toNat + 3072
  let f := (d.freeNext.freeVal 3 : BitVec 3).toNat
  let n := (d.freeNext.freeNext.freeVal 10 : BitVec 10).toNat % 641
  let d := d.freeNext.freeNext.freeNext
  let d := (d.enter 1 f [a, 0xFFFFFFFF, 0, 0]).1
  let other := 1 - d.store.curRow
  let seq := (d.store.ckpt d.store.curRow).seq + 1
  let d := (d.setStore { d.store with
    words := mdrop (fun k => decide (jKey other 0 ≤ k ∧ k < jKey other rowWords)) d.store.words }).statUp nvsErases
  let d := (d.enter 2 f [a, 0xFFFFFFFF, 0, 0]).1
  let d := d.setStore { d.store with
    ckpts := mset (fun _ => Checkpoint.fresh) d.store.ckpts other (d.store.checkpoint seq), curRow := other, jnext := 0,
    switching := false }
  let d := (d.enter 0xA 0 [seq.toNat, n, 0, 0]).1
  let (d, bs) := d.dataWords n
  (d.enter 0xB 0 [seq.toNat, crc32c bs, 0, 0]).1

/-- The rows switch when fewer than 256 free words remain. -/
def Dev.switchIfFull (d : Dev) : Dev := if rowWords < d.store.jnext + 256 then d.switchRows else d

/-- Programs one journal entry, with `f` for what it changes: a checkpoint that follows at once holds it already. -/
def Dev.journal (d : Dev) (kind flags : Nat) (args : List Nat) (f : StoreState → StoreState) : Dev :=
  let d := (d.enter kind flags args).1
  (d.setStore (f d.store)).switchIfFull

def jEraseBegin : Nat := 1
def jEraseEnd : Nat := 2
def jMoveBegin : Nat := 3
def jMoveEnd : Nat := 4
def jRetire : Nat := 5
def jBoot : Nat := 6
def jDir : Nat := 7
def jActive : Nat := 8
def jPatrol : Nat := 9

/-- ARG1 of an erase. -/
def lsecArg (l : Option Nat) : Nat := l.getD 0xFFFFFFFF

/-- A DIR entry (R387, R390): the directory's entry of a target. -/
def Dev.setDir (d : Dev) (target : Nat) (arg : Word) (digest : DWord) : Dev :=
  d.journal jDir 0 [target, arg.toNat, digest.toNat % 2 ^ 32, digest.toNat / 2 ^ 32]
    (fun s => { s with dir := mset (fun _ => ((0 : Word), (0 : DWord))) s.dir target (arg, digest) })

def Dev.dirOf (d : Dev) (target : Nat) : Word × DWord := mget (fun _ => (0, 0)) d.store.dir target

def Dev.dirValid (d : Dev) (target : Nat) : Bool := bit (d.dirOf target).1 31

/-- An ACTIVE entry. -/
def Dev.setActive (d : Dev) (slot : Nat) : Dev :=
  d.journal jActive 0 [slot, 0, 0, 0] (fun s => { s with active := some slot })

/-! ## The journal at a start (R388 to R392) -/

/-- The valid entries of a row, in order. -/
def StoreState.rowEntries (s : StoreState) (row : Nat) : List JEntry :=
  (s.words.filter (fun e => decide (jKey row 0 ≤ e.1 ∧ e.1 < jKey row rowWords))).filterMap (fun e => e.2.entry)

/-- The valid entries of a row behind its SEAL, in order. -/
def StoreState.behind (s : StoreState) (row : Nat) : List JEntry :=
  ((s.rowEntries row).reverse.takeWhile (fun e => decide (e.kind ≠ 0xB))).reverse

/-- Argument i of an entry. -/
def JEntry.arg (e : JEntry) (i : Nat) : Nat := (e.args.getD i 0).toNat

/-- The row sequence of a row's valid SEAL: it agrees with the CHECKPOINT entry of the row, and its CRC with the data words
behind that entry. -/
def StoreState.rowSeal (s : StoreState) (row : Nat) : Option Nat :=
  let at_ := (s.words.filter (fun e => decide (jKey row 0 ≤ e.1 ∧ e.1 < jKey row rowWords))).filterMap
    (fun e => e.2.entry.map (fun x => (e.1, x)))
  match at_.find? (fun e => decide (e.2.kind = 0xA)), at_.reverse.find? (fun e => decide (e.2.kind = 0xB)) with
  | some c, some e =>
    let xs := (List.range (c.2.arg 1)).map (fun i => mget (fun _ => NvWord.blank) s.words (c.1 + 1 + i))
    if e.2.arg 0 = c.2.arg 0 ∧ xs.all (fun x => decide (x.count ≤ 3)) ∧ crc32c (xs.flatMap NvWord.bytes) = e.2.arg 1 then
      some (c.2.arg 0)
    else none
  | _, _ => none

/-- The current row: of the rows with a valid SEAL, the one of the higher row sequence. -/
def StoreState.sealedRow (s : StoreState) : Option Nat :=
  match s.rowSeal 0, s.rowSeal 1 with
  | some a, some b => some (if a < b then 1 else 0)
  | some _, none => some 0
  | none, some _ => some 1
  | none, none => none

def addOnce (l : Nat) (xs : List Nat) : List Nat := if xs.contains l then xs else xs ++ [l]

/-- A physical sector has been erased `n` times more: its count and its epoch. -/
def StoreState.erased (s : StoreState) (ph n : Nat) (epoch : BitVec 16) : StoreState :=
  { s with erases := mset (fun _ => 0) s.erases ph (min (mget (fun _ => 0) s.erases ph + n) 0xFFFFFFFF),
           epochs := mset (fun _ => 0) s.epochs ph epoch.toNat }

/-- The physical erases that an ERASE_END of a sector says: those of a sector that was erased more than once and verified in
the end count as one (DESIGN CHOICE, log 59), and one that was retired was erased four times. -/
def StoreState.replayErased (s : StoreState) (e : JEntry) : StoreState :=
  if bit e.flags 7 then (s.erased (e.arg 0) 4 s.patrolEpoch).erased (e.arg 2) 1 s.patrolEpoch
  else s.erased (e.arg 0) 1 s.patrolEpoch

/-- What one entry behind the SEAL says (R387, R392). -/
def StoreState.replay (s : StoreState) (e : JEntry) : StoreState :=
  let a := e.arg
  let s := { s with jseq := e.jseq + 1 }
  match e.kind with
  | 1 =>
    if a 1 ≠ 0xFFFFFFFF then { s with suspect := addOnce (a 1) s.suspect }
    else if a 0 < 3072 then { s with gapDirty := true } else { s with switching := true }
  | 2 =>
    if a 1 ≠ 0xFFFFFFFF then
      { s.replayErased e with suspect := s.suspect.filter (fun x => decide (x ≠ a 1)), tally := (s.tally + 1) % 32 }
    else if a 0 < 3072 then { s.replayErased e with gapDirty := false } else s
  | 3 => { s with move := .copying false }
  | 4 => { s with start := a 0, gap := a 1, move := .none, gapDirty := true }
  | 5 => { s with retired := mset (fun k => k) s.retired (a 0) (a 1), usedSpares := addOnce (a 1) s.usedSpares }
  | 6 => { s with boot := BitVec.ofNat 32 (a 0) }
  | 7 => { s with dir := mset (fun _ => ((0 : Word), (0 : DWord))) s.dir (a 0)
                           (BitVec.ofNat 32 (a 1), BitVec.ofNat 64 (a 2 + a 3 * 2 ^ 32)) }
  | 8 => { s with active := some (a 0) }
  | 9 => { s with patrolNext := a 0, patrolEpoch := BitVec.ofNat 16 (a 1) }
  | _ => s

/-- One past the last word of a row that is not blank. -/
def StoreState.rowEnd (s : StoreState) (row : Nat) : Nat :=
  s.words.foldl (fun m e => if jKey row 0 ≤ e.1 ∧ e.1 < jKey row rowWords ∧ !e.2.isBlank then e.1 + 1 - jKey row 0 else m) 0

/-- The journal is read (R391): the checkpoint of the current row, and the valid entries behind its SEAL. The operations
that the row before it left unfinished at the switch are read from that row (R392). -/
def StoreState.readJournal (s : StoreState) : StoreState :=
  let row := s.sealedRow.getD 0
  let c := if s.sealedRow.isSome then s.ckpt row else Checkpoint.fresh
  let es := s.rowEntries row
  let old := (s.behind (1 - row)).foldl StoreState.replay { s with suspect := [], gapDirty := false, move := .none }
  let s := { s with
    start := c.start, gap := c.gap, tally := c.tally, retired := c.retired, usedSpares := c.usedSpares, dir := c.dir,
    active := c.active, boot := c.boot, patrolNext := c.patrolNext, patrolEpoch := c.patrolEpoch, erases := c.erases,
    epochs := c.epochs, suspect := old.suspect, gapDirty := old.gapDirty, move := old.move, switching := false, curRow := row, jnext := s.rowEnd row,
    jseq := (es.getLast?.map (fun (e : JEntry) => e.jseq + 1)).getD 0 }
  let s := (s.behind row).foldl StoreState.replay s
  { s with loaded := true, patrolPos := s.patrolNext, patrolEp := s.patrolEpoch }

/-- A power failure cuts the program of the latest journal entry short: its word is not valid (R374, R390). -/
def Dev.tearEntry (d : Dev) : Dev :=
  if d.store.jnext = 0 then d
  else
    let v : BitVec 256 := d.freeVal 256
    let k := jKey d.store.curRow (d.store.jnext - 1)
    d.freeNext.setStore { d.store with words := mset (fun _ => NvWord.blank) d.store.words k { data := some v, errs := 4 } }

/-! ## Erases (R375, R382) -/

/-- One physical erase: the sector blank, its count, its epoch and the statistics. -/
def Dev.eraseOnce (d : Dev) (ph : Nat) : Dev :=
  (d.setStore ((d.store.blankSector ph).erased ph 1 d.store.patrolEp)).statUp nvsErases

/-- A physical sector is erased and verified, at most four times (R375). -/
def Dev.eraseTries (d : Dev) (ph : Nat) (verified : Bool) : Dev :=
  d.forEach (List.range (if verified then 1 else 4)) (fun d _ => d.eraseOnce ph)

/-- A counted erase completes (R382): the 32nd makes a gap move due. A sector erased leaves the refresh queue. -/
def StoreState.countErase (s : StoreState) (l : Nat) : StoreState :=
  let s := { s with refresh := s.refresh.filter (fun x => decide (x ≠ l)) }
  if s.tally = 31 then { s with tally := 0, movesDue := s.movesDue + 1 } else { s with tally := s.tally + 1 }

/-- A sector has failed its last verification: its position takes a spare, erased and verified (R366, R375). `failing` names
the sectors whose erases fail verification to the end: a spare among them is replaced in its turn, until none is left. -/
def Dev.retirePosition (failing : List Nat) : Nat → Dev → Nat → Dev × Option Nat
  | 0, d, _ => (d, none)
  | n + 1, d, ph =>
    match d.store.holds ph, d.store.pickSpare ph with
    | some p, some x =>
      let d := d.journal jRetire 0 [p, x, 0, 0] (fun s => { s with retired := mset (fun k => k) s.retired p x,
                                                                   usedSpares := s.usedSpares ++ [x] })
      let okay := !failing.contains x
      let d := d.eraseTries x okay
      let d := d.logEntry 0x27 srcStore { region := none, unit := some (ph % 16), sub := none } []
      let d := d.cond (decide (d.store.freeSpares < 4)) (fun d =>
        d.escalate clsSpares srcStore { region := none, unit := some (ph % 16), sub := none } [])
      if okay then (d, some x) else Dev.retirePosition failing n d x
    | _, _ => (d, none)

/-- An erase of logical sector `l`, or of the gap, ends: verified, or failed four times. It answers whether the sector is
blank now. -/
def Dev.eraseEnds (d : Dev) (l : Option Nat) (ph cause : Nat) (verified : Bool) (failing : List Nat) : Dev × Bool :=
  let done (s : StoreState) : StoreState := match l with
    | some l => ({ s with suspect := s.suspect.filter (fun x => decide (x ≠ l)) }).countErase l
    | none => { s with gapDirty := false }
  if verified then (d.journal jEraseEnd cause [ph, lsecArg l, 0, 0] done, true)
  else
    match Dev.retirePosition failing 31 d ph with
    | (d, some x) => (d.journal jEraseEnd (cause + 128) [ph, lsecArg l, x, 0] done, true)
    | (d, none) =>
      (d.setStore (match l with
        | some l => ({ d.store with suspect := addOnce l d.store.suspect }).countErase l
        | none => { d.store with gapDirty := true }), false)

/-- A whole erase that the controller makes in one of its own passes, of a logical sector or of the gap (R392, R550): begun,
performed and ended. -/
def Dev.erasePass (d : Dev) (l : Option Nat) (ph cause : Nat) (failing : List Nat) : Dev :=
  let okay := !failing.contains ph
  let d := d.journal jEraseBegin cause [ph, lsecArg l, 0, 0] id
  ((d.eraseTries ph okay).eraseEnds l ph cause okay failing).1

def Dev.eraseWhole (d : Dev) (l cause : Nat) (failing : List Nat) : Dev := d.erasePass (some l) (d.store.phys l) cause failing

/-! ## Planes (R378, R379) -/

def Dev.nvPlane (d : Dev) (j : Nat) : Plane := mget (fun _ => Plane.idle) d.store.planes j

def Dev.setNvPlane (d : Dev) (j : Nat) (p : Plane) : Dev :=
  d.setStore { d.store with planes := mset (fun _ => Plane.idle) d.store.planes j p }

/-- The state code of NVS_PLANE_STATE. -/
def Plane.code (p : Plane) : Nat :=
  match p.op with
  | none => 0
  | some (.program _ _ _) => 1
  | some (.erase _ _ _ _) => if p.inner.isSome then 4 else if p.command || p.shed || p.read then 3 else 2

/-- Rung 1 holds or VCC_NV is low: erases are suspended, new programs refused, copies paused (R381, R628). -/
def Dev.nvHold (d : Dev) : Bool := d.rbit pwrStatus 0 || d.rbit pwrStatus 11

/-- VCC_NV is below 2.20 V: every store operation has stopped (R628). -/
def Dev.nvHalt (d : Dev) : Bool := d.rbit pwrStatus 12

/-- The copy of a gap move programs plane j, that of the gap, word by word (R383). -/
def Dev.copyingAt (d : Dev) (j : Nat) : Bool :=
  match d.store.move with
  | .copying _ => !d.nvHold && decide (d.store.physAt d.store.gap % 16 = j)
  | _ => false

/-- The state of plane j (R379): a copy makes an idle plane PROGRAM, and one whose erase is suspended PROGRAM_IN_SUSPEND. -/
def Dev.planeCode (d : Dev) (j : Nat) : Nat :=
  match (d.nvPlane j).code with
  | 0 => b2n (d.copyingAt j)
  | 3 => if d.copyingAt j then 4 else 3
  | c => c

def Dev.nvReady (d : Dev) : Bool := d.rbit nvsStatus 31

/-- The SHED source of every erase follows the hold; NVS_STATUS.SHED_HOLD shows rung 1 (R381). -/
def Dev.nvShedChanged (d : Dev) : Dev :=
  let d := d.setRbit nvsStatus 28 (d.rbit pwrStatus 0)
  d.forEach (List.range 16) (fun d j =>
    match (d.nvPlane j).op with
    | some (.erase _ _ _ _) => d.setNvPlane j { d.nvPlane j with shed := d.nvHold }
    | _ => d)

/-- A read of a plane that is erasing suspends the erase with source READ (R378). -/
def Dev.readSuspend (d : Dev) (j : Nat) : Dev :=
  match (d.nvPlane j).op with
  | some (.erase _ _ _ _) => d.setNvPlane j { d.nvPlane j with read := true }
  | _ => d

/-- The logical sectors whose erase is in progress, suspended or unfinished (R380). -/
def Dev.unfinished (d : Dev) (l : Nat) : Bool :=
  d.store.suspect.contains l ||
  (List.range 16).any (fun j => match (d.nvPlane j).op with
    | some (.erase (some l') _ _ _) => decide (l' = l)
    | _ => false)

/-- The logical sector that a running gap move copies (R384). -/
def Dev.movingSector (d : Dev) : Option Nat :=
  match d.store.move with
  | .copying _ => d.store.logical d.store.moveSource
  | _ => none

/-! ## A reset (R374, R392, R618) -/

/-- What an operation in progress leaves: an erase, its entry in the journal (R392); a program leaves each of its words
blank, programmed, or reading as other data or as uncorrectable, which is free. -/
def Dev.cutOp (d : Dev) (op : NvOp) : Dev :=
  match op with
  | .erase _ _ _ _ => d
  | .program l _ ws =>
    d.forEach ws (fun d w =>
      let c : BitVec 2 := d.freeVal 2
      let v : BitVec 256 := d.freeNext.freeVal 256
      let ph := d.store.phys l
      let x : NvWord := if c = 0 then .blank else if c = 1 then { data := some w.2, errs := 0 }
        else { data := some v, errs := if c = 2 then 0 else 4 }
      let d := d.freeNext.freeNext
      d.setStore (d.store.setWord ph w.1 x))

/-- The store as a device reset or a power-on reset leaves it. -/
def Dev.storeCut (d : Dev) : Dev :=
  let d := d.forEach (List.range 16) (fun d j =>
    let p := d.nvPlane j
    d.forEach (p.op.toList ++ p.inner.toList) Dev.cutOp)
  let s := d.store
  d.setStore { s with
    loaded := false, planes := [], held := [], movesDue := 0, extraPass := none, refresh := [] }

end Sys2Proof.Machine
end

