-- ==== Sys2Proof/Machine/LoadOps.lean ====
section
/-! DEFINITION. Images and the loader as shared operations: the parts of an image (R297 to R302), what a failed load
leaves (R343), and a session that is cut off (R335). -/
namespace Sys2Proof.Machine

/-! ## The header -/

def imgClass (h : List Byte) : Nat := getLE 1 h 6
def imgEnc (h : List Byte) : Bool := (getLE 1 h 7).testBit 0
def imgUnsigned (h : List Byte) : Bool := (getLE 1 h 7).testBit 1
def imgMask (h : List Byte) : Nat := getLE 2 h 0xC
def imgFlows (h : List Byte) : Nat := getLE 2 h 0xE
def imgFrames (h : List Byte) : Nat := getLE 4 h 0x10
def imgHeaderLen (h : List Byte) : Nat := getLE 4 h 0x14
def imgVersion (h : List Byte) : Nat := getLE 4 h 0x18
def imgRec (h : List Byte) (k : Nat) : List Byte := slice h (0x200 + 0x80 * k) 0x80
def imgChip (h : List Byte) : List Byte := slice h 0x40 0x1C0

/-- The length of R297. -/
def imgLen (h : List Byte) : Nat := imgHeaderLen h + 260 * imgFrames h + 160

/-- The groups of the body in their order: the chip's (15) in a full image, then each region's (R304). -/
def imgGroups (h : List Byte) : List Nat :=
  (if imgClass h = 1 then [15] else []) ++ bitList 12 (imgMask h)

/-- Frame records, offset, digest and tag of a group (R299, R300). -/
def grpFrames (h : List Byte) (k : Nat) : Nat := if k = 15 then getLE 4 h 0x40 else getLE 4 (imgRec h k) 0
def grpOffset (h : List Byte) (k : Nat) : Nat := if k = 15 then getLE 4 h 0x44 else getLE 4 (imgRec h k) 4
def grpDigest (h : List Byte) (k : Nat) : List Byte := if k = 15 then slice h 0x48 32 else slice (imgRec h k) 8 32
def grpTag (h : List Byte) (k : Nat) : List Byte := if k = 15 then slice h 0x68 16 else slice (imgRec h k) 0x28 16

/-- The region that a region image names. -/
def imgRegion (h : List Byte) : Nat := (bitList 12 (imgMask h)).headD 0

/-- The regions that a load of the image writes. -/
def imgRegions (h : List Byte) : List Nat := if imgClass h = 2 then [imgRegion h] else List.range 12

/-- CFG_STATUS.TARGET: a region, or 0xF. -/
def imgTarget (h : List Byte) : Nat := if imgClass h = 2 then imgRegion h else 0xF

/-! ## CFG_STATUS and CFG_FAIL_ADDR (R356, R358) -/

/-- OP codes. -/
def opNone : Nat := 0
def opStart : Nat := 1
def opDirect : Nat := 2
def opStaging : Nat := 3
def opReload : Nat := 4

/-- An operation begins. -/
def Dev.cfgBegin (d : Dev) (op target : Nat) : Dev :=
  ((d.setRbit cfgStatus 31 true).setFld cfgStatus 28 3 op).setFld cfgStatus 24 4 target

/-- An operation ends with a status. -/
def Dev.cfgEnd (d : Dev) (status : Nat) : Dev :=
  ((d.setRbit cfgStatus 31 false).setFld cfgStatus 28 3 0).setFld cfgStatus 0 16 status

/-- CFG_FAIL_ADDR of a failure that concerns no single frame. -/
def noFrame (target : Nat) : Word := BitVec.ofNat 32 (0xC0000000 + target * 0x100000)

/-- CFG_FAIL_ADDR of a refused frame. -/
def badFrame (addr : Nat) : Word := BitVec.ofNat 32 (0x80000000 + addr)

/-- A load or a staging has failed: CFG_FAIL_ADDR, CFG_FAIL_COUNT and RESULT. -/
def Dev.loadCounted (d : Dev) (status : Nat) (addr : Word) : Dev :=
  ((d.setReg cfgFailAddr addr).count cfgFailCount).cfgEnd status

/-- The LOAD_FAIL entry (R343), written with CFG_STATUS as it stands, and then the failure's bookkeeping. -/
def Dev.loadFail (d : Dev) (status : Nat) (addr : Word) : Dev :=
  let d := d.logEntry 0x25 srcLoader Path.chip
    (putLE 2 status ++ putLE 1 (d.fld cfgStatus 24 4) ++ putLE 1 (d.fld cfgStatus 28 3) ++ putLE 4 addr.toNat)
  d.loadCounted status addr

/-- R343 in the regions of a load that had begun: RECONFIG stays, the pins go to configuration state. -/
def Dev.loadAborted (d : Dev) (rs : List Nat) : Dev :=
  d.forEach rs (fun d n =>
    let d := d.setReg (rgnStatus n) (setBits (d.reg (rgnStatus n)) 8 2 0)
    { d with cfg := { d.cfg with pinsOut := setBit d.cfg.pinsOut n false } })

/-- The session's end, without a result. -/
def Dev.dropSession (d : Dev) : Dev := { d with cfg := { d.cfg with session := none } }

/-- A session ends as truncated (R335, R341): a DIRECT load that has not ended leaves its regions unloaded. One that has
ended well only closes, and its result is shown once its flows are in (R347, R356). -/
def Dev.truncateSession (d : Dev) : Dev :=
  match d.cfg.session with
  | none => d
  | some s =>
    let d := d.dropSession
    if s.load.finished then d.cond d.adm.loadWaits.isNone (fun d => d.cfgEnd 0)
    else
      let d := d.loadFail 0x0400 (noFrame (d.fld cfgStatus 24 4))
      match s.target, s.load.hdr with
      | .direct _, some h => d.loadAborted (imgRegions h)
      | _, _ => d

end Sys2Proof.Machine
end

