-- ==== Sys2Proof/Machine/Reset.lean ====
section
/-! DEFINITION. Ending a SERVICE session, the hive reset and the device reset (R523, R549, R555, R618 to R620). -/
namespace Sys2Proof.Machine

/-- 32 zero bytes: an entry that is not provisioned. -/
def noKey : List Byte := zeros 32

/-- The end of an open SERVICE session (R555): the wipes of R549 and a SERVICE_CLOSE entry with the cause. -/
def Dev.endSession (d : Dev) (cause : Nat) : Dev :=
  match d.lcy.scope with
  | none => d
  | some _ =>
    let d := d.wipeAllSecure
    let d := { d with lcy := { d.lcy with nonce := none, working := none, scope := none } }
    d.logEntry 0x32 srcLifecycle Path.chip (putLE 1 cause)

/-- The bit of PWR_RESET_CAUSE that a hive reset sets (R645). -/
def causeHiveWdog : Nat := 8
def causeHivePolicy : Nat := 9
def causeHiveSys : Nat := 10

/-- Bits [10:8] of PWR_RESET_CAUSE name the latest hive reset (R645). -/
def Dev.hiveCause (d : Dev) (b : Nat) : Dev :=
  (d.setFld pwrResetCause 8 3 0).setRbit pwrResetCause b true

/-- A run of erases goes on in the store without the request that began it (R523). -/
def Job.outlives (j : Job) : Bool :=
  j.final.isNone && (match j.kind with
    | .erases _ _ _ _ _ => true
    | _ => false)

/-- The oldest request, where the hive has handed it to the admission engine and the window of R211 is shut. One that the engine
need not have kept to the boundary is kept too (DESIGN CHOICE, log 59: the hive was free to hand it over). -/
def Dev.handedOver (d : Dev) : Option Req :=
  if d.stagingShut && d.hive.ready && d.hive.jobs.all (fun j => j.ticket.isSome || j.gone) then
    d.hive.waiting.head?.filter (fun r => [0x0400, 0x0401, 0x0403, 0x0404].contains r.opcode.toNat)
  else none

/-- The hive is reset: requests, stored replies and tickets are discarded, and the work that hardware has goes on; an open
stream session and an open SERVICE session end (R335, R523, R555), and the transports' registers return to 0 (R618). A reset that
is due is still performed (R531, R550). -/
def Dev.hiveClear (d : Dev) : Dev :=
  let d := d.truncateSession.endSession 2
  let d := d.forEach ([imfaFwVersion] ++ (List.range 4).map imfaReq ++ (List.range 4).map imfaBad ++ [imfaDrop])
    (fun d r => d.setReg r 0)
  let handed := d.adm.handed.or d.handedOver
  let h : HiveState := { d.hive with
    wdogFrom := d.time.uptime, ready := false, held := true, spi := .idle, i2c := .idle, jtag := .idle, ep48 := [],
    waiting := [], jobs := (d.hive.jobs.filter Job.outlives).map (fun j => { j with ticket := none, gone := true }), tickets := [] }
  ({ d with hive := h, adm := { d.adm with handed, loadBehind := d.adm.loadBehind && handed.isSome } } : Dev).dmaSuspendAll

/-- A hive reset with its cause. -/
def Dev.hiveReset (d : Dev) (b : Nat) : Dev := d.hiveClear.hiveCause b

/-- The bit of PWR_RESET_CAUSE for each cause of a device or power-on reset (R645). -/
def causePor : Nat := 0
def causeResetN : Nat := 1
def causeSysReset : Nat := 2
def causePolicy : Nat := 3
def causeCommit : Nat := 4
def causeLifecycle : Nat := 5
def causeThermal : Nat := 6

/-- What a device reset leaves (R618): everything at its reset value but the store, the key store, the trouble log, the
recorded cause and what stands outside the device; a session that is open ends first (R555). -/
def Dev.deviceReset (d : Dev) (b : Nat) : Dev :=
  let d := (d.endSession 3).storeCut
  let r := { Dev.reset with
    free := d.free, keys := d.keys, jtag := d.jtag, log := { d.log with snaps := [], fill := 0, fillAt := 0 }, store := d.store,
    lcy := { LcySession.reset with tamperNow := d.lcy.tamperNow }, pins := { PinState.reset with pad := d.pins.pad },
    power := { PowerState.reset with por := d.power.por, startDue := true, resetN := d.power.resetN, thermHold := d.power.thermHold,
                                     vccioOff := d.power.vccioOff } }
  r.setReg pwrResetCause (setBit 0 b true)

/-- What a power-on reset leaves: the trouble log is lost too (R566, R618). -/
def Dev.powerOnReset (d : Dev) : Dev :=
  let r := d.deviceReset causePor
  { r with log := LogState.reset, jtag := .reset, power := { r.power with por := true, startDue := false, thermHold := false } }

end Sys2Proof.Machine
end

