-- ==== Sys2Proof/Machine/Escalate.lean ====
section
/-! DEFINITION. The policy engine (R25 to R41): an escalation writes its log entry, counts, sets its pending bit, and
then the action of its class follows. -/
namespace Sys2Proof.Machine

/-- The 4-bit policy field of a class (R30, R37). -/
def Dev.policy (d : Dev) (c : Nat) : Nat := d.fld (chipErrPolicy (c / 8)) (4 * (c % 8)) 4
def Dev.alertOf (d : Dev) (c : Nat) : Bool := (d.policy c).testBit 3
def Dev.actionOf (d : Dev) (c : Nat) : Nat := d.policy c % 8

/-- The order of a group: ascending class, then source, then path (R32). -/
def Escalation.le (a b : Escalation) : Bool :=
  if a.cls ≠ b.cls then decide (a.cls < b.cls)
  else if a.source ≠ b.source then decide (a.source < b.source)
  else decide (a.path.toWord.toNat ≤ b.path.toWord.toNat)

/-- The flows that an entry counts carry its sequence number (R217). -/
def Dev.markSeq (d : Dev) (fs : List Nat) (seq : Word) : Dev :=
  d.forEach (fs.filter (fun f => decide ((d.flow f).state ≠ .free))) (fun d f => d.setFlow f { d.flow f with suspSeq := seq })

/-- One HCLK cycle, in units of 2⁻³² ns. -/
def hclk : Nat := 5 * 2 ^ 32

/-- The most entries that the intake queue can hold now: one leaves it in each HCLK cycle (R570; DESIGN CHOICE, log 50). -/
def LogState.queued (l : LogState) (uptime : Time96) : Nat := l.fill - (uptime.toNat - l.fillAt.toNat) / hclk

/-- The log is offered an entry: it joins the entries, or finds the intake queue of 32 full, is discarded and counts as lost; its
SEQ passes in both cases. Where the queue can be full, whether it is, is a free choice (R570). -/
def Dev.logTake (d : Dev) (o : LogOffer) : Dev :=
  let seq := d.log.nextSeq
  let q := d.log.queued d.time.uptime
  let full := decide (32 ≤ q) && decide (d.freeVal 1 = 1)
  let d := d.cond (decide (32 ≤ q)) Dev.freeNext
  let log :=
    if full then
      { d.log with nextSeq := seq + 1, lost := BitVec.ofNat 32 (min (d.log.lost.toNat + 1) 0xFFFFFFFF) }
    else d.log.append o.time o.code o.source o.path o.data
  ({ d with log := { log with fill := min 32 (q + 1), fillAt := d.time.uptime } }).markSeq o.flows seq

/-- The entry, the count and the pending bit of one escalation (R27, R32, R39, R40); ALERT forced where a freeze
action names no region (R31). -/
def Dev.raise (d : Dev) (e : Escalation) : Dev :=
  let d := d.logTake { time := d.ns, code := e.cls, source := e.source, path := e.path.toWord, data := e.data, flows := [] }
  let d := d.count (chipErrCount e.cls)
  let d := if d.reg chipErrPending = 0 then d.setReg chipErrFirst (setBit (BitVec.ofNat 32 e.cls) 31 true) else d
  let d := d.setRbit chipErrPending e.cls true
  if d.actionOf e.cls = 1 ∧ e.path.region = none then
    { d with chip := { d.chip with forcedAlert := setBit d.chip.forcedAlert e.cls true } }
  else d

/-- The freeze action of one escalation (R30, R33). -/
def Dev.freezeFor (d : Dev) (e : Escalation) : Dev :=
  if d.actionOf e.cls = 1 then
    match e.path.region with
    | some n => d.setReason n rsnPolicy
    | none => d
  else d

/-- A group of escalations of one cycle: every entry first, then every freeze, then the strongest reset once (R32). -/
def Dev.escalateAll (d : Dev) (es : List Escalation) : Dev :=
  let es := insSort Escalation.le es
  let d := d.forEach es Dev.raise
  let acts := es.map (fun e => d.actionOf e.cls)
  let d := d.forEach es Dev.freezeFor
  if acts.contains 3 then d.deviceReset causePolicy
  else if acts.contains 2 ∧ d.hive.held = false then d.hiveReset causeHivePolicy
  else d

/-- One escalation, on its own, at once. -/
def Dev.escalateNow (d : Dev) (cls source : Nat) (path : Path) (data : List Byte) : Dev :=
  d.escalateAll [{ cls, source, path, data }]

/-- The log takes what the command has offered besides escalations, in ascending order of SOURCE (R570). -/
def Dev.logDrain (d : Dev) : Dev :=
  let os := insSort (fun a b => decide (a.source ≤ b.source)) d.log.intake
  { d with log := { d.log with intake := [] } }.forEach os Dev.logTake

/-- The escalations of the command so far, as one group (R32), and then the other entries it wrote (R570). -/
def Dev.flush (d : Dev) : Dev :=
  let e := if d.raised = [] then d else { d with raised := [] }.escalateAll d.raised
  if e.log.intake = [] then e else e.logDrain

/-- R49: an access to an unmapped or forbidden offset, or of the wrong width or alignment. -/
def Dev.ctrlDecode (d : Dev) (id : Nat) (write wrong : Bool) (off : Nat) : Dev :=
  d.escalate clsCtrlDecode srcBus Path.chip
    (putLE 1 id ++ putLE 1 (b2n write + 2 * b2n wrong) ++ zeros 2 ++ putLE 4 off)

/-! ## What the pins show after every command -/

/-- A status bit of a GPIO port whose target is HIVE with ALERT (R594). -/
def Dev.gpioAlert (d : Dev) (q : Nat) : Bool :=
  let s := d.reg (gpioStatus q)
  decide (s ≠ 0) &&
    (List.range 16).any (fun k => bit s k && decide (d.fld (gpioRoute (16 * q + k)) 29 3 = 1))

/-- ALERT_N is low: some pending class has ALERT, or R31 forced it for an occurrence that is still pending (R39), or a
GPIO interrupt asserts it (R594). -/
def Dev.alertNow (d : Dev) : Bool :=
  (List.range 21).any (fun c => d.rbit chipErrPending c && (d.alertOf c || bit d.chip.forcedAlert c)) ||
  (List.range 15).any d.gpioAlert

/-- The causes of suspension that each endpoint last showed (R219). -/
def Dev.causesNow (d : Dev) : List (Nat × BitVec 5) :=
  (List.range 52).foldl (fun m e =>
    let c := d.epCauses e
    if c = 0 then m else mset (fun _ => 0) m e c) d.out.lastCauses

/-- The outputs that follow from the rest of the state. -/
def settle (d : Dev) : Dev :=
  { d with out := { alert := d.alertNow, shutdownDone := d.rbit pwrStatus 31, lastCauses := d.causesNow } }

/-- The end of every command: its escalations reach the policy engine as one group, the device settles, and the queue
stays as it is. -/
def finish (s : State) (d : Dev) : Host.Outcome State Fault Refusal := .next { s with dev := settle d.flush }

/-- The control port of identity id is idle: its region is frozen (R73). -/
def Dev.portIdle (d : Dev) (id : Fin 13) : Bool := decide (id ≠ 0) && d.frozen (id.val - 1)

/-- The end of an access of identity id: a frozen region issues none (R73). -/
def finishBy (id : Fin 13) (s : State) (d : Dev) : Host.Outcome State Fault Refusal :=
  finish s (if s.dev.portIdle id then s.dev else d)

end Sys2Proof.Machine
end

