-- ==== Sys2Proof/Machine/Admission.lean ====
section
/-! DEFINITION. The admission engine (chapter 04): the checks of a request, the slot search, teardown, repack,
switchover of a pair, and the suspension and resumption of flows. -/
namespace Sys2Proof.Machine

/-! ## Status codes (R516) -/

def stOk : Nat := 0x0000
def stPending : Nat := 0x0001
def stWarnEcc : Nat := 0x0002
def stBadOpcode : Nat := 0x0100
def stBadParam : Nat := 0x0101
def stBadCrc : Nat := 0x0102
def stBusy : Nat := 0x0103
def stDeniedLifecycle : Nat := 0x0200
def stDeniedFence : Nat := 0x0201
def stDeniedAuth : Nat := 0x0202
def stProgNotBlank : Nat := 0x0300
def stEraseSuspended : Nat := 0x0301
def stEraseUnfinished : Nat := 0x0302
def stCfgTruncated : Nat := 0x0400
def stCfgWrongDevice : Nat := 0x0401
def stCfgScope : Nat := 0x0402
def stCfgContention : Nat := 0x0403
def stCfgAuth : Nat := 0x0404
def stNoSlots : Nat := 0x0500
def stBuffer : Nat := 0x0501
def stBound : Nat := 0x0502
def stFragmented : Nat := 0x0503
def stEndpointState : Nat := 0x0504
def stInTest : Nat := 0x0600
def stTestIncomplete : Nat := 0x0601
def stSpillFull : Nat := 0x0700

/-! ## Periods and the staging window (R150, R154, R211) -/

/-- FAB_PERIOD of the period that the next boundary begins. -/
def Dev.nextPeriod (d : Dev) : Word :=
  if d.fab.begun then BitVec.ofNat 32 (d.fab.period.toNat + 1) else BitVec.ofNat 32 (d.fab.nextSlot.toNat / 512)

def Dev.fabPeriod (d : Dev) : Word := BitVec.ofNat 32 d.fab.period.toNat

/-- Every copy of R154 that is due is done before the engine writes. -/
def Dev.copiedAll (d : Dev) : Dev := d.forEach (List.range 52) Dev.copied

/-! ## Moved slots (R225 to R227) -/

/-- The ends of a flow that is MOVING: before B `src` and `dest` are its old ends, from B on its new ones. -/
def Flow.oldSrc (x : Flow) : Nat := if x.movedAt = 0 then x.src.toNat else x.altSrc.toNat
def Flow.newSrc (x : Flow) : Nat := if x.movedAt = 0 then x.altSrc.toNat else x.src.toNat
def Flow.oldDest (x : Flow) : Nat := if x.movedAt = 0 then x.dest.toNat else x.altDest.toNat

/-- Entry v of egress e is an old slot of a flow that is MOVING: it is marked, or it stands at the egress that the flow
leaves. -/
def Flow.oldSlot (x : Flow) (e v : Nat) : Bool :=
  decide (x.state = .moving) && (decide (4096 ≤ v) || (decide (x.altDest ≠ x.dest) && decide (e = x.oldDest)))

/-! ## Slot search (R204, R205) -/

/-- The source of entry v of egress e's staged table: of a flow that is MOVING, its old source for an old slot and its new
one for a new slot, before B as after it. -/
def Dev.stagedSrc (d : Dev) (e v : Nat) : Nat :=
  let x := d.flow (v % 4096)
  if x.state = .moving then (if x.oldSlot e v then x.oldSrc else x.newSrc) else x.src.toNat

/-- The slots that staged table `d` reserves, as a 512-bit mask. -/
def Dev.egressMask (d : Dev) (e : Nat) : Nat := (calOf d.fab.calStaged e).foldl (fun m x => natBit m x.1 true) 0

/-- The slots in which `s` is reserved as a source over all staged tables. -/
def Dev.ingressMask (d : Dev) (s : Nat) : Nat :=
  d.fab.calStaged.foldl (fun m x => if d.stagedSrc (x.1 / 512) x.2 = s then natBit m (x.1 % 512) true else m) 0

/-- How many slots of a mask are set. -/
def slotCount (m : Nat) : Nat := (bitList 512 m).length

/-- The slots that two masks leave free. -/
def freeMask (used : Nat) : Nat := bitsOf 512 (fun t => !used.testBit t)

/-- The first slot of `m` cyclically from `t`. -/
def firstSlot (m t : Nat) : Option Nat :=
  (List.range 512).findSome? (fun j => if m.testBit ((t + j) % 512) then some ((t + j) % 512) else none)

/-- The placement of `n` slots at offset `o`: the chosen slots as a mask. -/
def chooseAt (free n o : Nat) : Nat :=
  ((List.range n).foldl (fun (acc : Nat × Nat) k =>
    match firstSlot acc.1 ((o + k * 512 / n) % 512) with
    | some c => (natBit acc.1 c false, natBit acc.2 c true)
    | none => acc) (free, 0)).2

/-- Gaps from each slot of an ascending list to the next, the last one to `wrap`. -/
def gaps : List Nat → Nat → List Nat
  | [], _ => []
  | [x], w => [w - x]
  | x :: y :: t, w => (y - x) :: gaps (y :: t) w

/-- The largest cyclic gap of a chosen set: 512 with one slot. -/
def maxGap (m : Nat) : Nat :=
  match bitList 512 m with
  | [] => 0
  | x :: t => (gaps (x :: t) (512 + x)).foldl max 0

/-- The best placement over all offsets; ties keep the lower offset. None where fewer than `n` slots are free. -/
def placeSlots (free n : Nat) : Option (Nat × Nat) :=
  if slotCount free < n then none
  else (List.range 512).foldl (fun best o =>
    let c := chooseAt free n o
    let g := maxGap c
    match best with
    | none => some (c, g)
    | some b => if g < b.2 then some (c, g) else some b) none

/-- D of R206 for a burst depth and a gap, in ns. -/
def boundOf (b g : Nat) : Nat := 176 + (b + 2) * g * 4

def boundMax : Nat := 131072

/-- ceil(512 / N). -/
def idealGap (n : Nat) : Nat := (512 + n - 1) / n

/-- Writes the slots of a mask into a staged table. -/
def Dev.stage (d : Dev) (e mask v : Nat) : Dev :=
  { d with fab := { d.fab with calStaged := (bitList 512 mask).foldl (fun m t => calSet m e t v) d.fab.calStaged } }

/-! ## FLOW_ADMIT (R202, R203, R210) -/

/-- What the checks produce: status, DETAIL, ALLOC, G_MAX, REQUIRED, D and the chosen slots. -/
structure Verdict where
  status : Nat
  detail : Nat
  alloc : Nat
  gMax : Nat
  required : Nat
  bound : Nat
  slots : Nat
  deriving DecidableEq, Repr

def refusal (status detail : Nat) (alloc gMax required bound : Nat := 0) : Verdict :=
  { status, detail, alloc, gMax, required, bound, slots := 0 }

/-- Bytes 0 to 31 of a request as a descriptor. -/
def flowOfBytes (p : List Byte) : Flow :=
  { Flow.blank with src := p.getD 2 0, dest := p.getD 3 0, n := BitVec.ofNat 16 (getLE 2 p 4),
                    b := BitVec.ofNat 16 (getLE 2 p 6), m := BitVec.ofNat 16 (getLE 2 p 8),
                    allocReq := BitVec.ofNat 16 (getLE 2 p 10), dReq := BitVec.ofNat 32 (getLE 4 p 12),
                    flags := BitVec.ofNat 16 (getLE 2 p 16), eventObj := BitVec.ofNat 16 (getLE 2 p 18) }

/-- A reserved bit of the request is set: FLOW [15:12], FLAGS [15:3] or bytes 20 to 31. -/
def reservedSet (p : List Byte) : Bool :=
  decide (4096 ≤ getLE 2 p 0) || decide (8 ≤ getLE 2 p 16) || (slice p 20 12).any (fun b => decide (b ≠ 0))

/-- Check order 1. -/
def Dev.checkParams (d : Dev) (f : Nat) (x : Flow) (reserved : Bool) : Option Nat :=
  let n := x.n.toNat
  let b := x.b.toNat
  if f = 0 ∨ (d.flow f).state ≠ .free then some 0x01
  else if 51 < x.src.toNat ∨ 51 < x.dest.toNat ∨ x.src = x.dest then some 0x02
  else if 512 < n ∨ (n ≠ 0 ∧ (b = 0 ∨ 254 < b)) ∨ (n = 0 ∧ b ≠ 0) ∨ x.m = 0 ∨ 256 < x.m.toNat ∨ reserved then some 0x03
  else if x.allocReq.toNat % 64 ≠ 0 ∨ 3584 < x.allocReq.toNat then some 0x04
  else if x.src.toNat < 16 ∧ n ≠ 0 ∧ b < x.m.toNat then some 0x05
  else if x.event ∧ (511 < x.eventObj.toNat ∨ isRegionEp x.dest.toNat = false) then some 0x06
  else none

/-- The port permit in force of a lane endpoint (R561, R574). -/
def Dev.portPermit (d : Dev) (e : Nat) : Bool := d.rbit fencePort e

/-- Admission is held: rung 1 of the shedding ladder holds (R221), or a shutdown has begun (R636, R637). -/
def Dev.shedHold (d : Dev) : Bool := d.rbit pwrStatus 0 || decide (d.fld pwrStatus 28 3 ≠ 0)

/-- An egress belongs to a pair whose switchover has not reached DRAINED. -/
def Dev.pair (d : Dev) (k : Nat) : PairState := mget (fun _ => PairState.none) d.adm.pairs k

def Dev.setPair (d : Dev) (k : Nat) (x : PairState) : Dev :=
  { d with adm := { d.adm with pairs := mset (fun _ => PairState.none) d.adm.pairs k x } }

/-- A switchover of pair k is STAGED or DRAINING. -/
def Dev.pairBusy (d : Dev) (k : Nat) : Bool := decide ((d.pair k).step = 1) || decide ((d.pair k).step = 2)

/-- An endpoint belongs to a pair whose switchover is not DRAINED, and so does each flow at it (R202). -/
def Dev.pairMoves (d : Dev) (e : Nat) : Bool := isRegionEp e && d.pairBusy (epRegion e / 2)

/-- An egress is in transition: a flow of it is MOVING, or its pair's switchover is not DRAINED (R202, R213). -/
def Dev.inTransition (d : Dev) (e : Nat) : Bool :=
  d.flowIds.any (fun f =>
    let x := d.flow f
    decide (x.state = .moving) && (decide (x.dest.toNat = e) || decide (x.altDest.toNat = e))) ||
  d.pairMoves e

/-- IMAGE_VALID of a region (R110). -/
def Dev.imageValid (d : Dev) (n : Nat) : Bool := d.rbit (rgnStatus n) 8

/-- Checks 3 and 4 on the endpoints of a request. -/
def Dev.checkState (d : Dev) (src dest : Nat) : Option (Nat × Nat) :=
  if d.shedHold then some (stBusy, 0x20)
  else if d.inTransition dest || d.pairMoves src then some (stBusy, 0x21)
  else if d.degraded then some (stEndpointState, 0x30)
  else if (isLaneEp src && d.laneTest src) || (isLaneEp dest && d.laneTest dest) then some (stEndpointState, 0x31)
  else if (isRegionEp src && !d.imageValid (epRegion src)) || (isRegionEp dest && !d.imageValid (epRegion dest)) then
    some (stEndpointState, 0x32)
  else none

/-- REQUIRED of R203. -/
def requiredOf (x : Flow) : Nat := (if x.dest.toNat < 16 then max x.b.toNat x.m.toNat else x.b.toNat) + 2

/-- The allocation that is granted, none where it is short (R203). -/
def grantOf (x : Flow) : Option Nat :=
  let req := if x.allocReq = 0 then 64 else x.allocReq.toNat
  if requiredOf x ≤ req then some req
  else if x.autoGrow then some ((requiredOf x + 63) / 64 * 64) else none

/-- FAB_EP_ALLOC of an egress and the allocations of its PENDING flows (R202). -/
def Dev.poolUsed (d : Dev) (e : Nat) : Nat :=
  d.flowIds.foldl (fun a f =>
    let x := d.flow f
    a + (if x.state = .pending ∧ x.dest.toNat = e then x.alloc.toNat else 0)) (d.allocAt e)

/-- The limit of R204. -/
def limitOf (x : Flow) : Nat := if 1 ≤ x.dReq.toNat ∧ x.dReq.toNat ≤ boundMax then x.dReq.toNat else boundMax

/-- Checks 6 to 8 and the placement. -/
def Dev.checkSlots (d : Dev) (x : Flow) (alloc required : Nat) : Verdict :=
  let n := x.n.toNat
  let eg := d.egressMask x.dest.toNat
  let ig := d.ingressMask x.src.toNat
  let free := freeMask (eg ||| ig)
  let ideal := boundOf x.b.toNat (idealGap n)
  if epCapacity x.dest.toNat < slotCount eg + n then refusal stNoSlots 0x50 alloc 0 required
  else if epCapacity x.src.toNat < slotCount ig + n then refusal stNoSlots 0x51 alloc 0 required
  else match placeSlots free n with
    | none => refusal stNoSlots 0x52 alloc 0 required
    | some (slots, g) =>
      if limitOf x < ideal then
        refusal stBound (if x.dReq ≠ 0 ∧ x.dReq.toNat < ideal then 0x60 else 0x61) alloc 0 required ideal
      else
        let dd := boundOf x.b.toNat g
        if limitOf x < dd then refusal stFragmented 0x70 alloc g required dd
        else { status := stOk, detail := 0, alloc, gMax := g, required, bound := dd, slots }

/-- All checks of R202, in order. -/
def Dev.checkAdmit (d : Dev) (f : Nat) (x : Flow) (reserved : Bool) : Verdict :=
  match d.checkParams f x reserved with
  | some k => refusal stBadParam k
  | none =>
    if isLaneEp x.dest.toNat && !d.portPermit x.dest.toNat then refusal stDeniedFence 0x10
    else match d.checkState x.src.toNat x.dest.toNat with
      | some (st, k) => refusal st k
      | none =>
        if x.n = 0 then { status := stOk, detail := 0, alloc := 0, gMax := 0, required := 0, bound := 0, slots := 0 }
        else
          let req := requiredOf x
          if 256 < d.replayRes x.src.toNat + x.b.toNat + 2 then refusal stBuffer 0x40
          else match grantOf x with
            | none => refusal stBuffer 0x41 0 0 req
            | some a =>
              if 3584 < d.poolUsed x.dest.toNat + a then refusal stBuffer 0x42 a 0 req
              else d.checkSlots x a req

/-- The bookkeeping of a refusal (R201, R237): `named` is the flow that the request names, whose DETAIL is written, and
`shown` the one that ADM_REFUSAL_FLOW shows. -/
def Dev.admRefuse (d : Dev) (named : Option Nat) (shown status detail : Nat) : Dev :=
  let d := match named with
    | none => d
    | some f => d.setFlow f { d.flow f with detail := BitVec.ofNat 8 detail }
  let d := d.count admRefused
  let d := d.setReg admRefusalFlow (BitVec.ofNat 32 (0x80000000 + detail * 4096 + shown))
  d.setReg admRefusalStatus (BitVec.ofNat 32 status)

/-- What a flow shows when it goes live: suspended ends, and HOLDS where it has a bound and nothing suspends it. -/
def Dev.liveFlow (d : Dev) (x : Flow) (period : Word) : Flow :=
  let ds := d.suspendedEp x.dest.toNat
  { x with state := .live, livePeriod := period, destSusp := ds, srcSusp := d.suspendedEp x.src.toNat,
           degraded := d.degraded, holds := x.reserved && !ds && !d.degraded, tokens := x.b.toNat,
           credits := x.alloc.toNat, swapDue := false }

/-- FLOW_ADMIT: bytes 0 to 31 of a descriptor in, the status and the whole descriptor out. -/
def Dev.flowAdmit (d : Dev) (p : List Byte) : Dev × Nat × List Byte :=
  let d := d.copiedAll
  let f := getLE 2 p 0 % 4096
  let x := flowOfBytes p
  let v := d.checkAdmit f x (reservedSet p)
  let x := { x with alloc := BitVec.ofNat 16 v.alloc, gMax := BitVec.ofNat 16 v.gMax,
                    required := BitVec.ofNat 16 v.required, bound := BitVec.ofNat 32 v.bound }
  if v.status ≠ stOk then
    let o := d.flow f
    let y := { x with state := o.state, holds := o.holds, destSusp := o.destSusp, srcSusp := o.srcSusp,
                      degraded := o.degraded, livePeriod := o.livePeriod, suspSeq := o.suspSeq,
                      detail := BitVec.ofNat 8 v.detail }
    let d := if v.status = stDeniedFence then d.fenceRefuse 3 x.dest.toNat 0 else d
    (d.admRefuse (some f) f v.status v.detail, v.status, slice p 0 32 ++ (y.bytes f).drop 32)
  else
    let d := d.count admAdmitted
    if x.n = 0 then
      let y := d.liveFlow x d.fabPeriod
      (d.setFlow f y, stOk, y.bytes f)
    else
      let y := { x with state := .pending, livePeriod := d.nextPeriod, swapDue := true }
      let d := ((d.setFlow f y).stage x.dest.toNat v.slots f).reqSwap x.dest.toNat
      (d, stOk, y.bytes f)

/-! ## FLOW_TEARDOWN, FLOW_QUERY (R200, R212) -/

/-- A flow ID returns to FREE; credits still on their way are gone with it. -/
def Dev.freeFlow (d : Dev) (f : Nat) : Dev :=
  let d := d.setFlow f Flow.blank
  { d with fab := { d.fab with credits := d.fab.credits.filter (fun g => decide (g ≠ f)) } }

/-- FLOW_TEARDOWN by STATE. -/
def Dev.flowTeardown (d : Dev) (f : Nat) : Dev × Nat × List Byte :=
  let d := d.copiedAll
  let x := d.flow f
  let no (st k : Nat) : Dev × Nat × List Byte :=
    (d.admRefuse (some f) f st k, st, ({ x with detail := BitVec.ofNat 8 k }).bytes f)
  if f = 0 then no stBadParam 0x01
  else match x.state with
    | .free => no stBadParam 0x07
    | .moving => no stBusy 0x21
    | .pending =>
      let d := (d.unstage x.dest.toNat f).freeFlow f
      (d, stOk, (d.flow f).bytes f)
    | .live =>
      if x.n = 0 then
        let d := d.freeFlow f
        (d, stOk, (d.flow f).bytes f)
      else
        let y := { x with state := .draining, stopped := true, slotsOut := false, detail := 0 }
        (d.setFlow f y, stOk, y.bytes f)
    | .draining =>
      let y := { x with detail := 0 }
      (d.setFlow f y, stOk, y.bytes f)

/-- The stored descriptor. -/
def Dev.flowQuery (d : Dev) (f : Nat) : List Byte := (d.flow f).bytes f

/-! ## FLOW_REPACK (R213, R214) -/

/-- The LIVE flows with a reservation towards an egress, by decreasing N, then ascending ID. -/
def Dev.repackOrder (d : Dev) (fs : List Nat) : List Nat :=
  insSort (fun a b => decide ((d.flow b).n.toNat ≤ (d.flow a).n.toNat)) fs

/-- R214: the last old slot and the first new one, across the boundary. -/
def changeOk (old new gMax : Nat) : Bool :=
  match (bitList 512 old).getLast?, (bitList 512 new).head? with
  | some l, some f => decide (512 - l + f ≤ gMax)
  | _, _ => false

/-- The slots of a table of egress e that entry v holds. -/
def slotsIn (m : List (Nat × Nat)) (e v : Nat) : Nat :=
  (calOf m e).foldl (fun m x => if x.2 = v then natBit m x.1 true else m) 0

/-- The slots of a staged table that one entry holds. -/
def Dev.slotsOf (d : Dev) (e v : Nat) : Nat := slotsIn d.fab.calStaged e v

/-- The slots in use that one entry holds: those of the active table. -/
def Dev.slotsNow (d : Dev) (e v : Nat) : Nat := slotsIn d.fab.calActive e v

/-- Places the flows of a repack in order: the new staged table grows in `d`. None where one does not fit. -/
def Dev.repackPlace (d : Dev) (e : Nat) (old : Nat → Nat) : List Nat → Option Dev
  | [] => some d
  | f :: rest =>
    let x := d.flow f
    let free := freeMask (d.egressMask e ||| d.ingressMask x.src.toNat)
    match placeSlots free x.n.toNat with
    | none => none
    | some (slots, g) =>
      if g ≤ x.gMax.toNat ∧ changeOk (old f) slots x.gMax.toNat then (d.stage e slots f).repackPlace e old rest else none

/-- The payload of FLOW_REPACK and PAIR_SWITCH (R537). -/
def admPayload (n detail word : Nat) : List Byte := putLE 2 n ++ putLE 1 detail ++ [0] ++ putLE 4 word

/-- FLOW_REPACK of one egress. A flow changes its slots where the new ones differ from those in use (R214), whatever an
earlier repack has staged. -/
def Dev.flowRepack (d : Dev) (e : Nat) : Dev × Nat × List Byte :=
  let d := d.copiedAll
  let no (st k : Nat) : Dev × Nat × List Byte := (d.admRefuse none 0 st k, st, admPayload 0 k 0)
  if d.shedHold then no stBusy 0x20
  else if d.inTransition e then no stBusy 0x21
  else if d.degraded then no stEndpointState 0x30
  else
    let fs := d.repackOrder (d.flowIds.filter (fun f =>
      let x := d.flow f
      decide (x.state = .live) && x.reserved && decide (x.dest.toNat = e)))
    let old := fun f => d.slotsNow e f
    let cleared := d.forEach fs (fun d f => d.unstage e f)
    match cleared.repackPlace e old fs with
    | none => no stFragmented 0x71
    | some d' =>
      let moves (f : Nat) : Bool := decide (d'.slotsOf e f ≠ old f)
      let n := (fs.filter moves).length
      let d'' := d'.forEach fs (fun d f => d.setFlow f { d.flow f with swapDue := moves f })
      (d''.reqSwap e, stOk, admPayload n 0 (if n = 0 then 0 else d.nextPeriod.toNat))

/-! ## PAIR_SWITCH (R223 to R228) -/

/-- The endpoint that replaces `e` when region `old` gives way to its partner (R223, R224). -/
def partnerOf (old e : Nat) : Nat := if isRegionEp e && decide (epRegion e = old) then Nat.xor e 2 else e

/-- The LIVE flows with an endpoint in the old region and none in the target. -/
def Dev.movedFlows (d : Dev) (old target : Nat) : List Nat :=
  d.flowIds.filter (fun f =>
    let x := d.flow f
    let inR (e n : Nat) : Bool := isRegionEp e && decide (epRegion e = n)
    decide (x.state = .live) && (inR x.src.toNat old || inR x.dest.toNat old) &&
    !(inR x.src.toNat target || inR x.dest.toNat target))

/-- Sum over the moved flows whose new endpoint, by `pick`, is `e` and differs from the old one. -/
def Dev.sumMoved (d : Dev) (fs : List Nat) (old e : Nat) (pick : Flow → Nat) (w : Flow → Nat) (always : Bool) : Nat :=
  fs.foldl (fun a f =>
    let x := d.flow f
    let ne := partnerOf old (pick x)
    a + (if ne = e ∧ (always ∨ ne ≠ pick x) then w x else 0)) 0

/-- Checks 2 to 6 of R202 over all moved flows together: the first that fails, with its flow. -/
def Dev.checkPair (d : Dev) (k old target : Nat) (fs : List Nat) : Option (Nat × Nat × Nat) :=
  let res := fs.filter (fun f => (d.flow f).reserved)
  let src (f : Nat) : Nat := (d.flow f).src.toNat
  let dest (f : Nat) : Nat := (d.flow f).dest.toNat
  let nsrc (f : Nat) : Nat := partnerOf old (src f)
  let ndest (f : Nat) : Nat := partnerOf old (dest f)
  let eps := [16 + 2 * target, 17 + 2 * target]
  match fs.find? (fun f => isLaneEp (dest f) && !d.portPermit (dest f)) with
  | some f => some (stDeniedFence, 0x10, f)
  | none =>
  if d.shedHold then some (stBusy, 0x20, 0)
  else if d.pairBusy k then some (stBusy, 0x21, 0)
  else match fs.find? (fun f => d.inTransition (dest f) || d.inTransition (ndest f) || d.pairMoves (src f)) with
  | some f => some (stBusy, 0x21, f)
  | none =>
  if d.degraded then some (stEndpointState, 0x30, 0)
  else match fs.find? (fun f => (isLaneEp (src f) && d.laneTest (src f)) || (isLaneEp (dest f) && d.laneTest (dest f))) with
  | some f => some (stEndpointState, 0x31, f)
  | none => match fs.find? (fun f => [src f, dest f, nsrc f, ndest f].any (fun e => isRegionEp e && !d.imageValid (epRegion e))) with
  | some f => some (stEndpointState, 0x32, f)
  | none =>
  if d.frozen target || eps.any (fun e => d.rbit (fabEpStatus e) clkLostBit) then some (stEndpointState, 0x33, 0)
  else match res.find? (fun f => decide (nsrc f ≠ src f) &&
      decide (256 < d.replayRes (nsrc f) + d.sumMoved res old (nsrc f) (·.src.toNat) (fun x => x.b.toNat + 2) false)) with
  | some f => some (stBuffer, 0x40, f)
  | none => match res.find? (fun f => decide (ndest f ≠ dest f) &&
      decide (3584 < d.poolUsed (ndest f) + d.sumMoved res old (ndest f) (·.dest.toNat) (·.alloc.toNat) false)) with
  | some f => some (stBuffer, 0x42, f)
  | none => match res.find? (fun f =>
      decide (epCapacity (ndest f) <
        slotCount (d.egressMask (ndest f)) + d.sumMoved res old (ndest f) (·.dest.toNat) (·.n.toNat) true)) with
  | some f => some (stNoSlots, 0x50, f)
  | none => match res.find? (fun f =>
      decide (epCapacity (nsrc f) <
        slotCount (d.ingressMask (nsrc f)) + d.sumMoved res old (nsrc f) (·.src.toNat) (·.n.toNat) true)) with
  | some f => some (stNoSlots, 0x51, f)
  | none => none

/-- The new slots of a moved flow are placed between its new ends (R225). Where its egress stays, its old slots there
become entries f + 4,096; where its DEST moves, its old slots stay as they are at the old egress. The Boolean of a
failure says that fewer than N slots were free: that check is made for every moved flow before the gaps are (R202, R224), and
`wide` is the first flow whose gap is too large. -/
def Dev.placeMoved (d : Dev) (old : Nat) (wide : Option Nat) : List Nat → Except (Nat × Bool) Dev
  | [] => match wide with
    | none => .ok d
    | some f => .error (f, false)
  | f :: rest =>
    let x := d.flow f
    let ns := partnerOf old x.src.toNat
    let nd := partnerOf old x.dest.toNat
    let free := freeMask (d.egressMask nd ||| d.ingressMask ns)
    match placeSlots free x.n.toNat with
    | none => .error (f, true)
    | some (slots, g) =>
      let mine := d.slotsOf nd f
      let d := (d.unstage nd f).stage nd mine (f + 4096)
      let d := d.setFlow f { x with state := .moving, altSrc := BitVec.ofNat 8 ns, altDest := BitVec.ofNat 8 nd,
                                    movedAt := 0, swapDue := true }
      ((d.stage nd slots f).reqSwap nd).placeMoved old
        (if wide = none ∧ x.gMax.toNat < g then some f else wide) rest

/-- The log entry of R228. -/
def Dev.pairDrained (d : Dev) (k n : Nat) : Dev :=
  d.logEntry 0x22 srcAdmission Path.chip (putLE 1 k ++ [0] ++ putLE 2 n)

/-- A moved flow without a reservation takes its new endpoints, and what their suspension makes of it (R225). Where other
moved flows drain, it stays MOVING with them until their swap (R228): `drains`. -/
def Dev.moveFree (d : Dev) (f ns nd : Nat) (period : Word) (drains : Bool) : Dev :=
  let x := d.flow f
  d.setFlow f { x with src := BitVec.ofNat 8 ns, dest := BitVec.ofNat 8 nd, livePeriod := period, swapDue := false,
                       state := if drains then .moving else .live,
                       altSrc := if drains then x.src else 0, altDest := if drains then x.dest else 0,
                       movedAt := if drains then d.fab.nextNum else 0,
                       destSusp := d.suspendedEp nd, srcSusp := d.suspendedEp ns }

/-- PAIR_SWITCH of pair k to a target region. -/
def Dev.pairSwitch (d : Dev) (k target : Nat) : Dev × Nat × List Byte :=
  let d := d.copiedAll
  let no (d : Dev) (st det f n : Nat) : Dev × Nat × List Byte := (d.admRefuse none f st det, st, admPayload n det f)
  if 5 < k ∨ (target ≠ 2 * k ∧ target ≠ 2 * k + 1) ∨ (d.pair k).declared = false then no d stBadParam 0x08 0 0
  else
    let old := Nat.xor target 1
    let fs := d.movedFlows old target
    match d.checkPair k old target fs with
    | some (st, det, f) =>
      let d := if st = stDeniedFence then d.fenceRefuse 3 (d.flow f).dest.toNat 0 else d
      no d st det f fs.length
    | none =>
      let res := d.repackOrder (fs.filter (fun f => (d.flow f).reserved))
      match d.placeMoved old none res with
      | .error (f, short) => if short then no d stNoSlots 0x52 f fs.length else no d stFragmented 0x72 f fs.length
      | .ok d' =>
        let px : PairState := { d.pair k with step := 1, target := decide (target % 2 = 1),
                                              moved := BitVec.ofNat 13 fs.length, flows := fs, slotsOut := false }
        if res = [] then
          let d := d.forEach fs (fun d f =>
            d.moveFree f (partnerOf old (d.flow f).src.toNat) (partnerOf old (d.flow f).dest.toNat) d.fabPeriod false)
          let d := (d.setPair k { px with step := 3 }).pairDrained k fs.length
          (d, stOk, admPayload fs.length 0 d.fabPeriod.toNat)
        else
          let d' := d'.forEach (fs.filter (fun f => !(d.flow f).reserved)) (fun d f =>
            let x := d.flow f
            d.setFlow f { x with state := .moving, altSrc := BitVec.ofNat 8 (partnerOf old x.src.toNat),
                                 altDest := BitVec.ofNat 8 (partnerOf old x.dest.toNat), movedAt := 0,
                                 swapDue := true })
          (d'.setPair k px, stOk, admPayload fs.length 0 d.nextPeriod.toNat)

/-- The pairs after a load or a reset of images: a pair that becomes declared starts afresh (R223, R238). -/
def Dev.pairsChanged (d : Dev) : Dev :=
  d.forEach (List.range 6) (fun d k =>
    let now := (List.range 2).all (fun i => d.imageValid (2 * k + i) && d.rbit (rgnConfig (2 * k + i)) 4)
    let p := d.pair k
    if now && !p.declared then d.setPair k { PairState.none with declared := true }
    else d.setPair k { p with declared := now })

/-! ## Requests that wait out the window (R200, R211, R235) -/

/-- A FLOW_ADMIT for slots that its earlier checks do not refuse. -/
def Dev.admitNeeds (d : Dev) (r : Req) : Bool :=
  let x := flowOfBytes r.params
  decide (r.len = 32) && decide (x.n ≠ 0) &&
  [stOk, stNoSlots, stBound, stFragmented].contains (d.copiedAll.checkAdmit (r.u 2 0 % 4096) x (reservedSet r.params)).status

/-- Parameters of 4 bytes whose field of `n` bytes is at most `top`, with zeros from byte `z` on (check 7 of R514, R537). -/
def fourOk (r : Req) (n top z : Nat) : Bool :=
  decide (r.len = 4) && decide (r.u n 0 ≤ top) && decide (r.u (4 - z) z = 0)

/-- A FLOW_TEARDOWN that takes slots out of a staged table. -/
def Dev.teardownNeeds (d : Dev) (r : Req) : Bool := fourOk r 2 4095 2 && decide ((d.flow (r.u 2 0)).state = .pending)

/-- A FLOW_REPACK that its first checks do not refuse. -/
def Dev.repackNeeds (d : Dev) (r : Req) : Bool :=
  fourOk r 1 51 1 && !d.shedHold && !d.inTransition (r.u 1 0) && !d.degraded

/-- A PAIR_SWITCH that moves slots. -/
def Dev.pairNeeds (d : Dev) (r : Req) : Bool :=
  let old := Nat.xor (r.u 1 1) 1
  let fs := d.movedFlows old (r.u 1 1)
  fourOk r 1 5 2 && decide (r.u 1 1 / 2 = r.u 1 0) && (d.pair (r.u 1 0)).declared &&
  (d.checkPair (r.u 1 0) old (r.u 1 1) fs).isNone && fs.any (fun f => (d.flow f).reserved)

/-- The hive runs, and executes no command without a ticket: it takes up the oldest request (R517). -/
def Dev.hiveFree (d : Dev) : Bool := d.hive.ready && d.hive.jobs.all (fun j => j.ticket.isSome || j.gone)

/-- A request of the admission group that passes check 7 (R514, R537): it goes to the engine. -/
def engineRequest (r : Req) : Bool :=
  match r.opcode.toNat with
  | 0x0400 => decide (r.len = 32)
  | 0x0401 => fourOk r 2 4095 2
  | 0x0402 => decide (r.len = 2) && decide (r.u 2 0 ≤ 4095)
  | 0x0403 => fourOk r 1 51 1
  | 0x0404 => fourOk r 1 5 2
  | _ => false

/-- The oldest waiting request is the engine's, and it cannot be answered in the window, or stands there behind another: the
engine has it, and it waits. -/
def Dev.requestWaits (d : Dev) : Bool :=
  d.stagingShut && d.hiveFree && (match d.hive.waiting with
    | [] => false
    | r :: _ =>
      (d.adm.handed.isSome && engineRequest r) ||
      match r.opcode.toNat with
      | 0x0400 => d.admitNeeds r
      | 0x0401 => d.teardownNeeds r
      | 0x0403 => d.repackNeeds r
      | 0x0404 => d.pairNeeds r
      | _ => false)

/-- A request that a reset of the hive has left with the engine is performed: nothing answers it (R523). -/
def Dev.engineRun (d : Dev) (r : Req) : Dev :=
  if engineRequest r then
    match r.opcode.toNat with
    | 0x0400 => (d.flowAdmit r.params).1
    | 0x0401 => (d.flowTeardown (r.u 2 0)).1
    | 0x0403 => (d.flowRepack (r.u 1 0)).1
    | 0x0404 => (d.pairSwitch (r.u 1 0) (r.u 1 1)).1
    | _ => d
  else d

/-- It is performed once the window is open. -/
def Dev.handedDue (d : Dev) : Dev :=
  match d.adm.handed with
  | some r =>
    if d.stagingShut then d
    else ({ d with adm := { d.adm with handed := none, loadBehind := false } }).engineRun r
  | none => d

/-- The engine serves a request that waits: one of the hive, or the clearing of the flows that a full load waits for. -/
def Dev.engineWaits (d : Dev) : Bool := d.requestWaits || d.adm.handed.isSome || d.adm.loadWaits.isSome

/-! ## Where the cells of a flow stand -/

/-- A cell of flow f, chosen by `p`, is in a replay store, crossing the core, or in a pool. -/
def Dev.cellsLeft (d : Dev) (f : Nat) (p : Cell → Bool) : Bool :=
  let mine (c : Cell) : Bool := decide (c.flow.toNat = f) && p c
  d.fab.ingress.any (fun g => g.2.replay.any (fun r => mine r.cell)) ||
  d.fab.flight.any (fun x => mine x.cell) || d.fab.pools.any (fun g => g.2.any (fun x => mine x.cell))

/-- FLOW_DRAIN_DONE: no cell of a DRAINING flow remains; its slots go at the next swap (R212). -/
def Dev.flowDrained (d : Dev) (f : Nat) : Dev :=
  let x := d.flow f
  if decide (x.state = .draining) && !x.slotsOut && !d.cellsLeft f (fun _ => true) && !d.stagingShut then
    let d := d.unstage x.dest.toNat f
    (d.setFlow f { d.flow f with slotsOut := true, swapDue := true }).reqSwap x.dest.toNat
  else d

def execFlowDrainDone (f : Fin 4096) (s : State) : Host.Outcome State Fault Refusal := finish s (s.dev.flowDrained f)

/-- PAIR_DRAIN_DONE: no cell accepted before B remains; the old slots go at the next swap (R228). -/
def Dev.pairDrain (d : Dev) (k : Nat) : Dev :=
  let p := d.pair k
  let left := p.flows.any (fun f =>
    let x := d.flow f
    x.reserved && d.cellsLeft f (fun c => c.acc && decide (c.num < x.movedAt)))
  if decide (p.step = 2) && !p.slotsOut && !left && !d.stagingShut then
    let d := d.forEach p.flows (fun d f =>
      let x := d.flow f
      let d := if x.reserved = false then d
        else if x.altDest = x.dest then (d.unstage x.dest.toNat (f + 4096)).reqSwap x.dest.toNat
        else (d.unstage x.altDest.toNat f).reqSwap x.altDest.toNat
      d.setFlow f { d.flow f with swapDue := true })
    d.setPair k { p with slotsOut := true }
  else d

def execPairDrainDone (k : Fin 6) (s : State) : Host.Outcome State Fault Refusal := finish s (s.dev.pairDrain k)

/-! ## Suspension (R215 to R219) -/

/-- The replay entries of flow f for egress e leave every ingress. -/
def Dev.dropReplay (d : Dev) (e f : Nat) : Dev :=
  { d with fab := { d.fab with ingress := d.fab.ingress.filterMap (fun g =>
      let x := { g.2 with replay := g.2.replay.filter (fun r =>
        decide (r.cell.flow.toNat ≠ f) || decide (r.cell.dest.toNat ≠ e)) }
      if x = Ingress.empty then none else some (g.1, x)) } }

/-- The cells of flow f leave the pool of egress e, counted in ADM_EP_FROZEN_DROP. -/
def Dev.dropPool (d : Dev) (e f : Nat) : Dev :=
  let mine (p : PoolEnt) : Bool := decide (p.cell.flow.toNat = f)
  let n := ((d.pool e).filter mine).length
  (d.setPool e ((d.pool e).filter (fun p => !mine p))).count (admEpFrozenDrop e) n

/-- The DEST of flow f is suspended (R216). -/
def Dev.suspendFlow (d : Dev) (e f : Nat) : Dev :=
  let d := (d.dropReplay e f).dropPool e f
  let x := d.flow f
  d.setFlow f { x with holds := false, destSusp := true, resumeIn := 0, skipToSom := false }

/-- The flows that have taken effect: LIVE, DRAINING or MOVING. -/
def Dev.liveIds (d : Dev) : List Nat := d.flowIds.filter (fun f => decide ((d.flow f).state ≠ .pending))

/-- The level path of an endpoint's entry. -/
def Path.ep (e : Nat) : Path := { region := none, unit := some e, sub := none }

/-- SUSPEND (R216, R217, R219). -/
def Dev.suspendEp (d : Dev) (e : Nat) : Dev :=
  let causes := d.epCauses e
  if d.suspendedEp e ∨ causes = 0 then d
  else
    let d := { d with adm := { d.adm with suspended := setBit d.adm.suspended e true } }
    let dch := d.liveIds.filter (fun f =>
      let x := d.flow f
      decide (x.dest.toNat = e) && (!x.destSusp || decide (x.resumeIn ≠ 0)))
    let old := d.liveIds.filter (fun f =>
      let x := d.flow f
      decide (x.state = .moving) && decide (x.altDest.toNat = e) && decide (x.movedAt ≠ 0) && decide (x.altDest ≠ x.dest))
    let sch := d.liveIds.filter (fun f => decide ((d.flow f).src.toNat = e) && !(d.flow f).srcSusp)
    let d := d.forEach dch (fun d f => d.suspendFlow e f)
    let d := d.forEach old (fun d f => (d.dropReplay e f).dropPool e f)
    let d := d.forEach sch (fun d f => d.setFlow f { d.flow f with srcSusp := true })
    d.logEntry 0x20 srcAdmission (Path.ep e)
      (putLE 1 e ++ putLE 1 causes.toNat ++ putLE 2 dch.length ++ putLE 2 sch.length) (dch ++ sch)

/-- RESUME (R218, R219): the flows become due at the second boundary. That endpoint 48 leaves suspension says that the
reset of the hive, whose length the spec does not give, has ended. -/
def Dev.resumeEp (d : Dev) (e : Nat) : Dev :=
  let d := d.cond (decide (e = 48)) Dev.hiveResetEnds
  let d := d.cond (isLaneEp e) (fun d => d.txAgain e)
  if d.suspendedEp e ∧ d.epCauses e = 0 then
    let causes := mget (fun _ => 0) d.out.lastCauses e
    let d := { d with adm := { d.adm with suspended := setBit d.adm.suspended e false } }
    let dch := d.liveIds.filter (fun f => decide ((d.flow f).dest.toNat = e) && (d.flow f).destSusp)
    let sch := d.liveIds.filter (fun f => decide ((d.flow f).src.toNat = e) && (d.flow f).srcSusp)
    let d := d.forEach dch (fun d f => d.setFlow f { d.flow f with resumeIn := 2 })
    let d := d.forEach sch (fun d f => d.setFlow f { d.flow f with srcSusp := false })
    d.logEntry 0x21 srcAdmission (Path.ep e)
      (putLE 1 e ++ putLE 1 causes.toNat ++ putLE 2 dch.length ++ putLE 2 sch.length) (dch ++ sch)
  else d

def execEndpointSuspend (e : Fin 52) (s : State) : Host.Outcome State Fault Refusal := finish s (s.dev.suspendEp e)

def execEndpointResume (e : Fin 52) (s : State) : Host.Outcome State Fault Refusal := finish s (s.dev.resumeEp e)

/-! ## What a period boundary does to flows and pairs (R210, R212, R213, R218, R226 to R228) -/

/-- B for a moved flow: the new ends, and the bucket and credits of R226 and R227. -/
def Dev.moveAtB (d : Dev) (f : Nat) : Dev :=
  let x := d.flow f
  let srcMoves := decide (x.altSrc ≠ x.src)
  let destMoves := decide (x.altDest ≠ x.dest)
  let back := (d.fab.credits.filter (fun g => decide (g = f))).length
  let d := { d with fab := { d.fab with credits := d.fab.credits.filter (fun g => decide (g ≠ f)) } }
  let y := { x with src := x.altSrc, dest := x.altDest, altSrc := x.src, altDest := x.dest, movedAt := d.fab.nextNum,
                    livePeriod := d.fabPeriod, swapDue := false,
                    tokens := if srcMoves then x.b.toNat else x.tokens,
                    credits := if destMoves then x.alloc.toNat else x.credits + back,
                    srcSusp := d.suspendedEp x.altSrc.toNat }
  let d := d.setFlow f y
  if d.suspendedEp y.dest.toNat then
    d.setFlow f { y with destSusp := true, holds := false, resumeIn := 0 }
  else if y.destSusp ∧ destMoves ∧ y.resumeIn = 0 then d.setFlow f { y with resumeIn := 2 }
  else d

/-- One flow at a swap. -/
def Dev.flowAtSwap (d : Dev) (f : Nat) : Dev :=
  let x := d.flow f
  if x.swapDue = false then d
  else match x.state with
    | .pending => d.setFlow f (d.liveFlow x d.fabPeriod)
    | .live => d.setFlow f { x with swapDue := false, livePeriod := d.fabPeriod }
    | .draining => if x.slotsOut then d.freeFlow f else d
    | .moving =>
      if x.movedAt = 0 then
        (if x.reserved then d.moveAtB f else d.moveFree f x.altSrc.toNat x.altDest.toNat d.fabPeriod true)
      else d.setFlow f { x with state := .live, swapDue := false, altSrc := 0, altDest := 0, movedAt := 0 }
    | .free => d

/-- One pair at a swap: STAGED becomes DRAINING, and a pair whose old slots are out becomes DRAINED. -/
def Dev.pairAtSwap (d : Dev) (k : Nat) : Dev :=
  let p := d.pair k
  if p.step = 1 then d.setPair k { p with step := 2 }
  else if p.step = 2 ∧ p.slotsOut then (d.setPair k { p with step := 3 }).pairDrained k p.moved.toNat
  else d

/-- The resumption of R218 at the second boundary. -/
def Dev.flowAtBoundary (d : Dev) (f : Nat) : Dev :=
  let x := d.flow f
  if x.resumeIn = 0 then d
  else if x.resumeIn = 1 then
    let d := d.setFlow f { x with resumeIn := 0, destSusp := false, credits := x.alloc.toNat, tokens := x.b.toNat,
                                  holds := x.reserved && !x.degraded, skipToSom := true }
    { d with fab := { d.fab with credits := d.fab.credits.filter (fun g => decide (g ≠ f)) } }
  else d.setFlow f { x with resumeIn := x.resumeIn - 1 }

/-- Every flow loses HOLDS and shows DEGRADED (R222). -/
def Dev.degradeFlows (d : Dev) : Dev :=
  d.forEach (0 :: d.flowIds) (fun d f => d.setFlow f { d.flow f with holds := false, degraded := true })

/-! ## ADM_ registers (R233 to R241) -/

/-- A write of ADM_FLOW_SEL takes a snapshot for the writer; every identity may write its own copy (R233, R239). -/
def Dev.admSelWrite (d : Dev) (id : Fin 13) (v : Word) : Dev :=
  let f := bits v 0 12
  let d := d.setIdReg id admFlowSel (BitVec.ofNat 32 f)
  { d with adm := { d.adm with snaps := mset (fun _ => zeros 64) d.adm.snaps id.val (d.flowQuery f) } }

def execAdmFlowSel (id : Fin 13) (v : Word) (s : State) : Host.Outcome State Fault Refusal :=
  finishBy id s (s.dev.admSelWrite id v)

/-- The flows counted in ADM_LIVE, flow 0 left out. -/
def Dev.admLive (d : Dev) : Word :=
  let r := (d.liveIds.filter (fun f => (d.flow f).reserved)).length
  BitVec.ofNat 32 (r * 65536 + d.liveIds.length + 1)

/-- The computed registers of the admission engine. -/
def Dev.admView (d : Dev) (id : Fin 13) (off : Nat) : Option Word :=
  if off = 0x240000 then some (BitVec.ofNat 32 (b2n d.engineWaits * 2 ^ 31 + b2n d.shedHold * 2 ^ 30 + b2n d.degraded * 2 ^ 29))
  else if off = 0x240004 then some d.admLive
  else if off = 0x240018 then some (BitVec.ofNat 32 (d.flowIds.filter (fun f => (d.flow f).destSusp)).length)
  else if 0x240020 ≤ off ∧ off < 0x240038 then
    let p := d.pair ((off - 0x240020) / 4)
    some (BitVec.ofNat 32 (b2n p.declared * 2 ^ 31 + p.step.toNat * 2 ^ 29 + b2n p.target * 2 ^ 28 + p.moved.toNat))
  else if 0x240080 ≤ off ∧ off < 0x2400C0 then
    some (BitVec.ofNat 32 (getLE 4 (mget (fun _ => zeros 64) d.adm.snaps id.val) (off - 0x240080)))
  else if 0x241000 ≤ off ∧ off < 0x241340 then
    let e := (off - 0x241000) / 0x10
    match off % 0x10 with
    | 0 => some (BitVec.ofNat 32 (b2n (d.suspendedEp e) * 2 ^ 31 + (d.epCauses e).toNat))
    | 4 => some (BitVec.ofNat 32 (d.replayRes e))
    | _ => none
  else none

/-- Reads that a region control port may make (R233). -/
def Dev.admReadOk (d : Dev) (id : Fin 13) (off : Nat) : Bool :=
  let n := id.val - 1
  let own (e : Nat) : Bool := decide (e = 16 + 2 * n) || decide (e = 17 + 2 * n)
  let snap := mget (fun _ => zeros 64) d.adm.snaps id.val
  decide (id = 0) || (d.granted id 1 &&
    (decide (off = 0x240000) ||
     (decide (0x241000 ≤ off ∧ off < 0x241340) && own ((off - 0x241000) / 0x10)) ||
     (decide (0x240080 ≤ off ∧ off < 0x2400C0) && (own (getLE 1 snap 2) || own (getLE 1 snap 3)))))

end Sys2Proof.Machine
end

