-- ==== Sys2Proof/Machine/CellFormat.lean ====
section
/-! DEFINITION. A cell as it crosses the core: its header, its four slices with their sideband, and their checks
(R136 to R138, R158, R163). -/
namespace Sys2Proof.Machine

/-- The header of a cell (R136). -/
def Cell.header (c : Cell) : Nat :=
  c.flow.toNat * 2 ^ 52 + b2n c.som * 2 ^ 51 + b2n c.eom * 2 ^ 50 + b2n c.err * 2 ^ 49 + b2n c.acc * 2 ^ 48 +
  c.cls.toNat * 2 ^ 46 + c.aspace.toNat * 2 ^ 40 + c.src.toNat * 2 ^ 34 + c.dest.toNat * 2 ^ 28 + c.bytes.toNat * 2 ^ 22 +
  c.astamp.toNat

/-- The cell of a header and a payload; `num` is its acceptance number. -/
def ofHeader (h : Nat) (payload : List Byte) (num : Nat) : Cell :=
  { flow := BitVec.ofNat 12 (h / 2 ^ 52), som := h.testBit 51, eom := h.testBit 50, err := h.testBit 49, acc := h.testBit 48,
    cls := BitVec.ofNat 2 (h / 2 ^ 46), aspace := BitVec.ofNat 6 (h / 2 ^ 40), src := BitVec.ofNat 6 (h / 2 ^ 34),
    dest := BitVec.ofNat 6 (h / 2 ^ 28), bytes := BitVec.ofNat 6 (h / 2 ^ 22), astamp := BitVec.ofNat 16 h, payload, num }

/-- One bit into a CRC of `w` bits that shifts its most significant bit out. -/
def crcShift (w poly c : Nat) (x : Bool) : Nat :=
  let s := c * 2 % 2 ^ w
  if c.testBit (w - 1) != x then Nat.xor s poly else s

/-- A CRC without final inversion, the most significant bit of each byte first. -/
def crcMsb (w poly init : Nat) (bs : List Byte) : Nat :=
  bs.foldl (fun c b => [7, 6, 5, 4, 3, 2, 1, 0].foldl (fun c i => crcShift w poly c (bit b i)) c) init

/-- The check code over header and payload, and the plane check over the other 19 bytes of a slice (R138). -/
def checkCode (header payload : List Byte) : Nat := crcMsb 24 0x864CFB 0xB704CE (header ++ payload)
def planeCheck (bs : List Byte) : Nat := crcMsb 8 0x07 0x00 bs

/-- The 32 bits of slice k in each of the four beats of a payload (R137). -/
def sliceData (payload : List Byte) (k : Nat) : List Byte := (List.range 4).flatMap (fun j => slice payload (16 * j + 4 * k) 4)

/-- Slice k of a cell: 16 bytes of data, two of the header, the replay sequence or a byte of the check code, and the plane
check. The bytes enter the plane check in this order, and a carried cell has replay sequence 0 (DESIGN CHOICE, log 23). -/
def cellSlice (c : Cell) (seq : Byte) (k : Nat) : List Byte :=
  let h := putLE 8 c.header
  let p := fit 64 c.payload
  let third := if k = 0 then seq else BitVec.ofNat 8 (checkCode h p / 256 ^ (k - 1))
  let body := sliceData p k ++ slice h (2 * k) 2 ++ [third]
  body ++ [BitVec.ofNat 8 (planeCheck body)]

/-- A slice with some of its 160 bits flipped. -/
def flipSlice (s : List Byte) (at_ : List Nat) : List Byte :=
  (List.range 20).map (fun i => s.getD i 0 ^^^ BitVec.ofNat 8 (bitsOf 8 (fun j => at_.contains (8 * i + j))))

/-- The plane check of a slice passes. -/
def sliceOk (s : List Byte) : Bool := decide ((s.getD 19 0).toNat = planeCheck (s.take 19))

/-- The payload byte i of four slices. -/
def payloadByte (ss : List (List Byte)) (i : Nat) : Byte := (ss.getD (i % 16 / 4) []).getD (4 * (i / 16) + i % 4) 0

/-- What arrives of a cell: the planes whose check fails, whether every check passes, and the cell. -/
structure Crossed where
  failed : List Nat
  good : Bool
  cell : Cell

/-- A flight reaches its egress with the bits `flips` wrong on its planes. Where a slice was mirrored, the egress takes the
copy whose plane check passes (R163). -/
def Flight.cross (fl : Flight) (flips : List (Fin 5 × Fin 160)) : Crossed :=
  let on (p k : Nat) : List Byte :=
    flipSlice (cellSlice fl.cell (fl.seq.getD 0) k) ((flips.filter (fun x => decide (x.1.val = p))).map (fun x => x.2.val))
  let plane (k : Nat) : Nat := fl.planes.getD k k
  let spareOf (k : Nat) : Option Nat := match fl.mirror with
    | some (w, sp) => if plane k = w then some sp else none
    | none => none
  let taken (k : Nat) : List Byte :=
    let s := on (plane k) k
    match spareOf k with
    | some sp => if !sliceOk s && sliceOk (on sp k) then on sp k else s
    | none => s
  let failed := (List.range 4).flatMap (fun k =>
    (if sliceOk (on (plane k) k) then [] else [plane k]) ++
    (match spareOf k with
     | some sp => if sliceOk (on sp k) then [] else [sp]
     | none => []))
  let ss := (List.range 4).map taken
  let header := (List.range 4).flatMap (fun k => slice (ss.getD k []) 16 2)
  let payload := (List.range 64).map (payloadByte ss)
  let code := getLE 3 [(ss.getD 1 []).getD 18 0, (ss.getD 2 []).getD 18 0, (ss.getD 3 []).getD 18 0] 0
  { failed, good := ss.all sliceOk && decide (code = checkCode header payload),
    cell := ofHeader (getLE 8 header 0) payload fl.cell.num }

end Sys2Proof.Machine
end

