-- ==== Sys2Proof/Machine/SerialOps.lean ====
section
/-! DEFINITION. The port and raw transmit queues as handover points (R117, R253, R259). -/
namespace Sys2Proof.Machine

/-- The port whose MAC serves lane n, with its lane count: the enabled port, or the lane by itself. -/
def Dev.macOf (d : Dev) (n : Nat) : Nat × Nat := (d.portOfLane n).getD (n, 1)

def Dev.macTx (d : Dev) (p : Nat) : List TxMsg := mget (fun _ => []) d.serial.macTx p

def Dev.setMacTx (d : Dev) (p : Nat) (q : List TxMsg) : Dev :=
  { d with serial := { d.serial with macTx := mset (fun _ => []) d.serial.macTx p q } }

/-- MAC_TX_QLEVEL: bytes in the queue. -/
def Dev.macLevel (d : Dev) (p : Nat) : Nat := (d.macTx p).foldl (fun a m => a + m.bytes.length) 0

def Dev.rawLane (d : Dev) (n : Nat) : RawState := mget (fun _ => RawState.idle) d.serial.raw n

def Dev.setRaw (d : Dev) (n : Nat) (x : RawState) : Dev :=
  { d with serial := { d.serial with raw := mset (fun _ => RawState.idle) d.serial.raw n x } }

/-- A message dropped by the MAC of port p: counted, with its bit of MAC_EVENT (R253). -/
def Dev.macDrop (d : Dev) (p bitNo : Nat) : Dev := (d.count (macTxDrop p)).setRbit (macEvent p) bitNo true

/-- The handover of a message into the MAC transmit queue of the port of lane e. -/
def Dev.macEnqueue (d : Dev) (e : Nat) (flow : BitVec 12) (bs : List Byte) : Dev :=
  let (p, k) := d.macOf e
  if d.fld (macMaxFrame p) 0 15 < bs.length + 4 ∨ k * 65536 < d.macLevel p + bs.length then d.macDrop p 1
  else d.setMacTx p (d.macTx p ++ [{ flow, bytes := bs }])

/-- DENSE acts only in RAW_PASS (R257). -/
def Dev.dense (d : Dev) (n : Nat) : Bool := decide (d.laneMode n = 4) && d.rbit (sdsRawCfg n) 26

/-- A cell to send is TIMED, and its TIME is still to come (R260). -/
def Dev.rawTimed (d : Dev) (n : Nat) (bs : List Byte) : Bool := !d.dense n && bit (bs.getD 6 0) 7
def Dev.rawEarly (d : Dev) (n : Nat) (bs : List Byte) : Bool :=
  d.rawTimed n bs && laterSeq 32 (getLE 4 bs 0) (d.ns.toNat % 2 ^ 32)

/-- A cell comes to the head of the queue: whether its TIME is still to come is judged then (R260). -/
def Dev.rawHead (d : Dev) (n : Nat) (q : List Cell) : Bool :=
  match q with
  | [] => false
  | c :: _ => d.rawEarly n (fit 64 c.payload)

/-- The handover of one raw cell into the raw transmit queue of lane n (R259). -/
def Dev.rawEnqueue (d : Dev) (n : Nat) (c : Cell) : Dev :=
  let x := d.rawLane n
  if 1024 ≤ x.txQueue.length then d.count (sdsRawTxdrop n)
  else d.setRaw n { x with txQueue := x.txQueue ++ [c], waits := if x.txQueue = [] then d.rawHead n [c] else x.waits }

end Sys2Proof.Machine
end

