-- ==== Sys2Proof/Machine/Fabric.lean ====
section
/-! DEFINITION. The fabric core (chapter 03): sending and accepting cells, slots, period boundaries, planes, arrival,
replay, handover, and the FAB_ and classifier registers. -/
namespace Sys2Proof.Machine

/-! ## User logic sends (R124) -/

/-- User logic presents cells only while its region runs and its clock toggles. -/
def Dev.epAwake (d : Dev) (e : Nat) : Bool :=
  if isRegionEp e then !d.frozen (epRegion e) && !d.rbit (fabEpStatus e) clkLostBit
  else if e = 48 then !d.hive.held else true

def execTxCell (e : Fin 52) (flow : BitVec 12) (dest : BitVec 6) (som eom err : Bool) (bytes : BitVec 6)
    (cls : BitVec 2) (aspace : BitVec 6) (data : BitVec 512) (s : State) : Host.Outcome State Fault Refusal :=
  let d := s.dev
  finish s
    (if 16 ≤ e.val ∧ d.epAwake e ∧ (d.ing e).queue.length < ingressDepth then
      d.takeCell e { flow, som, eom, err, acc := false, cls, aspace, src := 0, dest, bytes, astamp := 0,
                     payload := putLE 64 data.toNat, num := 0 }
     else d)

/-! ## The head of an ingress queue (R130, R199, R216) -/

/-- What becomes of a cell at the head: the rest of the device where it leaves the queue, none where it stays. -/
def Dev.headCell (d : Dev) (e : Nat) (c : Cell) : Option Dev :=
  let f := c.flow.toNat
  let x := d.flow f
  let room := decide ((d.ing e).be.length < 64)
  if f = 0 ∧ 51 < c.dest.toNat then some (d.igDiscard e)
  else if f ≠ 0 ∧ x.openAt e = false then some (d.count (admEpNotlive e))
  else if f ≠ 0 ∧ x.judged then
    (if x.tokens ≠ 0 ∧ x.credits ≠ 0 then some (d.acceptCell e c) else none)
  else if room then some (d.carryCell e c) else none

/-- The queue of an ingress without its element `i`. -/
def Dev.unqueue (d : Dev) (e i : Nat) : Dev :=
  let g := d.ing e
  d.setIng e { g with queue := g.queue.eraseIdx i }

/-- Takes the cell at position `i` of the queue, if it can leave. -/
def Dev.takeAt (d : Dev) (e i : Nat) : Option Dev :=
  match (d.ing e).queue[i]? with
  | none => none
  | some c => (d.unqueue e i).headCell e c

/-- The head of the queue leaves, where it can, and a block of the device presents further cells. -/
def Dev.ingressHead (d : Dev) (e : Nat) : Dev := ((d.takeAt e 0).getD d).feed e

def execIngressHead (e : Fin 52) (s : State) : Host.Outcome State Fault Refusal := finish s (s.dev.ingressHead e)

/-! ## Slots (R128, R152, R155, R158, R163) -/

/-- The source of entry v of egress e's active table: up to B every slot is an old one. -/
def Dev.activeSrc (d : Dev) (e v : Nat) : Nat :=
  let x := d.flow (v % 4096)
  if decide (x.movedAt ≠ 0) && x.oldSlot e v then x.altSrc.toNat else x.src.toNat

/-- A cell may cross in a slot of entry v of egress e: from B on, old slots carry what was accepted before B and new ones
the rest. -/
def slotFits (x : Flow) (e v : Nat) (c : Cell) : Bool :=
  decide (x.movedAt = 0) || (if x.oldSlot e v then decide (c.num < x.movedAt) else decide (x.movedAt ≤ c.num))

/-- FAB_PLANE_WATCH: a watch runs, on this plane. -/
def Dev.watching (d : Dev) : Bool := d.rbit fabPlaneWatch 31
def Dev.watched (d : Dev) : Nat := d.fld fabPlaneWatch 0 3

/-- The slot that starts now mirrors the watched plane. -/
def Dev.mirrors (d : Dev) : Bool := d.watching && decide (d.fab.watchFrom ≤ d.fab.nextSlot.toNat)

def Dev.spare (d : Dev) : Nat := d.fld fabPlaneMap 12 3
def Dev.slicePlane (d : Dev) (k : Nat) : Nat := d.fld fabPlaneMap (3 * k) 3
def Dev.carries (d : Dev) (p : Nat) : Bool := (List.range 4).any (fun k => decide (d.slicePlane k = p))
def Dev.retired (d : Dev) (p : Nat) : Bool := d.rbit fabPlaneMap (16 + p)
def noSpare : Nat := 7

/-- A cell leaves for its egress, on the planes of this period. -/
def Dev.launch (d : Dev) (c : Cell) (i : Nat) (seq : Option Byte) (second : Bool) : Dev :=
  let fl : Flight := { cell := c, ingress := i, seq, second, planes := (List.range 4).map d.slicePlane,
                       mirror := if d.mirrors && decide (d.spare ≠ noSpare) then some (d.watched, d.spare) else none }
  { d with fab := { d.fab with flight := d.fab.flight ++ [fl] } }

/-- The token that a flow gains at the start of each of its reserved slots, old slots of a moved flow left out. -/
def Dev.gainToken (d : Dev) (e v : Nat) : Dev :=
  let x := d.flow v
  if 4096 ≤ v ∨ x.state = .pending ∨ x.state = .free ∨ (x.movedAt ≠ 0 ∧ x.oldSlot e v) then d
  else d.setFlow v { x with tokens := min x.b.toNat (x.tokens + 1) }

/-- The reserved slot of egress e: a pending replay first, then the oldest cell not yet sent. The ingress that sends. -/
def Dev.sendReserved (d : Dev) (e v : Nat) : Dev × Option Nat :=
  let i := d.activeSrc e v
  let x := d.flow (v % 4096)
  let g := d.ing i
  let mine (r : ReplayEnt) : Bool :=
    decide (r.cell.flow.toNat = v % 4096) && decide (r.cell.dest.toNat = e) && slotFits x e v r.cell
  let pick := match g.replay.find? (fun r => mine r && r.due) with
    | some r => some r
    | none => g.replay.find? (fun r => mine r && !r.sent)
  match pick with
  | none => (d, none)
  | some r =>
    let d := d.setIng i { g with replay := g.replay.map (fun q =>
      if q.cell.num = r.cell.num then { q with sent := true, due := false, replayed := q.replayed || r.due } else q) }
    let d := d.launch r.cell i (some r.seq) r.due
    (if r.due then d.count (fabEpReplay i) else d, some i)

/-- What a slot has used: ingresses that send and egresses that receive, as bit masks. -/
structure SlotUse where
  dev : Dev
  busy : Nat
  got : Nat

/-- The reserved part of a slot. -/
def slotReserved (s : Nat) (u : SlotUse) (e : Nat) : SlotUse :=
  let v := calGet u.dev.fab.calActive e s
  if v = 0 then u
  else match (u.dev.gainToken e v).sendReserved e v with
    | (d, none) => { u with dev := d }
    | (d, some i) => { dev := d, busy := natBit u.busy i true, got := natBit u.got e true }

/-- Best-effort service of one egress (R155). -/
def slotBestEffort (u : SlotUse) (e : Nat) : SlotUse :=
  let d := u.dev
  if u.got.testBit e || !d.beSpace e then u
  else
    let p := mget (fun _ => 0) d.fab.bePtr e
    let has (i : Nat) : Bool := !u.busy.testBit i && (d.ing i).be.any (fun c => decide (c.dest.toNat = e))
    match (List.range 52).findSome? (fun k => if has ((p + k) % 52) then some ((p + k) % 52) else none) with
    | none => u
    | some i =>
      let g := d.ing i
      match g.be.find? (fun c => decide (c.dest.toNat = e)) with
      | none => u
      | some c =>
        let d := d.setIng i { g with be := g.be.eraseP (fun c => decide (c.dest.toNat = e)) }
        let d := d.launch c i none false
        let d := { d with fab := { d.fab with bePtr := mset (fun _ => 0) d.fab.bePtr e ((i + 1) % 52) } }
        { dev := d, busy := natBit u.busy i true, got := u.got }

/-- One slot of the core. -/
def Dev.slot (d : Dev) : Dev :=
  let s := d.fab.nextSlot.toNat % 512
  let u := (List.range 52).foldl (slotReserved s) { dev := d, busy := 0, got := 0 }
  let order := (List.range 52).map (fun k => (d.fab.beStart + k) % 52)
  let u := if u.dev.beStopped then u else order.foldl slotBestEffort u
  let d := u.dev
  { d with fab := { d.fab with nextSlot := d.fab.nextSlot + 1, beStart := (d.fab.beStart + 1) % 52 } }

/-- The boundary that the next slot needs has not been passed yet. -/
def Dev.boundaryDue (d : Dev) : Bool :=
  decide (d.fab.nextSlot.toNat % 512 = 0) &&
  (!d.fab.begun || decide (d.fab.nextSlot.toNat / 512 ≠ d.fab.period.toNat))


/-! ## Planes (R157, R163 to R167) -/

def Dev.plane (d : Dev) (p : Nat) : PlaneState := mget (fun _ => PlaneState.clean) d.fab.planes p

def Dev.setPlane (d : Dev) (p : Nat) (x : PlaneState) : Dev :=
  { d with fab := { d.fab with planes := mset (fun _ => PlaneState.clean) d.fab.planes p x } }

/-- A failed plane check: counted, and a plane that carries a slice is watched where no watch runs and the spare is free (R163, R164). -/
def Dev.planeFail (d : Dev) (p : Nat) : Dev :=
  let d := (d.count (fabPlaneFail p)).setPlane p { d.plane p with fails := (d.plane p).fails + 1 }
  if !d.watching && decide (d.spare ≠ noSpare) && d.carries p then
    let d := d.setReg fabPlaneWatch (BitVec.ofNat 32 (0x80000000 + p))
    { d with fab := { d.fab with watchFrom := d.fab.nextSlot.toNat + 4 } }
  else d

/-- An idle spare carries PRBS31 in each slot in which it mirrors nothing, and the egresses check it while SPARE_TEST is 1
(R165). A slot with a bad pattern counts as one failed check of the spare (DESIGN CHOICE, log 56: R164 counts cells). -/
def Dev.spareTested (d : Dev) : Bool := decide (d.spare ≠ noSpare) && d.rbit fabCtrl 1 && !d.mirrors

/-- SLOT_START: `spareBad` says that the pattern on the spare fails in this slot. -/
def execSlotStart (spareBad : Bool) (s : State) : Host.Outcome State Fault Refusal :=
  finish s (s.dev.cond (s.dev.fab.slotSet && !s.dev.boundaryDue) (fun d =>
    (d.cond (spareBad && d.spareTested) (fun d => d.planeFail d.spare)).slot))

def Path.plane (p : Nat) : Path := { region := none, unit := some p, sub := none }

/-- The watched plane hands its slice to the spare. -/
def Dev.retirePlane (d : Dev) (p : Nat) : Dev :=
  let sp := d.spare
  let d := d.forEach (List.range 4) (fun d k => if d.slicePlane k = p then d.setFld fabPlaneMap (3 * k) 3 sp else d)
  let d := (d.setFld fabPlaneMap 12 3 noSpare).setRbit fabPlaneMap (16 + p) true
  d.escalate clsPlane srcFabric (Path.plane p) []

/-- A failing spare is retired (R165). -/
def Dev.retireSpare (d : Dev) : Dev :=
  let sp := d.spare
  ((d.setRbit fabPlaneMap (16 + sp) true).setFld fabPlaneMap 12 3 noSpare).escalate clsPlane srcFabric (Path.plane sp) []

/-- The fabric becomes degraded (R166, R222). -/
def Dev.degrade (d : Dev) : Dev :=
  if d.degraded then d
  else (d.setRbit fabStatus 31 true).degradeFlows.escalate clsDegraded srcFabric Path.chip []

/-- PER_PERIOD and CONSEC (R179). -/
def Dev.failing (d : Dev) (p : Nat) : Bool :=
  let x := d.plane p
  let per := max 1 (d.fld fabPlaneThresh 0 8)
  let con := d.fld fabPlaneThresh 16 8
  !d.retired p && (decide (per ≤ x.fails) || (decide (con ≠ 0) && decide (con ≤ x.consec)))

/-- The planes at a period boundary (R164 to R166): a failing spare is retired, and a failing plane that is watched hands its
slice to a sound spare, in a degraded fabric too. Two planes that fail there while neither is watched leave the spare
unused, and a watched plane that fails there together with the spare keeps its slice (DESIGN CHOICE, log 56). -/
def Dev.planesAtBoundary (d : Dev) : Dev :=
  let d := d.forEach (List.range 5) (fun d p =>
    let x := d.plane p
    d.setPlane p { x with consec := if x.fails = 0 then 0 else x.consec + 1 })
  let failing := (List.range 5).filter d.failing
  let w := if d.watching then d.watched else noSpare
  let sp := d.spare
  let d := d.setReg fabPlaneWatch 0
  let d := d.forEach (List.range 5) (fun d p => d.setPlane p { d.plane p with fails := 0 })
  let spFail := decide (sp ≠ noSpare) && failing.contains sp
  let carrying := failing.filter d.carries
  let handsOver := carrying.contains w && decide (sp ≠ noSpare) && !spFail
  let lost := decide (1 < carrying.length) || (decide (carrying ≠ []) && (decide (sp = noSpare) || spFail))
  let d := (d.cond spFail Dev.retireSpare).cond handsOver (fun d => d.retirePlane w)
  if lost && !d.degraded then (d.forEach carrying (fun d p => d.setRbit fabPlaneMap (16 + p) true)).degrade else d

/-- The start test: the four lowest planes that pass carry the slices, the fifth is the spare (R167). Where fewer than four
pass, a slice with no plane left takes the plane of its own number, and planes that fail the test are not marked in RETIRED
(DESIGN CHOICE, log 56). -/
def Dev.planeTest (d : Dev) (good : BitVec 5) : Dev :=
  let ok := bitList 5 good.toNat
  let d := d.forEach (List.range 4) (fun d k => d.setFld fabPlaneMap (3 * k) 3 (ok.getD k k))
  let d := d.setFld fabPlaneMap 12 3 (ok.getD 4 noSpare)
  if ok.length < 4 then d.degrade else d

/-! ## Period boundaries (R150, R151, R154) -/

/-- The signed distance of device time to the nearest multiple of 2,048 ns, in units of 2⁻³² ns (R180). -/
def gridOffset (t : Time96) : Int :=
  let r : Nat := t.toNat % (2048 * 2 ^ 32)
  if r ≤ 1024 * 2 ^ 32 then (r : Int) else (r : Int) - 2048 * 2 ^ 32

/-- 6 ns (R151). -/
def gridBand : Int := 6 * 2 ^ 32

/-- The distance of a boundary that would fall at distance `off` with no steering, after a steering of `skew`: within the band
it stays there, and outside it the fabric slews towards the grid (R151). -/
def steered (off skew : Int) : Int :=
  if -gridBand ≤ off ∧ off ≤ gridBand then max (-gridBand) (min gridBand (off + skew))
  else if 0 < off then off - skew.natAbs else off + skew.natAbs

/-- The swap of every egress whose bit is set. -/
def Dev.swapCals (d : Dev) : Dev :=
  let es := bitList 52 d.fab.swapPend.toNat
  if es = [] then d
  else
    let d := d.forEach es (fun d e =>
      let a := d.fab.calActive
      let st := d.fab.calStaged
      { d with fab := { d.fab with calActive := calCopy st a e, calStaged := calCopy a st e,
                                   copyPend := setBit d.fab.copyPend e true } })
    let d := { d with fab := { d.fab with swapPend := 0 } }
    let d := d.seqUp calSwapCount
    let d := d.setReg (calSwapTime 0) (BitVec.ofNat 32 d.ns.toNat)
    d.setReg (calSwapTime 1) (BitVec.ofNat 32 (d.ns.toNat / 2 ^ 32))

/-- One period boundary at the device time that has been reached. FAB_GRID_OFFSET drops the fraction of a nanosecond towards
minus infinity, and a distance of exactly half a period shows as positive (DESIGN CHOICE, log 59: R151 and R180 give no
rounding). -/
def Dev.boundary (d : Dev) : Dev :=
  let off := gridOffset d.time.now
  let d := d.setReg fabGridOffset (BitVec.ofNat 32 (unsigned 32 (off / 2 ^ 32)))
  let d := d.setRbit fabStatus 29 (decide (-gridBand ≤ off ∧ off ≤ gridBand))
  let d := if d.fab.begun then d.planesAtBoundary else d
  let d := { d with fab := { d.fab with begun := true, boundaryUp := d.time.uptime, period := BitVec.ofNat 64 (d.fab.nextSlot.toNat / 512) } }
  let swapped := decide (d.fab.swapPend ≠ 0)
  let d := d.swapCals
  let d := d.forEach d.flowIds Dev.flowAtBoundary
  let d := d.cond swapped (fun d => d.forEach d.flowIds Dev.flowAtSwap)
  d.cond swapped (fun d => d.forEach (List.range 6) Dev.pairAtSwap)

/-- How far off the next boundary lies, in units of 2⁻³² ns: the first one at device time 4 ns × the slot count (R150), each
further one 2,048 ns after the one before it, steered by `skew` (R151). -/
def Dev.boundaryWait (d : Dev) (skew : Int) : Nat :=
  if d.fab.begun then
    let wait := d.fab.boundaryUp.toNat + 2048 * 2 ^ 32 - d.time.uptime.toNat
    let off := gridOffset (d.time.now + BitVec.ofNat 96 wait)
    ((wait : Int) + (steered off skew - off)).toNat
  else 4 * d.fab.nextSlot.toNat * 2 ^ 32 - d.time.now.toNat

/-- Before the first period after a start, the fabric sets the slot count from device time (R150). -/
def Dev.fabStart (d : Dev) : Dev :=
  let s := (d.ns.toNat / 4 + 511) / 512 * 512
  { d with fab := { d.fab with slotSet := true, begun := false, nextSlot := BitVec.ofNat 64 s } }

/-- The slots that are left of the period start first, in order; then its boundary is passed. -/
def Dev.periodBoundary (d : Dev) (skew : BitVec 31) : Dev :=
  let left := (512 - d.fab.nextSlot.toNat % 512) % 512
  let d := if d.boundaryDue then d
    else if d.fab.nextSlot.toNat % 512 = 0 then d.forEach (List.range 512) (fun d _ => d.slot)
    else d.forEach (List.range left) (fun d _ => d.slot)
  (d.pass (d.boundaryWait skew.toInt)).boundary

/-! ## Guarantee misses (R159, R162, R181, R230, R231) -/

def kindCheck : Nat := 1
def kindLate : Nat := 2

/-- A miss of flow f at egress e, where the promise holds. -/
def Dev.miss (d : Dev) (e : Nat) (c : Cell) (kind : Nat) : Dev :=
  let f := c.flow.toNat
  let x := d.flow f
  if x.holds then
    let d := (d.count (fabEpMiss e)).count fabMissCount
    let m := mget (fun _ => 0) d.fab.flowMiss f
    let d := { d with fab := { d.fab with
      flowMiss := mset (fun _ => 0) d.fab.flowMiss f (BitVec.ofNat 32 (min (m.toNat + 1) 0xFFFFFFFF)) } }
    let d := d.setReg fabMissLast (BitVec.ofNat 32 (0x80000000 + kind * 2 ^ 29 + e * 4096 + f))
    d.escalate clsMiss srcFabric (Path.ep e)
      (putLE 2 f ++ putLE 1 kind ++ putLE 1 c.src.toNat ++ putLE 1 e ++ [0] ++ putLE 2 c.astamp.toNat ++
       putLE 2 d.slotNow.toNat ++ [0, 0] ++ putLE 4 x.bound.toNat)
  else d

/-! ## Arrival at an egress (R158 to R163, R216, R218) -/

/-- An acknowledgement sets out for an ingress. -/
def Dev.sendAck (d : Dev) (fl : Flight) (good : Bool) : Dev :=
  match fl.seq with
  | none => d
  | some _ => { d with fab := { d.fab with acks := d.fab.acks ++ [{ ingress := fl.ingress, num := fl.cell.num, good }] } }

/-- The replay entry of a cell whose good copy has arrived. -/
def Dev.markArrived (d : Dev) (fl : Flight) : Dev :=
  match fl.seq with
  | none => d
  | some _ =>
    let g := d.ing fl.ingress
    d.setIng fl.ingress { g with replay := g.replay.map (fun r => if r.cell.num = fl.cell.num then { r with arrived := true } else r) }

def Dev.poolAdd (d : Dev) (e : Nat) (p : PoolEnt) : Dev := d.setPool e (d.pool e ++ [p])

/-- A cell with an undefined payload. -/
def Dev.blankCell (d : Dev) (c : Cell) : Cell := { c with err := true, payload := putLE 64 (d.freeVal 512).toNat }

/-- The cell is discarded at its egress, counted in ADM_EP_FROZEN_DROP. -/
def Dev.frozenDrop (d : Dev) (e : Nat) : Dev := d.count (admEpFrozenDrop e)

/-- A cell of a running endpoint, its checks made. -/
def Dev.arriveGood (d : Dev) (e : Nat) (fl : Flight) (x : Crossed) : Dev :=
  let good := x.good
  let c := if good then x.cell else fl.cell
  let f := c.flow.toNat
  let x := d.flow f
  if decide (f ≠ 0) && x.skipToSom && !c.som then
    let d := ((d.frozenDrop e).markArrived fl).sendAck fl true
    if c.acc then { d with fab := { d.fab with credits := d.fab.credits ++ [f] } } else d
  else
    let d := if decide (f ≠ 0) && x.skipToSom then d.setFlow f { x with skipToSom := false } else d
    if good then ((d.markArrived fl).sendAck fl true).poolAdd e { cell := c, missed := false, payloadOk := true }
    else if !c.acc then (d.poolAdd e { cell := d.blankCell c, missed := false, payloadOk := false }).freeNext
    else if !fl.second then d.sendAck fl false
    else
      let d := (d.miss e c kindCheck).markArrived fl
      ((d.sendAck fl true).poolAdd e { cell := d.blankCell c, missed := true, payloadOk := false }).freeNext

/-- The oldest cell on its way to egress e arrives; `flips`: bits that went wrong on the planes. Every failed plane check is
counted (R164). -/
def Dev.arrive (d : Dev) (e : Nat) (flips : List (Fin 5 × Fin 160)) : Dev :=
  match d.fab.flight.find? (fun fl => decide (fl.cell.dest.toNat = e)) with
  | none => d
  | some fl =>
    let d := { d with fab := { d.fab with flight := d.fab.flight.eraseP (fun fl => decide (fl.cell.dest.toNat = e)) } }
    let x := fl.cross flips
    let d := d.forEach x.failed Dev.planeFail
    if d.suspendedEp e then d.frozenDrop e else d.arriveGood e fl x

def execCellEgressArrival (e : Fin 52) (flips : List (Fin 5 × Fin 160)) (s : State) : Host.Outcome State Fault Refusal :=
  finish s (s.dev.arrive e flips)

/-- The first acknowledgement on its way to ingress e. -/
def Dev.ackArrive (d : Dev) (e : Nat) : Dev :=
  match d.fab.acks.find? (fun a => decide (a.ingress = e)) with
  | none => d
  | some a =>
    let d := { d with fab := { d.fab with acks := d.fab.acks.eraseP (fun a => decide (a.ingress = e)) } }
    let g := d.ing e
    if a.good then d.setIng e { g with replay := g.replay.filter (fun r => decide (r.cell.num ≠ a.num)) }
    else d.setIng e { g with replay := g.replay.map (fun r => if r.cell.num = a.num then { r with due := true } else r) }

def execAckArrival (e : Fin 52) (s : State) : Host.Outcome State Fault Refusal := finish s (s.dev.ackArrive e)

/-- A credit of flow f reaches its ingress (R129). -/
def Dev.creditReturn (d : Dev) (f : Nat) : Dev :=
  if f ∈ d.fab.credits then
    let d := { d with fab := { d.fab with credits := d.fab.credits.erase f } }
    let x := d.flow f
    d.setFlow f { x with credits := x.credits + 1 }
  else d

def execCreditReturn (f : Fin 4096) (s : State) : Host.Outcome State Fault Refusal := finish s (s.dev.creditReturn f)

/-! ## Handover (R117, R134, R135, R144, R158, R160 to R162, R169, R170) -/

/-- A cell of the flow accepted before `num` for this egress has not arrived yet. -/
def Dev.earlierMissing (d : Dev) (e f num : Nat) : Bool :=
  d.fab.ingress.any (fun g => g.2.replay.any (fun r =>
    decide (r.cell.flow.toNat = f) && decide (r.cell.dest.toNat = e) && decide (r.cell.num < num) && !r.arrived))

/-- The accepted cells of flow f in pool e, in order of acceptance. -/
def Dev.acceptedIn (d : Dev) (e f : Nat) : List PoolEnt :=
  insSort (fun a b => decide (a.cell.num ≤ b.cell.num))
    ((d.pool e).filter (fun p => decide (p.cell.flow.toNat = f) && p.cell.acc))

/-- The carried cells of flow f in pool e, in the order in which they were sent. -/
def Dev.carriedIn (d : Dev) (e f : Nat) : List PoolEnt :=
  (d.pool e).filter (fun p => decide (p.cell.flow.toNat = f) && !p.cell.acc)

/-- The cells leave the pool. -/
def Dev.unpool (d : Dev) (e : Nat) (ps : List PoolEnt) : Dev := d.setPool e ((d.pool e).filter (fun p => !ps.contains p))

/-- The credit of a cell that leaves the pool; none for a cell that kept the old DEST of a moved flow (R170, R226). -/
def Dev.credit (d : Dev) (e : Nat) (c : Cell) : Dev :=
  if c.acc && decide ((d.flow c.flow.toNat).dest.toNat = e) then
    { d with fab := { d.fab with credits := d.fab.credits ++ [c.flow.toNat] } }
  else d

/-- Handed over later than D (R162): never compared where a CHECK miss was recorded. -/
def Dev.isLate (d : Dev) (p : PoolEnt) : Bool :=
  let x := d.flow p.cell.flow.toNat
  p.cell.acc && !p.missed && x.holds && decide (x.bound.toNat < (d.slotNow - p.cell.astamp).toNat * 4)

/-- The valid payload bytes of a cell. -/
def cellBytes (c : Cell) : Nat := if c.eom then (if c.bytes = 0 then 64 else c.bytes.toNat) else 64

/-- The counters and the credit of one cell handed over. -/
def Dev.countHanded (d : Dev) (e : Nat) (c : Cell) : Dev :=
  ((d.statUp (fabEpCells e)).statUp (fabEpBytes e) (cellBytes c)).credit e c

/-- A request that a server is to answer has no usable reply flow, or its TYPE is unknown (R144). -/
def Dev.serverDiscards (d : Dev) (e : Nat) (h : List Byte) : Bool :=
  let t := getLE 1 h 0
  let answered := decide (t = 2) || decide (t = 4) || (decide (t = 1) && decide (getLE 1 h 1 % 2 = 1))
  let rf := getLE 2 h 4 % 4096
  decide (t = 0) || decide (4 < t) || (decide (t = 3) && isGatewayEp e) || (answered && !(d.flow rf).liveFrom e)

/-- The block-memory window of region n holds an address. -/
def inWindow (n a : Nat) : Bool := decide (0x0100000000 + n * 0x100000 ≤ a ∧ a < 0x0100000000 + n * 0x100000 + 0x100000)

/-- A SOM cell at a region's side B is a request for the region's window engine (R53, R141): a WRITE, READ_REQ or FENCE by its
TYPE, whatever its class, whose ADDRESS lies in the block-memory window. That a FENCE goes by its ADDRESS, and that any
message of such bytes is taken as a memory message, is a DESIGN CHOICE (log 56). -/
def forWindow (e : Nat) (c : Cell) : Bool :=
  let t := getLE 1 c.payload 0
  isRegionEp e && decide (e % 2 = 1) && (decide (t = 1) || decide (t = 2) || decide (t = 4)) &&
  inWindow (epRegion e) (getLE 5 c.payload 8)

/-- Where the message of a SOM cell goes: 0 on, 1 discarded by its server, 2 to the window engine. -/
def Dev.routeOf (d : Dev) (e : Nat) (c : Cell) : Nat :=
  let h := c.payload
  if isGatewayEp e then (if d.serverDiscards e h then 1 else 0)
  else if e = 48 then
    (if 1 ≤ getLE 1 h 0 ∧ getLE 1 h 0 ≤ 4 ∧ d.serverDiscards e h then 1 else 0)
  else if forWindow e c then (if d.serverDiscards e h then 1 else 2)
  else 0

/-- The request queue of a gateway that a message enters: logical bank × 4 + class (R419). -/
def Dev.gateKey (d : Dev) (e : Nat) (c : Cell) : Nat :=
  let a := getLE 5 c.payload 8
  let k := if a < 0x04000000 then a / 0x400000 else if a < 0x04400000 ∧ d.remapState = 1 then d.remapTarget else 16
  let k := if k / 2 = e - 40 ∧ k < 16 then k else 2 * (e - 40)
  k * 4 + (if c.cls = 0 then 2 else c.cls.toNat)

/-- The cells that a request queue holds. -/
def queueDepthOf (key : Nat) : Nat := if key % 4 = 1 then 256 else if key % 4 = 2 then 1024 else 512

/-- The queue and the side of it that a cell enters: a value `key × 2 + held`. -/
def Dev.gateSlot (d : Dev) (e : Nat) (c : Cell) : Nat :=
  if c.som then
    let key := d.gateKey e c
    key * 2 + b2n (d.rbit (bankOwner (key / 4)) 31)
  else mget (fun _ => 0) d.bank.route (msgKey e c) - 1

/-- A gateway's queue has room for the cell (R419). -/
def Dev.gateRoom (d : Dev) (e : Nat) (c : Cell) : Bool :=
  let key := d.gateSlot e c / 2
  decide ((mget (fun _ => []) d.bank.queues key).length + (mget (fun _ => []) d.bank.heldq key).length < queueDepthOf key)

/-- The handover into a gateway's request queue. -/
def Dev.gateTake (d : Dev) (e : Nat) (c : Cell) : Dev :=
  let v := d.gateSlot e c
  let key := v / 2
  let b := d.bank
  let b := { b with route := mset (fun _ => 0) b.route (msgKey e c) (if c.eom then 0 else v + 1) }
  let b := if v % 2 = 1 then
      { b with heldq := mset (fun _ => []) b.heldq key (mget (fun _ => []) b.heldq key ++ [c]) }
    else { b with queues := mset (fun _ => []) b.queues key (mget (fun _ => []) b.queues key ++ [c]) }
  { d with bank := b }

/-- The destination takes a cell at its handover point. -/
def Dev.sink (d : Dev) (e route : Nat) (c : Cell) : Dev :=
  if route = 1 then d
  else if route = 2 then
    let n := epRegion e
    { d with logic := { d.logic with
        winq := mset (fun _ => []) d.logic.winq n (mget (fun _ => []) d.logic.winq n ++ [c]) } }
  else if isGatewayEp e then d.gateTake e c
  else if isRegionEp e then d.setRx e [c]
  else if e = 49 ∨ e = 50 then d.storeCell (e - 49) c
  else d.setRx e (d.rxCells e ++ [c])

/-- The handover of one cell at a cut-through egress. ERR is 1 on a cell with an undefined payload, on a late one (R162), and on
the EOM cell of an errored message (R133). -/
def Dev.handCell (d : Dev) (e : Nat) (p : PoolEnt) : Dev :=
  let c := p.cell
  let k := msgKey e c
  let late := d.isLate p
  let d := d.unpool e [p]
  let d := d.cond late (fun d => d.miss e c kindLate)
  let bad := c.err || late || d.egErr k
  let c' := { c with err := !p.payloadOk || late || (c.eom && bad) }
  let d := d.countHanded e c
  let d := d.setEgErr k (bad && !c.eom)
  let d := d.cond (c.eom && bad) (fun d => d.count (fabEpErrmsg e))
  let route := if c.som then d.routeOf e c else d.msgRoute k
  let d := d.cond (c.som && decide (route = 1))
    (fun d => (d.count (fabEpBadMsg e)).setRbit (fabEpStatus e) 2 true)
  let d := d.setMsgRoute k (if c.eom then 0 else route)
  let d := d.sink e route c'
  let x := d.flow c.flow.toNat
  d.cond (c.eom && isRegionEp e && x.event && decide (c.flow ≠ 0)) (fun d => d.hwSignal x.eventObj.toNat)

/-- The first whole message in a list of pool cells, up to its EOM. -/
def wholeMessage (ps : List PoolEnt) : Option (List PoolEnt) :=
  let upTo := ps.takeWhile (fun p => !p.cell.eom)
  match ps.drop upTo.length with
  | [] => none
  | p :: _ => some (upTo ++ [p])

/-- The message of flow f that a port egress can hand over: an accepted one whose cells are all in, or a carried one. -/
def Dev.portMessage (d : Dev) (e f : Nat) : Option (List PoolEnt) :=
  let acc := match wholeMessage (d.acceptedIn e f) with
    | some m => if d.earlierMissing e f ((m.getLast?.map (fun (p : PoolEnt) => p.cell.num)).getD 0) then none else some m
    | none => none
  match acc with
  | some m => some m
  | none =>
    let cs := d.carriedIn e f
    cs.findSome? (fun (p : PoolEnt) => wholeMessage (cs.filter (fun (q : PoolEnt) => decide (q.cell.src = p.cell.src))))

/-- The handover of a whole message at a port egress: an errored one is discarded before it (R160, R161). -/
def Dev.handMessage (d : Dev) (e : Nat) (m : List PoolEnt) : Dev :=
  let late := m.getLast?.any d.isLate
  let d := d.unpool e m
  if m.any (fun p => p.cell.err) then (d.forEach m (fun d p => d.credit e p.cell)).count (fabEpErrmsg e)
  else
    let d := match late, m.getLast? with
      | true, some p => d.miss e p.cell kindLate
      | _, _ => d
    let d := d.forEach m (fun d p => d.countHanded e p.cell)
    if d.isRaw e then d.forEach m (fun d p => d.rawEnqueue e p.cell)
    else d.macEnqueue e ((m.head?.map (fun p => p.cell.flow)).getD 0) (messageBytes (m.map (fun p => p.cell)))

/-- The next cell of flow f that a cut-through egress can hand over. -/
def Dev.nextCell (d : Dev) (e f : Nat) (beReady : Bool) : Option PoolEnt :=
  let acc := match (d.acceptedIn e f).head? with
    | some p => if d.earlierMissing e f p.cell.num then none else some p
    | none => none
  match acc with
  | some p => some p
  | none => if beReady || !isRegionEp e then (d.carriedIn e f).head? else none

/-- CELL_HANDOVER: a suspended or sleeping endpoint takes nothing; a full request queue or receive store makes a cell
wait (R419, R486). -/
def Dev.handover (d : Dev) (e f : Nat) (beReady : Bool) : Dev :=
  if d.epCauses e ≠ 0 then d
  else if isLaneEp e then
    match d.portMessage e f with
    | some m => d.handMessage e m
    | none => d
  else match d.nextCell e f beReady with
    | none => d
    | some p =>
      let drops := (if p.cell.som then d.routeOf e p.cell else d.msgRoute (msgKey e p.cell)) = 1
      if isGatewayEp e && !drops && !d.gateRoom e p.cell then d
      else if (e = 49 ∨ e = 50) && d.storeShut (e - 49) p.cell.flow.toNat then d
      else d.handCell e p

def execCellHandover (e : Fin 52) (f : Fin 4096) (beReady : Bool) (s : State) : Host.Outcome State Fault Refusal :=
  finish s (s.dev.handover e f beReady)

/-! ## FAB_ registers (R172 to R190) -/

/-- BE_STOP of FAB_CTRL is written (R156, R176). -/
def Dev.fabCtrlWrite (d : Dev) (v : Word) : Dev := d.setReg fabCtrl (v &&& 3)

/-- Only the hive writes FAB_ registers (R173). -/
def hiveWrite (d : Dev) (id : Fin 13) (off : Nat) (f : Dev → Dev) : Dev :=
  if id = 0 then f d else d.ctrlDecode id.val true false off

def execBeStop (id : Fin 13) (v : Word) (s : State) : Host.Outcome State Fault Refusal :=
  finishBy id s (hiveWrite s.dev id fabCtrl (fun d => d.fabCtrlWrite v))

/-- FAB_FLOW_SEL (R182). -/
def Dev.flowSelWrite (d : Dev) (v : Word) : Dev :=
  let f := bits v 0 12
  let d := d.setReg fabFlowSel (BitVec.ofNat 32 f)
  if bit v 31 then
    { d with fab := { d.fab with flowAcc := mset (fun _ => Stat.zero) d.fab.flowAcc f Stat.zero,
                                 flowMiss := mset (fun _ => 0) d.fab.flowMiss f 0 } }
  else d

def execFabFlowSel (id : Fin 13) (v : Word) (s : State) : Host.Outcome State Fault Refusal :=
  finishBy id s (hiveWrite s.dev id fabFlowSel (fun d => d.flowSelWrite v))

/-- FAB_EP_CLEAR.ALL clears the endpoint's statistics counters (R172). -/
def Dev.fabEpClear (d : Dev) (e : Nat) (v : Word) : Dev :=
  if bit v 0 then d.forEach [fabEpAcc e, fabEpCarry e, fabEpDrop e, fabEpCells e, fabEpBytes e] Dev.statClear else d

def execFabEpClear (id : Fin 13) (e : Fin 52) (v : Word) (s : State) : Host.Outcome State Fault Refusal :=
  finishBy id s (hiveWrite s.dev id (0x201058 + 0x80 * e.val) (fun d => d.fabEpClear e v))

/-- The hit and miss counters of a classifier, and its event counters. -/
def clsHit (p : Nat) : Nat := fabCls p + 0x40
def clsMissCnt (p : Nat) : Nat := fabCls p + 0x48
def clsStale (p : Nat) : Nat := fabCls p + 0x50
def clsOversize (p : Nat) : Nat := fabCls p + 0x54
def clsStageDrop (p : Nat) : Nat := fabCls p + 0x58
def clsResult (p : Nat) : Nat := fabCls p + 0x30
def clsCmd (p : Nat) : Nat := fabCls p + 0x34
def clsKey (p i : Nat) : Nat := fabCls p + 0x20 + 4 * i

/-- FAB_CLS_CTRL: CLEAR acts and reads 0 (R187). -/
def Dev.clsCtrlWrite (d : Dev) (p : Nat) (v : Word) : Dev :=
  let d := d.setReg (fabCls p) (v &&& 0xC03F0FFF)
  if bit v 29 then (d.statClear (clsHit p)).statClear (clsMissCnt p) else d

def execFabClsClear (id : Fin 13) (p : Fin 16) (v : Word) (s : State) : Host.Outcome State Fault Refusal :=
  finishBy id s (hiveWrite s.dev id (fabCls p) (fun d => d.clsCtrlWrite p (setBit v 29 true)))

/-- FAB_CLS_FIELDi: BASE 0b11 leaves the register unchanged (R188). -/
def Dev.clsFieldWrite (d : Dev) (p i : Nat) (v : Word) : Dev :=
  if bits v 29 2 = 3 then d else d.setReg (fabCls p + 0x10 + 4 * i) (v &&& 0xE00003FF)

def Dev.clsEntry (d : Dev) (p i : Nat) : ClsEntry := mget (fun _ => ClsEntry.blank) d.fab.cls (p * 4096 + i)

def Dev.setClsEntry (d : Dev) (p i : Nat) (x : ClsEntry) : Dev :=
  { d with fab := { d.fab with cls := mset (fun _ => ClsEntry.blank) d.fab.cls (p * 4096 + i) x } }

/-- The 128-bit key of FAB_CLS_KEY0–3. -/
def Dev.clsKeyReg (d : Dev) (p : Nat) : BitVec 128 :=
  BitVec.ofNat 128 ((List.range 4).foldl (fun a i => a + (d.reg (clsKey p i)).toNat * 2 ^ (32 * i)) 0)

/-- A valid entry at another index holds the key. -/
def Dev.clsDup (d : Dev) (p idx : Nat) : Bool :=
  d.fab.cls.any (fun e =>
    decide (e.1 / 4096 = p) && decide (e.1 % 4096 ≠ idx) && e.2.valid && decide (e.2.key = d.clsKeyReg p))

/-- A write of FAB_CLS_CMD starts an access while BUSY = 0 (R190). Until the access is done, OP stands in bits [25:24]
and the entry of the access in bits [23:12], which read 0. A write without an access sets INDEX alone. -/
def Dev.clsCmdWrite (d : Dev) (p : Nat) (v : Word) : Dev :=
  let op := bits v 24 2
  let now := d.reg (clsCmd p)
  let i := bits v 0 12
  if op ≠ 0 ∧ bit now 31 then d
  else if op = 1 ∨ op = 2 then
    d.setReg (clsCmd p) (setBits (setBits (setBit (setBit (BitVec.ofNat 32 i) 30 (bit now 30)) 31 true) 24 2 op) 12 12 i)
  else d.setReg (clsCmd p) (setBits now 0 12 i)

def execClsEntryWrite (id : Fin 13) (p : Fin 16) (index : BitVec 12) (s : State) : Host.Outcome State Fault Refusal :=
  finishBy id s (hiveWrite s.dev id (clsCmd p) (fun d => d.clsCmdWrite p (BitVec.ofNat 32 (0x01000000 + index.toNat))))

def execClsEntryRead (id : Fin 13) (p : Fin 16) (index : BitVec 12) (s : State) : Host.Outcome State Fault Refusal :=
  finishBy id s (hiveWrite s.dev id (clsCmd p) (fun d => d.clsCmdWrite p (BitVec.ofNat 32 (0x02000000 + index.toNat))))

/-- The access ends and BUSY falls. FAB_CLS_KEY0–3 and FAB_CLS_RESULT are taken as they stand at its end (DESIGN CHOICE, log 59:
R190 does not say when the access takes them). -/
def Dev.clsDone (d : Dev) (p : Nat) : Dev :=
  let w := d.reg (clsCmd p)
  if bit w 31 then
    let idx := bits w 12 12
    let rest := BitVec.ofNat 32 (bits w 0 12)
    if bits w 24 2 = 1 then
      if d.clsDup p idx then d.setReg (clsCmd p) (setBit rest 30 true)
      else
        (d.setClsEntry p idx { key := d.clsKeyReg p, valid := d.rbit (clsResult p) 31,
                               flow := BitVec.ofNat 12 (d.reg (clsResult p)).toNat }).setReg (clsCmd p) rest
    else
      let x := d.clsEntry p idx
      let d := d.forEach (List.range 4) (fun d i => d.setReg (clsKey p i) (BitVec.ofNat 32 (x.key.toNat / 2 ^ (32 * i))))
      let d := d.setReg (clsResult p) (setBit (x.flow.setWidth 32) 31 x.valid)
      d.setReg (clsCmd p) (setBit rest 30 (bit w 30))
  else d

def execClsAccessDone (p : Fin 16) (s : State) : Host.Outcome State Fault Refusal := finish s (s.dev.clsDone p)

/-! ## What the FAB_ and CAL_ registers read -/

/-- FAB_EP_CFG: capacity and classes (R184). -/
def Dev.epCfg (d : Dev) (e : Nat) : Word := BitVec.ofNat 32 (d.classesOf e * 65536 + epCapacity e)

/-- One entry of a calendar word (R193). -/
def calEntry (v : Nat) : Nat := if v = 0 then 0 else 0x8000 + v % 4096

def calWord (m : List (Nat × Nat)) (e i : Nat) : Word :=
  BitVec.ofNat 32 (calEntry (calGet m e (2 * i)) + calEntry (calGet m e (2 * i + 1)) * 65536)

/-- The slots in which ingress e is reserved, over all active tables. -/
def Dev.calSends (d : Dev) (e : Nat) : Nat :=
  (d.fab.calActive.filter (fun x => decide (d.activeSrc (x.1 / 512) x.2 = e))).length

/-- The computed registers of the fabric core and the calendars. -/
def Dev.fabView (d : Dev) (off : Nat) : Option Word :=
  if off = fabStatus then some (setBit (d.reg fabStatus) 30 d.beStopped)
  else if off = 0x200028 then some d.fabPeriod
  else if off = 0x20004C then some (mget (fun _ => 0) d.fab.flowMiss (d.fld fabFlowSel 0 12))
  else if 0x201000 ≤ off ∧ off < 0x202A00 then
    let e := (off - 0x201000) / 0x80
    match (off - 0x201000) % 0x80 with
    | 0x00 => some (d.epCfg e)
    | 0x08 => some (BitVec.ofNat 32 (d.beLevel e))
    | 0x0C => some (BitVec.ofNat 32 (d.allocAt e))
    | 0x10 => some (BitVec.ofNat 32 (d.ing e).replay.length)
    | 0x14 => some (BitVec.ofNat 32 (min 64 (d.ing e).be.length))
    | _ => none
  else if 0x204000 ≤ off ∧ off < 0x205000 then
    let p := (off - 0x204000) / 0x100
    match (off - 0x204000) % 0x100 with
    | 0x34 => some (d.reg (clsCmd p) &&& 0xC0000FFF)
    | 0x38 => some (BitVec.ofNat 32 (d.fab.cls.filter (fun (e : Nat × ClsEntry) => decide (e.1 / 4096 = p) && e.2.valid)).length)
    | _ => none
  else if 0x210000 ≤ off ∧ off < 0x21D000 then
    some (calWord d.fab.calActive ((off - 0x210000) / 0x400) ((off - 0x210000) % 0x400 / 4))
  else if 0x220000 ≤ off ∧ off < 0x22D000 then
    some (calWord d.fab.calStaged ((off - 0x220000) / 0x400) ((off - 0x220000) % 0x400 / 4))
  else if off = 0x230000 then some (BitVec.ofNat 32 d.fab.swapPend.toNat)
  else if off = 0x230004 then some (BitVec.ofNat 32 (d.fab.swapPend.toNat / 2 ^ 32))
  else if 0x230100 ≤ off ∧ off < 0x2301D0 then
    some (BitVec.ofNat 32 (calOf d.fab.calActive ((off - 0x230100) / 4)).length)
  else if 0x230200 ≤ off ∧ off < 0x2302D0 then some (BitVec.ofNat 32 (d.calSends ((off - 0x230200) / 4)))
  else none

/-- Reads that a region control port may make (R173). -/
def Dev.fabReadOk (d : Dev) (id : Fin 13) (off : Nat) : Bool :=
  let n := id.val - 1
  let e := (off - 0x201000) / 0x80
  decide (id = 0) ||
  (d.granted id 1 && decide (0x201000 ≤ off ∧ off < 0x202A00) && (decide (e = 16 + 2 * n) || decide (e = 17 + 2 * n)))

end Sys2Proof.Machine
end

