-- ==== Sys2Proof/Machine/HiveOps.lean ====
section
/-! DEFINITION. The hive as shared operations: status codes and error payloads, packets, transports, replies, requests
taken up, jobs and tickets (R510 to R523, R529). -/
namespace Sys2Proof.Machine

/-! ## Error payloads (R515) -/

def detHeaderCrc : Nat := 1
def detPacketCrc : Nat := 2
def detVersion : Nat := 3
def detLength : Nat := 4
def detReserved : Nat := 5
def detRange : Nat := 6
def detNoSession : Nat := 7
def detTicket : Nat := 8
def detDecode : Nat := 9
def detTransport : Nat := 10
def detTicketsFull : Nat := 11
def detInProgress : Nat := 12
def detState : Nat := 13

def errPayload (detail : Nat) (arg : Nat := 0) : List Byte := putLE 2 detail ++ zeros 2 ++ putLE 4 arg

/-- What a command answers: its status and its payload. -/
abbrev Answer : Type := Nat × List Byte

def ansOk (p : List Byte := []) : Answer := (stOk, p)
def ansErr (status detail : Nat) (arg : Nat := 0) : Answer := (status, errPayload detail arg)
def ansBad (detail : Nat) (arg : Nat := 0) : Answer := ansErr stBadParam detail arg
def ansBusy (detail : Nat) : Answer := ansErr stBusy detail
def ansLife : Answer := ansErr stDeniedLifecycle 0
def ansFence : Answer := ansErr stDeniedFence 0

/-! ## Transports -/

/-- The transport number of R544. -/
def viaNum : Via → Nat
  | .spi => 0
  | .i2c => 1
  | .ep48 _ => 2
  | .jtag => 3

def isEp48 : Via → Bool
  | .ep48 _ => true
  | _ => false

def Dev.hport (d : Dev) : Via → HivePort
  | .spi => d.hive.spi
  | .i2c => d.hive.i2c
  | .jtag => d.hive.jtag
  | .ep48 e => mget (fun _ => HivePort.idle) d.hive.ep48 e.val

def Dev.setHport (d : Dev) (v : Via) (p : HivePort) : Dev :=
  match v with
  | .spi => { d with hive := { d.hive with spi := p } }
  | .i2c => { d with hive := { d.hive with i2c := p } }
  | .jtag => { d with hive := { d.hive with jtag := p } }
  | .ep48 e => { d with hive := { d.hive with ep48 := mset (fun _ => HivePort.idle) d.hive.ep48 e.val p } }

/-- The largest parameter or payload length on a transport (R513). -/
def viaLimit : Via → Nat
  | .ep48 _ => 16364
  | _ => 16896

/-- A reply packet (R510, R511). -/
def Reply.packet (r : Reply) : List Byte :=
  let head : List Byte := [0xA8, 0x01] ++ putLE 2 r.status.toNat ++ putLE 2 r.tag.toNat ++
    putLE 2 (b2n r.replayed + 2 * b2n r.alert) ++ putLE 4 r.payload.length
  let body := head ++ putLE 4 (crc32c head) ++ r.payload
  body ++ putLE 4 (crc32c body)

/-- The lowest-numbered LIVE flow from 48 to a source endpoint (R529). -/
def Dev.replyFlow48 (d : Dev) (e : Nat) : Option Nat :=
  d.flowIds.find? (fun f => decide ((d.flow f).state = .live) && decide ((d.flow f).src.toNat = 48) &&
    decide ((d.flow f).dest.toNat = e))

/-- A reply leaves: at endpoint 48 as a message, or it is discarded and counted. -/
def Dev.emitReply (d : Dev) (v : Via) (r : Reply) : Dev :=
  match v with
  | .ep48 e =>
    match d.replyFlow48 e.val with
    | some f => d.sendMessage 48 f 0 0 r.packet
    | none => d.count imfaDrop
  | _ => d

/-- A reply leaves, and stays stored at its transport (R518). -/
def Dev.sendReply (d : Dev) (v : Via) (r : Reply) : Dev :=
  (d.setHport v { d.hport v with reply := some r, rptr := 0 }).emitReply v r

/-- ALERT_N is asserted now (R39). -/
def Dev.alertPin (d : Dev) : Bool := d.alertNow

/-- The reply to a request, with ALERT as it stands (R511). -/
def Dev.newReply (d : Dev) (tag : BitVec 16) (a : Answer) : Reply :=
  { tag, status := BitVec.ofNat 16 a.1, alert := d.alertPin, replayed := false, payload := a.2 }

/-- A reply to the latest request of a transport. -/
def Dev.reply (d : Dev) (v : Via) (tag : BitVec 16) (a : Answer) : Dev := d.sendReply v (d.newReply tag a)

/-- A request that the transport has received since the one being executed: it waits, or has been refused at once. -/
def Dev.superseded (d : Dev) (v : Via) : Bool := (d.hport v).newer || d.hive.waiting.any (fun w => decide (w.via = v))

/-- The reply to an executed request: a transport that has received a newer request keeps nothing of it (R518). -/
def Dev.jobReply (d : Dev) (r : Req) (a : Answer) : Dev :=
  if d.superseded r.via then d.emitReply r.via (d.newReply r.tag a) else d.reply r.via r.tag a

/-- The transport once a request of it is taken up: the reply to a newer one, refused at once, stays (R518, R519). -/
def HivePort.takes (p : HivePort) (r : Req) : HivePort :=
  { p with latest := some (r.opcode, r.tag), reply := if p.newer then p.reply else none }

/-! ## Jobs and tickets (R520 to R522) -/

/-- A command that is being executed without a ticket: the hive takes up no other one (R517). -/
def Job.current (j : Job) : Bool := j.ticket.isNone && !j.gone

def Dev.currentJob (d : Dev) : Option Job := d.hive.jobs.find? Job.current

def Dev.setJobs (d : Dev) (js : List Job) : Dev := { d with hive := { d.hive with jobs := js } }

/-- Tickets held. -/
def Dev.ticketsHeld (d : Dev) : Nat := (d.hive.jobs.filter (fun j => j.ticket.isSome)).length

def Dev.ticketsFull (d : Dev) : Bool := decide (16 ≤ d.ticketsHeld)

/-- The payload of a PENDING reply (R521). -/
def pendingPayload (t : Word) (progress : Byte) : List Byte := putLE 4 t.toNat ++ [progress, 0, 0, 0]

/-- A TICKET value that has not been issued since the hive reset: a free value, moved on past the issued ones. -/
def Dev.newTicket (d : Dev) : Word × Dev :=
  let v : Word := d.freeVal 32
  let t := ((List.range (d.hive.tickets.length + 1)).map (fun i => v + BitVec.ofNat 32 i)).find?
    (fun t => !d.hive.tickets.contains t)
  let t := t.getD v
  (t, { d.freeNext with hive := { d.hive with tickets := t :: d.hive.tickets } })

/-- A job begins as the command that the hive executes. -/
def Dev.openJob (d : Dev) (r : Req) (k : JobKind) : Dev :=
  d.setJobs (d.hive.jobs ++ [{ req := r, kind := k, progress := 0xFF, ticket := none, final := none, gone := false }])

/-- The hive answers PENDING with a ticket, and the work goes on. -/
def Dev.ticketCurrent (d : Dev) : Dev :=
  match d.currentJob with
  | none => d
  | some j =>
    let (t, d) := d.newTicket
    let d := d.setJobs (d.hive.jobs.map (fun x => if x.current then { x with ticket := some t } else x))
    d.jobReply j.req (stPending, pendingPayload t j.progress)

/-- The commands that always answer PENDING first. -/
def Dev.startTicketJob (d : Dev) (r : Req) (k : JobKind) : Dev := (d.openJob r k).ticketCurrent

/-- The job that a hardware event ends. -/
def Dev.jobOf (d : Dev) (p : JobKind → Bool) : Option Job := d.hive.jobs.find? (fun j => p j.kind && j.final.isNone)

/-- A job ends: the current command replies, a ticket keeps the final reply for its poll, and work that has outlived its
request ends without one. -/
def Dev.endJob (d : Dev) (p : JobKind → Bool) (a : Answer) : Dev :=
  match d.jobOf p with
  | none => d
  | some j =>
    if j.gone then d.setJobs (d.hive.jobs.erase j)
    else match j.ticket with
      | none => (d.setJobs (d.hive.jobs.filter (fun x => !x.current))).jobReply j.req a
      | some t =>
        d.setJobs (d.hive.jobs.map (fun x =>
          if x.ticket = some t then { x with final := some (BitVec.ofNat 16 a.1, a.2) } else x))

/-- Every job of a kind ends. -/
def Dev.endJobs (d : Dev) (p : JobKind → Bool) (a : Answer) : Dev :=
  d.forEach (d.hive.jobs.filter (fun j => p j.kind && j.final.isNone)) (fun d _ => d.endJob p a)

/-- A job goes on as another kind: the next part of its work. -/
def Dev.jobBecome (d : Dev) (p : JobKind → Bool) (k : JobKind) : Dev :=
  match d.jobOf p with
  | none => d
  | some j => d.setJobs (d.hive.jobs.map (fun x => if x = j then { x with kind := k } else x))

/-! ## Taking up a request (R517, R519) -/

/-- A command's meaning over its request: the device it leaves and its answer; no answer where a job goes on. -/
abbrev Command : Type := Dev → Req → Dev × Option Answer

/-- The reply of `n` bytes fits the transport (R513). -/
def replyFits (r : Req) (n : Nat) : Bool := decide (n ≤ viaLimit r.via)

/-- The hive takes up the oldest request, where it is free, ready and the request carries this opcode. -/
def Dev.imfa (d : Dev) (opcode : Nat) (f : Command) : Dev :=
  if d.hive.ready && d.currentJob.isNone then
    match d.hive.waiting with
    | [] => d
    | r :: rest =>
      if r.opcode.toNat = opcode then
        let d := { d with hive := { d.hive with waiting := rest } }
        let d := d.count (imfaReq (viaNum r.via))
        let d := d.setHport r.via ((d.hport r.via).takes r)
        match f d r with
        | (d, some a) => d.jobReply r a
        | (d, none) => d
      else d
  else d

/-- A command that answers PENDING, or may have to, needs a free ticket (R521). -/
def Dev.needTicket (d : Dev) : Option Answer := if d.ticketsFull then some (ansBusy detTicketsFull) else none

/-- Check 7 of R514: the length, then reserved bytes, then ranges; none where all hold. -/
def checkParams (r : Req) (len : Nat) (zeroBytes : List (Nat × Nat)) (ranges : List (Nat × Nat × Nat × Nat)) : Option Answer :=
  if r.len ≠ len then some (ansBad detLength)
  else if zeroBytes.any (fun z => decide (Nat.land (r.u 1 z.1) z.2 ≠ 0)) then some (ansBad detReserved)
  else (ranges.find? (fun x => decide (r.u x.2.1 x.1 < x.2.2.1) || decide (x.2.2.2 < r.u x.2.1 x.1))).map
    (fun x => ansBad detRange x.1)

/-- Reserved parameter bytes. -/
def zb (os : List Nat) : List (Nat × Nat) := os.map (fun o => (o, 0xFF))

/-- Runs a command behind its parameter check. -/
def checked (len : Nat) (zeroBytes : List (Nat × Nat)) (ranges : List (Nat × Nat × Nat × Nat)) (f : Command) : Command :=
  fun d r => match checkParams r len zeroBytes ranges with
    | some a => (d, some a)
    | none => f d r

end Sys2Proof.Machine
end

