-- ==== Sys2Proof/Machine/Sched.lean ====
section
/-! DEFINITION. The hardware thread scheduler (chapter 09): calls at the dispatch ports and through SCH_CMD, event
service, timers, waits, and the spill and refill of thread records. -/
namespace Sys2Proof.Machine

/-- RES_CODE values (R456). -/
def resOk : Nat := 0
def resBlocked : Nat := 1
def resTimeout : Nat := 2
def resOverflow : Nat := 3
def resBadHandle : Nat := 4
def resBadParam : Nat := 5
def resSpillFull : Nat := 6

/-- RESULT values (R447). -/
def rsltNone : Nat := 0
def rsltSignalled : Nat := 1
def rsltTimeout : Nat := 2
def rsltPreempted : Nat := 3
def rsltFrozen : Nat := 4
def rsltTimeshift : Nat := 5

/-! ## CREATE (R455, R464) -/

/-- An INDEX that names a FREE record; which one is open (R445, R446). -/
def Dev.pickIndex (d : Dev) : Nat :=
  match pickFrom (d.freeVal 16).toNat (onChipMax + d.spillCap) (fun k => decide ((d.thread (k + 1)).state = .free)) with
  | some k => k + 1
  | none => 0

/-- The result of a call goes to the port or to the identity that made it (R456, R472). -/
def Dev.result (d : Dev) (c : Caller) (code : Nat) (handle : BitVec 24 := 0) : Dev :=
  match c with
  | .port p => d.portResult p code handle
  | .gone => d
  | .bus id => d.setIdReg id schCmdRes (BitVec.ofNat 32 (code * 0x1000000 + handle.toNat))

/-- A free on-chip record is taken: a new READY thread with RESULT NONE. -/
def Dev.newThread (d : Dev) (a : CreateArgs) : Dev :=
  let i := d.pickIndex
  let t : Thread := { Thread.blank with gen := (d.thread i).gen, state := .ready, priority := a.priority, dl := a.dl,
                                        affinity := a.affinity, deadline := a.deadline, cookie := a.cookie }
  let d := (d.freeNext.setThread i t).makeReady i rsltNone
  d.result a.caller resOk (handleOf i t)

/-- CREATE refused: SPILL_FULL, counted and escalated. -/
def Dev.createRefused (d : Dev) (c : Caller) : Dev :=
  ((d.count schCreateRefused).escalate clsSpill srcSched Path.chip []).result c resSpillFull

/-- Every CREATE that waits for a spill is refused. -/
def Dev.refuseCreates (d : Dev) : Dev :=
  let xs := d.sched.waitingCreates
  Dev.forEach { d with sched := { d.sched with waitingCreates := [] } } xs (fun d a => d.createRefused a.caller)

/-- An on-chip record is free, beside the one that a refill in progress fills. -/
def Dev.recordFree (d : Dev) : Bool :=
  let filling := match d.sched.job with
    | some (.refill _ _) => 1
    | _ => 0
  decide (d.onChip + filling < onChipMax)

/-- The waiting CREATE calls that find a free on-chip record are performed, in order. -/
def Dev.serveCreates (d : Dev) : Dev :=
  let todo := d.sched.waitingCreates
  d.forEach todo (fun d a =>
    if d.recordFree then
      ({ d with sched := { d.sched with waitingCreates := d.sched.waitingCreates.tail } }).newThread a
    else d)

/-- What the scheduler does once its threads have changed (R464 to R466): a CREATE that waits takes a free record or, when no
spill or refill is in progress, has one spilled or is refused. -/
def Dev.rebalance (d : Dev) : Dev :=
  let d := d.serveCreates
  if d.sched.job.isSome || decide (d.sched.waitingCreates = []) then d.balance
  else match d.victim with
    | some v => if d.canSpill then d.startSpill v else d.refuseCreates
    | none => d.refuseCreates

/-- After every change of the threads or ports: outstanding TAKE_NEXT calls, then spills and refills. -/
def Dev.reschedule (d : Dev) : Dev := d.serveTakeNext.rebalance

/-- CREATE with its checks. -/
def Dev.create (d : Dev) (a : CreateArgs) : Dev :=
  if a.affinity = 0 then d.result a.caller resBadParam
  else if d.recordFree then (d.newThread a).reschedule
  else if d.canSpill && !d.sched.job.isSome then
    ({ d with sched := { d.sched with waitingCreates := d.sched.waitingCreates ++ [a] } }).reschedule
  else if d.sched.job.isSome && !d.rbit schStatus spillHaltBit then
    { d with sched := { d.sched with waitingCreates := d.sched.waitingCreates ++ [a] } }
  else d.createRefused a.caller

/-! ## The calls (R455 to R458) -/

/-- A call outstanding at a port: a TAKE_NEXT, or a CREATE that waits for a spill (R453). -/
def Dev.callBusy (d : Dev) (c : Caller) : Bool :=
  d.sched.waitingCreates.any (fun a => decide (a.caller = c)) ||
  (match c with
   | .port p => (d.dport p).takeNext
   | _ => false)

/-- A call taken at a port: the port is online and no call is outstanding. Otherwise nothing is taken. -/
def Dev.portCall (d : Dev) (p : Fin 32) (f : Dev → Dev) : Dev :=
  if d.online p && !d.callBusy (.port p) then f (d.setDport p { d.dport p with resValid := false }) else d

/-- A call that needs an occupied port gets the RUNNING thread's INDEX. -/
def Dev.occupied (d : Dev) (p : Fin 32) (f : Nat → Dev) : Dev :=
  if (d.dport p).running = 0 then d.portResult p resBadParam else f (d.dport p).running

/-- YIELD, call code 0x1. The codes that the table of R455 does not name come in this form too: BAD_PARAM, no effect. -/
def execYieldCall (p : Fin 32) (code : BitVec 4) (s : State) : Host.Outcome State Fault Refusal :=
  finish s (s.dev.portCall p (fun d => if code ≠ 1 then d.portResult p resBadParam else d.occupied p (fun i =>
    let pre := d.preempt p
    let d := d.vacate p
    let d := if pre then d.makeReadyFirst i rsltPreempted else d.makeReady i rsltNone
    (d.portResult p resOk).reschedule)))

/-- A thread leaves its port for a wait: it takes the next ORDER. -/
def Dev.leaveTo (d : Dev) (p : Fin 32) (i : Nat) (st : ThreadState) (obj : Option (Fin 512)) (wake : Option Word) : Dev :=
  let t := d.thread i
  let t := { t with state := st, waitObj := obj, wake := wake,
                    order := if st = .blocked then d.sched.nextOrder else t.order }
  let d := (d.setThread i t).vacate p
  { d with sched := { d.sched with nextOrder := if st = .blocked then d.sched.nextOrder + 1 else d.sched.nextOrder } }

/-- Device time in ns, bits [31:0]. -/
def Dev.now32 (d : Dev) : Word := BitVec.ofNat 32 d.ns.toNat

/-- BLOCK_ON (R457). -/
def Dev.blockOn (d : Dev) (p : Fin 32) (i : Nat) (e : Fin 512) (b : Word) : Dev :=
  let o := d.ev e
  if 0x80000000 ≤ b.toNat ∧ b ≠ 0xFFFFFFFF then d.portResult p resBadParam
  else if o.broadcast = false ∧ o.count ≠ 0 then (d.setEv e { o with count := o.count - 1 }).portResult p resOk
  else if b = 0 then d.portResult p resTimeout
  else
    let wake := if b = 0xFFFFFFFF then none else some (d.now32 + b)
    ((d.leaveTo p i .blocked (some e) wake).portResult p resBlocked).reschedule

def execBlockOn (p : Fin 32) (c : BitVec 16) (b : Word) (s : State) : Host.Outcome State Fault Refusal :=
  finish s (s.dev.portCall p (fun d => d.occupied p (fun i => d.blockOn p i (Fin.ofNat 512 c.toNat) b)))

/-- SIGNAL by a call: OVERFLOW where the signal is not counted. -/
def Dev.signalCall (d : Dev) (c : Caller) (e : Fin 512) : Dev :=
  let r := d.signal e
  r.1.result c (if r.2 then resOk else resOverflow)

def execSignalCall (p : Fin 32) (c : BitVec 16) (s : State) : Host.Outcome State Fault Refusal :=
  finish s (s.dev.portCall p (fun d => d.signalCall (.port p) (Fin.ofNat 512 c.toNat)))

def execSleepUntil (p : Fin 32) (b : Word) (s : State) : Host.Outcome State Fault Refusal :=
  finish s (s.dev.portCall p (fun d => d.occupied p (fun i =>
    if laterSeq 32 b.toNat d.now32.toNat then
      ((d.leaveTo p i .sleeping none (some b)).portResult p resBlocked).reschedule
    else d.portResult p resOk)))

/-- SET_PRIORITY of a record in use. -/
def Dev.setPriority (d : Dev) (i : Nat) (c : BitVec 16) (b : Word) : Dev :=
  (d.setThread i { d.thread i with priority := BitVec.ofNat 6 (bits c 0 6), dl := bit c 6, deadline := b, newDeadline := true })

def execSetPriority (p : Fin 32) (a : BitVec 24) (c : BitVec 16) (b : Word) (s : State) :
    Host.Outcome State Fault Refusal :=
  finish s (s.dev.portCall p (fun d =>
    if a = 0 then d.occupied p (fun i => ((d.setPriority i c b).portResult p resOk).reschedule)
    else match d.handle? a.toNat with
      | none => d.portResult p resBadHandle
      | some i => ((d.setPriority i c b).portResult p resOk).reschedule))

/-- The arguments of CREATE (R455). -/
def createArgs (caller : Caller) (a b : DWord) (c : BitVec 16) : CreateArgs :=
  { caller, cookie := a, affinity := BitVec.ofNat 32 b.toNat, deadline := BitVec.ofNat 32 (b.toNat / 2 ^ 32),
    dl := bit c 6, priority := BitVec.ofNat 6 (bits c 0 6) }

def execCreateCall (p : Fin 32) (a b : DWord) (c : BitVec 16) (s : State) : Host.Outcome State Fault Refusal :=
  finish s (s.dev.portCall p (fun d => d.create (createArgs (.port p) a b c)))

def execExitCall (p : Fin 32) (s : State) : Host.Outcome State Fault Refusal :=
  finish s (s.dev.portCall p (fun d => d.occupied p (fun i =>
    (((d.freeThread i).vacate p).portResult p resOk).reschedule)))

def execTakeNext (p : Fin 32) (s : State) : Host.Outcome State Fault Refusal :=
  finish s (s.dev.portCall p (fun d =>
    if (d.dport p).running ≠ 0 then d.portResult p resBadParam
    else (d.setDport p { d.dport p with takeNext := true }).reschedule))

/-! ## The register group SCH_CMD_ (R472, R473) -/

/-- Who may write a SCH_ register (R469): the hive, or a granted port for the registers that the rule names. -/
def schPortWrites (off : Nat) : Bool :=
  decide (0x500020 ≤ off ∧ off < 0x500038) || decide (off = schRecSel) || decide (0x502000 ≤ off ∧ off < 0x503000) ||
  decide (0x504000 ≤ off ∧ off < 0x506000)

def Dev.schWriteOk (d : Dev) (id : Fin 13) (off : Nat) : Bool := decide (id = 0) || (d.granted id 4 && schPortWrites off)

/-- A register access that the block's permits allow, or R49. -/
def Dev.permitted (d : Dev) (ok : Bool) (id : Fin 13) (write : Bool) (off : Nat) (f : Dev → Dev) : Dev :=
  if ok then f d else d.ctrlDecode id.val write false off

def schCmd : Nat := 0x500034

/-- 64 bits of an argument pair of the writer's own copy. -/
def Dev.cmdArg (d : Dev) (id : Fin 13) (lo hi : Nat) : DWord :=
  BitVec.ofNat 64 ((d.idReg id lo).toNat + (d.idReg id hi).toNat * 2 ^ 32)

def Dev.cmdA (d : Dev) (id : Fin 13) : DWord := d.cmdArg id (schCmdA 0) (schCmdA 1)
def Dev.cmdB (d : Dev) (id : Fin 13) : DWord := d.cmdArg id (schCmdB 0) (schCmdB 1)
def Dev.cmdC (d : Dev) (id : Fin 13) : BitVec 16 := BitVec.ofNat 16 (d.idReg id schCmdC).toNat

/-- SCH_CMD SET_PRIORITY: a handle of 0 is BAD_PARAM. -/
def Dev.busSetPriority (d : Dev) (id : Fin 13) : Dev :=
  let h := bits (d.cmdA id) 0 24
  if h = 0 then d.result (.bus id) resBadParam
  else match d.handle? h with
    | none => d.result (.bus id) resBadHandle
    | some i => ((d.setPriority i (d.cmdC id) (BitVec.ofNat 32 (d.cmdB id).toNat)).result (.bus id) resOk).reschedule

/-- SCH_CMD KILL: a READY, BLOCKED or SLEEPING thread becomes FREE. -/
def Dev.busKill (d : Dev) (id : Fin 13) : Dev :=
  match d.handle? (bits (d.cmdA id) 0 24) with
  | none => d.result (.bus id) resBadHandle
  | some i =>
    if (d.thread i).state = .running then d.result (.bus id) resBadParam
    else ((d.freeThread i).result (.bus id) resOk).reschedule

/-- A write of SCH_CMD: nothing while BUSY, nothing without GO. -/
def Dev.schCmdWrite (d : Dev) (id : Fin 13) (v : Word) : Dev :=
  d.permitted (d.schWriteOk id schCmd) id true schCmd (fun d =>
    if d.callBusy (.bus id) || !bit v 31 then d
    else match bits v 0 4 with
      | 3 => d.signalCall (.bus id) (Fin.ofNat 512 (d.cmdC id).toNat)
      | 5 => d.busSetPriority id
      | 6 => d.create (createArgs (.bus id) (d.cmdA id) (d.cmdB id) (d.cmdC id))
      | 9 => d.busKill id
      | _ => d.result (.bus id) resBadParam)

/-- SCH_CMD with GO and a call code. -/
def schCmdWord (op : Nat) : Word := BitVec.ofNat 32 (0x80000000 + op)

def execSchCmdSignal (id : Fin 13) (s : State) : Host.Outcome State Fault Refusal :=
  finishBy id s (s.dev.schCmdWrite id (schCmdWord 3))

def execSchCmdSetPriority (id : Fin 13) (s : State) : Host.Outcome State Fault Refusal :=
  finishBy id s (s.dev.schCmdWrite id (schCmdWord 5))

def execSchCmdCreate (id : Fin 13) (s : State) : Host.Outcome State Fault Refusal :=
  finishBy id s (s.dev.schCmdWrite id (schCmdWord 6))

def execSchCmdKill (id : Fin 13) (s : State) : Host.Outcome State Fault Refusal :=
  finishBy id s (s.dev.schCmdWrite id (schCmdWord 9))

/-- A write of SCH_REC_SEL (R473). -/
def Dev.recSelWrite (d : Dev) (id : Fin 13) (v : Word) : Dev :=
  d.permitted (d.schWriteOk id schRecSel) id true schRecSel (fun d =>
    let h := bits v 0 24
    let d := d.setIdReg id schRecSel (BitVec.ofNat 32 h)
    let bs := match d.handle? h with
      | none => zeros 32
      | some i => (d.thread i).bytes i (d.freeVal 64) (d.thread i).spill.isSome
    let d := d.freeNext
    { d with sched := { d.sched with snaps := mset (fun _ => zeros 32) d.sched.snaps id.val bs } })

def execSchRecSel (id : Fin 13) (v : Word) (s : State) : Host.Outcome State Fault Refusal :=
  finishBy id s (s.dev.recSelWrite id v)

/-! ## The spill configuration (R463, R471) -/

/-- The conditions under which EN can be set, on the written fields. -/
def Dev.spillCfgOk (d : Dev) (v : Word) : Bool :=
  let bank := bits v 16 4
  let w := d.flow d.writeFlow
  let r := d.flow d.replyFlow
  let gw := 40 + bank / 2
  decide (bits v 0 6 + bits v 8 5 ≤ 64) && decide (d.fld (bankOwner bank) 0 6 = 51) &&
  decide (w.state = .live) && decide (w.src.toNat = 51) && decide (w.dest.toNat = gw) &&
  decide (r.state = .live) && decide (r.src.toNat = gw) && decide (r.dest.toNat = 51)

/-- A write of SCH_SPILL_CFG. -/
def Dev.spillCfgWrite (d : Dev) (v : Word) : Dev :=
  let d := d.setRbit schStatus spillErrBit false
  if bits v 8 5 = 0 ∨ 16 < bits v 8 5 then d
  else if d.spillEn || decide (d.spilled ≠ 0) then d
  else
    let w := v &&& 0x000F1F3F
    if bit v 31 = false then d.setReg schSpillCfg w
    else if d.spillCfgOk v then d.setReg schSpillCfg (setBit w 31 true)
    else (d.setReg schSpillCfg w).setRbit schStatus spillErrBit true

def execSchSpillEnable (id : Fin 13) (v : Word) (s : State) : Host.Outcome State Fault Refusal :=
  finishBy id s (s.dev.permitted (s.dev.schWriteOk id schSpillCfg) id true schSpillCfg
    (fun d => d.spillCfgWrite (setBit v 31 true)))

/-- SCH_SPILL_FLOWS changes only while EN = 0 and no record is spilled (R463). -/
def Dev.spillFlowsWrite (d : Dev) (v : Word) : Dev :=
  if d.spillEn || decide (d.spilled ≠ 0) then d else d.setReg schSpillFlows (v &&& 0x0FFF0FFF)

/-! ## Event objects and timers (R458, R459, R476, R477) -/

/-- A write of SCH_EV_CFG: handled as in R49 while the object has waiters. -/
def Dev.evCfgWrite (d : Dev) (id : Fin 13) (e : Fin 512) (v : Word) : Dev :=
  d.permitted (d.schWriteOk id (schEvCfg e) && decide (d.waiters e = [])) id true (schEvCfg e) (fun d =>
    d.setEv e { d.ev e with broadcast := bit v 31, count := if bit v 31 then 0 else BitVec.ofNat 16 v.toNat })

def execSchEvCfgWrite (id : Fin 13) (e : Fin 512) (v : Word) (s : State) : Host.Outcome State Fault Refusal :=
  finishBy id s (s.dev.evCfgWrite id e v)

/-- A write of SCH_TMR_EXP0 is held; one of SCH_TMR_EXP1 applies both. -/
def Dev.tmrExpWrite (d : Dev) (id : Fin 13) (t : Fin 256) (hi : Bool) (v : Word) : Dev :=
  let off := schTmrExp t (b2n hi)
  let k := id.val * 256 + t.val
  d.permitted (d.schWriteOk id off) id true off (fun d =>
    if hi then
      let lo := match mget (fun _ => 0) d.sched.heldExp k with
        | 0 => d.reg (schTmrExp t 0)
        | n + 1 => BitVec.ofNat 32 n
      let d := (d.setReg (schTmrExp t 0) lo).setReg (schTmrExp t 1) v
      { d with sched := { d.sched with heldExp := mset (fun _ => 0) d.sched.heldExp k 0 } }
    else { d with sched := { d.sched with heldExp := mset (fun _ => 0) d.sched.heldExp k (v.toNat + 1) } })

def execSchTmrExpWrite (id : Fin 13) (t : Fin 256) (hi : Bool) (v : Word) (s : State) :
    Host.Outcome State Fault Refusal :=
  finishBy id s (s.dev.tmrExpWrite id t hi v)

/-- The waiters of an object that its pending signals wake become READY with SIGNALLED (R458). -/
def Dev.serveObject (d : Dev) (e : Fin 512) : Dev :=
  let o := d.ev e
  let ws := d.waiters e
  let k := o.pending.toNat
  if o.broadcast then
    let d := d.setEv e { o with pending := 0 }
    d.forEach ws (fun d i => d.makeReady i rsltSignalled)
  else
    let woken := min k ws.length
    let total := o.count.toNat + (k - woken)
    let d := d.setEv e { o with pending := 0, count := BitVec.ofNat 16 (min total 0xFFFF),
                                ovf := o.ovf || decide (0xFFFF < total) }
    d.forEach (ws.take woken) (fun d i => d.makeReady i rsltSignalled)

/-- One SCLK cycle of event service: the object whose first pending signal arrived first. -/
def Dev.eventServe (d : Dev) : Dev :=
  match d.sched.evQueue with
  | [] => d
  | e :: rest => (({ d with sched := { d.sched with evQueue := rest } }).serveObject e).reschedule

def execEventServe (s : State) : Host.Outcome State Fault Refusal := finish s s.dev.eventServe

/-- EXP of a timer. -/
def Dev.tmrExp (d : Dev) (t : Nat) : Nat := (d.reg (schTmrExp t 0)).toNat + (d.reg (schTmrExp t 1)).toNat * 2 ^ 32

/-- A timer whose EXP device time has reached signals its object, and stops or reloads (R459). -/
def Dev.timerFire (d : Dev) (t : Fin 256) : Dev :=
  let now := d.ns.toNat
  let e := d.tmrExp t
  if d.rbit (schTmrCtrl t) 31 && decide (e ≤ now) then
    let period := (d.reg (schTmrPeriod t)).toNat
    let d := d.hwSignal (d.fld (schTmrCtrl t) 0 9)
    if period = 0 then d.setRbit (schTmrCtrl t) 31 false
    else
      let k := (now - e) / period + 1
      let e' := e + k * period
      let d := d.setReg (schTmrExp t 0) (BitVec.ofNat 32 e')
      let d := d.setReg (schTmrExp t 1) (BitVec.ofNat 32 (e' / 2 ^ 32))
      d.count (schTmrMissed t) (k - 1)
  else d

/-- The timer fires when device time reaches EXP. -/
def execSchTimerFire (t : Fin 256) (s : State) : Host.Outcome State Fault Refusal :=
  finish s (s.dev.cond (s.dev.rbit (schTmrCtrl t) 31)
    (fun d => (d.reach (BitVec.ofNat 64 (d.tmrExp t))).timerFire t))

/-- The instant at which device time's low 32 bits reach `w`, at most 2³¹ − 1 ns ahead; now, where they have passed it. -/
def Dev.reachLow (d : Dev) (w : Word) : Dev :=
  let ahead := (w - d.now32).toNat
  if ahead < 2 ^ 31 then d.reachAhead ahead else d

/-- WAKE reached: TIMEOUT for a BLOCKED thread, NONE for a SLEEPING one (R448, R457). -/
def Dev.wakeThread (d : Dev) (i : Nat) : Dev :=
  let t := d.thread i
  match t.wake with
  | none => d
  | some w =>
    if laterSeq 32 w.toNat d.now32.toNat then d
    else match t.state with
      | .blocked => d.makeReady i rsltTimeout
      | .sleeping => d.makeReady i rsltNone
      | _ => d

/-- WAKE of a thread is reached. Where its object is the one served in this very cycle, the signal wins (R457). -/
def Dev.wakeReached (d : Dev) (i : Nat) : Dev :=
  match (d.thread i).wake with
  | none => d
  | some w =>
    let d := d.reachLow w
    let d := if (d.thread i).waitObj.isSome && decide (d.sched.evQueue.head? = (d.thread i).waitObj) then d.eventServe else d
    (d.wakeThread i).reschedule

def execWakeReached (index : BitVec 16) (s : State) : Host.Outcome State Fault Refusal :=
  finish s (s.dev.wakeReached index.toNat)

/-- A step or set of device time (R459): timers passed fire once; WAKE times passed wake their threads, or every
timed wait ends with TIMESHIFT where the change is 2³⁰ ns or more. -/
def Dev.schedTimeChange (d : Dev) (big : Bool) : Dev :=
  let d := d.forEach (List.finRange 256) Dev.timerFire
  let d := d.forEach d.inUse (fun d i =>
    let t := d.thread i
    if big then
      (if t.wake.isSome && (decide (t.state = .blocked) || decide (t.state = .sleeping)) then d.makeReady i rsltTimeshift
       else d)
    else d.wakeThread i)
  d.reschedule

/-! ## Spill and refill answers (R465 to R468) -/

/-- A message is the answer to the request in progress: a READ_RESP with its TAG, with WRITE_DONE for a spill and without it for a
refill (R139, R140). -/
def Dev.answersJob (d : Dev) (spill : Bool) (bs : List Byte) : Bool :=
  decide (getLE 1 bs 0 = 3) && decide (getLE 2 bs 6 = d.sched.jobTag.toNat) && decide ((getLE 1 bs 1).testBit 2 = spill)

/-- The first whole answer to the request in progress that has reached endpoint 51 on REPLY_FLOW: its STATUS and its bytes.
What else comes there before it is discarded. An answer that arrived with ERR shows no STATUS of its own: it counts as one that
is not OK (log entry 59). -/
def Dev.spillAnswer (d : Dev) (spill : Bool) : Option (Nat × List Byte × Dev) :=
  let f := BitVec.ofNat 12 d.replyFlow
  let step (acc : Option (Nat × List Byte × Dev) × Dev) (_ : Nat) : Option (Nat × List Byte × Dev) × Dev :=
    if acc.1.isSome then acc
    else match takeMessage f (acc.2.rxCells 51) with
      | none => acc
      | some (m, rest) =>
        let d := acc.2.setRx 51 rest
        let bs := messageBytes m
        if m.any (fun c => c.err) then (some (1, bs, d), d)
        else if d.answersJob spill bs then (some (getLE 2 bs 14, bs, d), d)
        else (none, d)
  ((List.range (d.rxCells 51).length).foldl step (none, d)).1

/-- Any answer but OK halts: the request is repeated every 1 µs, and a CREATE that needs a spill gets SPILL_FULL (R467). -/
def Dev.jobHalt (d : Dev) : Dev := (d.setRbit schStatus spillHaltBit true).refuseCreates

def Dev.jobEnd (d : Dev) : Dev :=
  ({ d with sched := { d.sched with job := none } }).setRbit schStatus spillHaltBit false

/-- The thread of the job in progress is still the one with which the job began: it was not freed since (R446). -/
def Dev.jobThread (d : Dev) (i : Nat) : Bool :=
  decide ((d.thread i).state ≠ .free) && decide ((d.thread i).gen = d.sched.jobGen)

/-- A spill has been written: the on-chip record is freed and the index entry stays (R465). -/
def Dev.spillOut (d : Dev) (i k : Nat) : Dev :=
  let d := d.setThread i { d.thread i with spill := some k, spillSeq := d.sched.nextSpillSeq }
  { d with sched := { d.sched with nextSpillSeq := d.sched.nextSpillSeq + 1 } }

/-- A spill's WRITE_DONE. -/
def Dev.spillDone (d : Dev) : Dev :=
  match d.sched.job with
  | some (.spill i k) =>
    match d.spillAnswer true with
    | none => d
    | some (status, _, d) =>
      if status ≠ 0 then d.jobHalt
      else (d.jobEnd.cond (d.jobThread i) (fun d => d.spillOut i k)).reschedule
  | _ => d

def execSpillWriteDone (s : State) : Host.Outcome State Fault Refusal := finish s s.dev.spillDone

/-- A record returns on chip with what the index entry holds, and the rest from the bytes of its record (R445, R465, R466); an
ORDER or a DEADLINE that it got while it was away stands. -/
def Thread.refilled (t : Thread) (r : List Byte) : Thread :=
  let port := getLE 1 r 5
  { t with spill := none, affinity := BitVec.ofNat 32 (getLE 4 r 8), cookie := BitVec.ofNat 64 (getLE 8 r 16),
           deadline := if t.newDeadline then t.deadline else BitVec.ofNat 32 (getLE 4 r 12),
           order := if t.newOrder then t.order else BitVec.ofNat 32 (getLE 4 r 28),
           port := if 128 ≤ port then some (Fin.ofNat 32 port) else none }

/-- A refill's READ_RESP. -/
def Dev.refillDone (d : Dev) : Dev :=
  match d.sched.job with
  | some (.refill i _) =>
    match d.spillAnswer false with
    | none => d
    | some (status, bs, d) =>
      if status ≠ 0 then d.jobHalt
      else
        let d := d.jobEnd.cond (d.jobThread i) (fun d => d.setThread i ((d.thread i).refilled (slice bs 16 32)))
        (d.statUp schRefills).reschedule
  | _ => d

def execRefillDone (s : State) : Host.Outcome State Fault Refusal := finish s s.dev.refillDone

/-- The halted request is sent again. -/
def execSpillRetry (s : State) : Host.Outcome State Fault Refusal :=
  finish s (s.dev.cond (s.dev.rbit schStatus spillHaltBit) Dev.sendJob)

/-- The physical bank of the spill area is powered down: every spilled record becomes FREE (R468). -/
def Dev.spillLost (d : Dev) (p : Nat) : Dev :=
  if d.spillEn && decide (d.physOf d.spillBank = p) then
    let xs := d.inUse.filter (fun i => (d.thread i).spill.isSome)
    let d := d.forEach xs Dev.freeThread
    let d := match d.sched.job with
      | some (.refill _ _) => d.jobEnd
      | _ => d
    let d := d.count schSpillLost xs.length
    (d.cond (decide (xs ≠ [])) (fun d => d.logEntry 0x2D srcSched Path.chip (putLE 4 xs.length))).reschedule
  else d

/-! ## What the SCH_ registers read (R470 to R476) -/

/-- SCH_STATUS. -/
def Dev.schStatusView (d : Dev) : Word :=
  setBit (setBit (d.reg schStatus) 31 d.spillEn) 30 d.sched.job.isSome

/-- SCH_PORT_STATUS of port p. VACANT shows only at an assigned port, so that its reset value of 0 holds (log entry 20). -/
def Dev.schPortStatus (d : Dev) (p : Nat) : Word :=
  let x := d.dport p
  let st := b2n (d.online p) * 2 ^ 31 + b2n ((d.portRegion p).isSome && decide (x.running = 0)) * 2 ^ 30 + b2n x.takeNext * 2 ^ 29 +
    b2n (d.preempt p) * 2 ^ 28
  BitVec.ofNat 32 (match d.portRegion p with
    | none => st
    | some n => st + 2 ^ 27 + n)

/-- The computed registers of the scheduler; none where the stored word is the register. -/
def Dev.schView (d : Dev) (id : Fin 13) (off : Nat) : Option Word :=
  if off = schStatus then some d.schStatusView
  else if off = 0x500004 then some (BitVec.ofNat 32 (d.spilled * 0x10000 + d.onChip))
  else if off = schCmdRes then some (setBit (d.idReg id schCmdRes) 31 (d.callBusy (.bus id)))
  else if 0x500060 ≤ off ∧ off < 0x500080 then
    some (BitVec.ofNat 32 (getLE 4 (mget (fun _ => zeros 32) d.sched.snaps id.val) (off - 0x500060)))
  else if 0x501000 ≤ off ∧ off < 0x501200 then
    let p := (off - 0x501000) / 0x10
    match off % 0x10 with
    | 0 => some (d.schPortStatus p)
    | 4 => some (if (d.dport p).running = 0 then 0
                 else (handleOf (d.dport p).running (d.thread (d.dport p).running)).setWidth 32)
    | 8 => some (match d.prefetch p with
        | none => 0
        | some i => setBit ((handleOf i (d.thread i)).setWidth 32) 31 true)
    | _ => none
  else if 0x502000 ≤ off ∧ off < 0x503000 then
    let e := (off - 0x502000) / 8
    let o := d.ev e
    if off % 8 = 0 then some (BitVec.ofNat 32 (b2n o.broadcast * 2 ^ 31 + o.count.toNat))
    else some (BitVec.ofNat 32 (b2n o.ovf * 2 ^ 31 + (d.waiters e).length))
  else none

end Sys2Proof.Machine
end

