-- ==== Sys2Proof/Machine/Bank.lean ====
section
/-! DEFINITION. The deep banks (chapter 08): what a gateway does with a message, the single port, ownership, secure
partitions, marches, the spare bank, and the BANK_ registers. -/
namespace Sys2Proof.Machine

/-! ## Lane errors (R424) -/

/-- The level path of a bank with its lane. -/
def Path.bank (p : Nat) (lane : Option Nat) : Path := { region := none, unit := some p, sub := lane }

/-- BANK_ERR_LAST. -/
def Dev.setErrLast (d : Dev) (p a l : Nat) (unc : Bool) : Dev :=
  d.setReg (bankErrLast p) (BitVec.ofNat 32 (2 ^ 31 + b2n unc * 2 ^ 30 + l * 65536 + a))

/-- A read decodes lane l of word a: a single-bit error is corrected and counted and waits for its write-back; an
uncorrectable one is counted and escalated. -/
def Dev.decodeLane (d : Dev) (p a l : Nat) : Dev :=
  match d.laneErr p a l with
  | 0 => d
  | 1 =>
    let d := (d.count (bankCorr p)).setErrLast p a l false
    let w := mget (fun _ => []) d.bank.writeback p
    if w.contains a then d
    else { d with bank := { d.bank with writeback := mset (fun _ => []) d.bank.writeback p (w ++ [a]) } }
  | _ =>
    ((d.count (bankUncorr p)).setErrLast p a l true).escalate clsBankUncorr srcBank (Path.bank p (some l))
      (putLE 2 (a / 32) ++ putLE 2 a)

/-- A word read: its eight lanes are decoded. -/
def Dev.decodeWord (d : Dev) (p a : Nat) : Dev := d.forEach (List.range 8) (fun d l => d.decodeLane p a l)

/-- A word of a physical bank holds an uncorrectable lane. -/
def Dev.wordBad (d : Dev) (p a : Nat) : Bool := (List.range 8).any (fun l => decide (2 ≤ d.laneErr p a l))

/-- Soft errors that have come about in stored words: word, lane, and whether two bits are wrong. -/
def Dev.upset (d : Dev) (p : Nat) (us : List (BitVec 16 × BitVec 3 × Bool)) : Dev :=
  d.forEach us (fun d u =>
    let (a, l, two) := u
    let old := d.laneErr p a.toNat l.toNat
    d.setLaneErr p a.toNat l.toNat (if two || decide (old ≠ 0) then 2 else 1))

/-- A word waits for its write-back no more. -/
def Dev.dropWriteback (d : Dev) (p a : Nat) : Dev :=
  { d with bank := { d.bank with
      writeback := mset (fun _ => []) d.bank.writeback p ((mget (fun _ => []) d.bank.writeback p).filter (· ≠ a)) } }

/-- The write-back of a corrected word: its single-bit errors are gone (R420, R424). -/
def Dev.writeBackWord (d : Dev) (p a : Nat) : Dev :=
  (d.forEach (List.range 8) (fun d l => if d.laneErr p a l = 1 then d.setLaneErr p a l 0 else d)).dropWriteback p a

/-! ## Words of a request -/

/-- The words that bytes [o, o + n) of a bank touch, ascending. -/
def wordsOf (o n : Nat) : List Nat := (List.range ((o + n + 63) / 64 - o / 64)).map (fun i => o / 64 + i)

/-- A lane of word a as bytes [o, o + n) of the bank cover it: 0 not at all, 1 in part, 2 whole. -/
def laneCover (o n a l : Nat) : Nat :=
  let lo := 64 * a + 8 * l
  if o + n ≤ lo ∨ lo + 8 ≤ o then 0 else if o ≤ lo ∧ lo + 8 ≤ o + n then 2 else 1

/-- Word a with the bytes that a WRITE of `data` at o covers replaced. -/
def mergeWord (w : BitVec 512) (o : Nat) (data : List Byte) (a : Nat) : BitVec 512 :=
  BitVec.ofNat 512 (getLE 64 ((List.range 64).map (fun i =>
    let x := 64 * a + i
    if o ≤ x ∧ x < o + data.length then data.getD (x - o) 0 else wordByte w i)) 0)

/-- One word of a WRITE performed on physical bank p: lanes covered in part are decoded, lanes covered whole get a new
code. The write takes the place of a write-back that waits (R424). -/
def Dev.writeWord (d : Dev) (p o : Nat) (data : List Byte) (a : Nat) : Dev :=
  let n := data.length
  let d := d.forEach (List.range 8) (fun d l => if laneCover o n a l = 1 then d.decodeLane p a l else d)
  let d := (d.setBword p a (mergeWord (d.bword p a) o data a)).dropWriteback p a
  d.forEach (List.range 8) (fun d l =>
    if laneCover o n a l = 2 ∨ (laneCover o n a l = 1 ∧ d.laneErr p a l = 1) then d.setLaneErr p a l 0 else d)

/-- A word and its lane errors copied from one physical bank to another; corrected on the way. -/
def Dev.copyWord (d : Dev) (p q a : Nat) : Dev :=
  let d := d.setBword q a (d.bword p a)
  d.forEach (List.range 8) (fun d l => d.setLaneErr q a l (if d.laneErr p a l = 2 then 2 else 0))

/-- Lanes of word x where the flags hold, of word y elsewhere. -/
def mixLanes (cover : Nat → Bool) (x y : BitVec 512) : BitVec 512 :=
  BitVec.ofNat 512 (getLE 64 ((List.range 64).map (fun i => wordByte (if cover (i / 8) then x else y) i)) 0)

/-- A write of bytes [o, o + n) on bank p, mirrored into bank q (R432): the lanes of word a that it covers hold in q what they
now hold in p. A lane that is covered in part and stays uncorrectable is a poisoned one; where the word has been copied
before, it counts now, otherwise when it is copied. -/
def Dev.mirrorWord (d : Dev) (p q o n a : Nat) : Dev :=
  let cover (l : Nat) : Bool := decide (laneCover o n a l ≠ 0)
  let ls := (List.range 8).filter cover
  let copied := decide (a < d.fld bankRemap 8 17)
  let poison := (ls.filter (fun l => decide (2 ≤ d.laneErr p a l) && decide (d.laneErr q a l < 2))).length
  let d := d.cond copied (fun d => d.count bankPoison poison)
  let d := d.setBword q a (mixLanes cover (d.bword p a) (d.bword q a))
  d.forEach ls (fun d l => d.setLaneErr q a l (if 2 ≤ d.laneErr p a l then 2 else 0))

/-! ## Executing a message (R414, R415, R418, R422) -/

/-- Endpoints that can be masters of a bank (R409). -/
def masterOk (e : Nat) : Bool := decide ((16 ≤ e ∧ e < 40) ∨ (48 ≤ e ∧ e < 52))

/-- A secure master (R300, R409). -/
def Dev.secureMaster (d : Dev) (e : Nat) : Bool :=
  isRegionEp e && (getLE 1 (d.recOf (epRegion e)) 0x3A).testBit ((e - 16) % 2)

/-- The bit of a guest mask that stands for an endpoint (R413). -/
def guestBit (e : Nat) : Nat := if e < 40 then e - 16 else e - 24

/-- The address lies in the window of spare bank 16. -/
def inSpareWindow (a : Nat) : Bool := decide (0x04000000 ≤ a ∧ a < 0x04400000)

/-- The logical bank that a request at gateway e addresses, where that gateway serves the address (R141, R432). -/
def Dev.servedBank (d : Dev) (e a : Nat) : Option Nat :=
  if a < 0x04000000 then (if a / 0x400000 / 2 = e - 40 then some (a / 0x400000) else none)
  else if inSpareWindow a ∧ d.remapState = 1 ∧ d.remapTarget / 2 = e - 40 then some d.remapTarget
  else none

/-- The physical bank that serves an address of logical bank k. -/
def Dev.physAt (d : Dev) (k a : Nat) : Nat := if inSpareWindow a then 16 else d.physOf k

/-- An access touches the secure partition of its bank. -/
def touchesSecure (o n : Nat) : Bool := decide (0x3F0000 < o + n)

/-- Check 5 of R414: the master holds the bank, or a guest grant for the access. -/
def Dev.ownedBy (d : Dev) (k src : Nat) (aspace : BitVec 6) (write spare : Bool) : Bool :=
  let owner := decide (d.fld (bankOwner k) 0 6 = src)
  let guest := d.rbit (if write then bankGuestW k else bankGuestR k) (guestBit src)
  let space := (decide (src ≠ 49) && decide (src ≠ 50)) || d.rbit (bankAspace k (aspace.toNat / 32)) (aspace.toNat % 32)
  masterOk src && (if spare then owner && !write else owner || guest) && space

/-- The outcome of checks 1 to 6 of R414. -/
inductive GateCheck where
  | bad (reason : Nat) (denied : Option Nat)
  | inTest
  | go (k p o : Nat)
  deriving DecidableEq, Repr

/-- Checks 1 to 6 of R414 in order, for a WRITE or a READ_REQ. -/
def Dev.gateCheck (d : Dev) (e : Nat) (m : List Cell) (bs : List Byte) : GateCheck :=
  let c := m.headD { flow := 0, som := true, eom := true, err := false, acc := false, cls := 0, aspace := 0, src := 0,
                     dest := 0, bytes := 0, astamp := 0, payload := [], num := 0 }
  let write := decide (getLE 1 bs 0 = 1)
  let len := getLE 2 bs 2
  let a := getLE 5 bs 8
  if m.any (fun c => c.err) then .bad 8 none
  else if len = 0 ∨ 4096 < len ∨ (write ∧ bs.length ≠ 16 + len) then .bad 1 none
  else if 4096 < a % 4096 + len then .bad 2 none
  else match d.servedBank e a with
    | none => .bad 3 none
    | some k =>
      let p := d.physAt k a
      let o := a % 0x400000
      if d.inService p = false then .inTest
      else if d.ownedBy k c.src.toNat c.aspace write (inSpareWindow a) = false then .bad 4 (some k)
      else if d.rbit (bankCtrl k) 1 && touchesSecure o len && !d.secureMaster c.src.toNat then .bad 5 (some k)
      else .go k p o

/-- The gateway of a logical bank. -/
def gateOf (k : Nat) : Nat := 40 + k / 2

def Dev.bankQ (d : Dev) (key : Nat) : List Cell := mget (fun _ => []) d.bank.queues key

/-- Bytes of data that wait in the reply buffer of a bank and class (R422): its cells that the gateway has still to present. -/
def Dev.replyBytes (d : Dev) (key : Nat) : Nat :=
  ((d.ing (gateOf (key / 4))).outbox.filter (fun c => decide (c.num = key + 1))).foldl
    (fun a c => a + (if c.eom then (if c.bytes = 0 then 64 else c.bytes.toNat) else 64) - (if c.som then 16 else 0)) 0

/-- A message of the flow whose last cell came before `num` still waits in another queue of the gateway (R142). -/
def Dev.earlierAt (d : Dev) (key : Nat) (f : BitVec 12) (num : Nat) : Bool :=
  let base := key / 8 * 8
  (List.range 8).any (fun i =>
    decide (base + i ≠ key) &&
    (d.bankQ (base + i) ++ mget (fun _ => []) d.bank.heldq (base + i)).any
      (fun c => decide (c.flow = f) && c.eom && decide (c.num < num)))

/-- The numbers of a message's first cell and of its last. -/
def firstNum (m : List Cell) : Nat := (m.head?.map (fun c => c.num)).getD 0
def lastNum (m : List Cell) : Nat := (m.getLast?.map (fun c => c.num)).getD 0

/-- The message of a flow that a queue's bank has begun, where its first cell has this number. -/
def Dev.runOf (d : Dev) (key : Nat) (f : BitVec 12) (num : Nat) : Option BankRun :=
  ((d.bank.running.find? (fun e => decide (e.1 = key * 4096 + f.toNat))).map (·.2)).filter (fun r => decide (r.num = num))

/-- The message of a flow that a request queue executes next, with the queue's rest: the one it has begun, otherwise the
whole message that came first (R142). -/
def Dev.headMessage (d : Dev) (key : Nat) (f : BitVec 12) : Option (List Cell × List Cell) :=
  let ms := wholeMessages f (d.bankQ key)
  (ms.find? (fun x => (d.runOf key f (firstNum x.1)).isSome)).or
    (insSort (fun a b => decide (lastNum a.1 ≤ lastNum b.1)) ms).head?

/-- That message, where it may execute now: a READ_REQ waits for room in its reply buffer, and an access to a partition that
is being wiped waits. A message that has begun waits for the wipe alone. -/
def Dev.gateReady (d : Dev) (key : Nat) (f : BitVec 12) : Option (List Cell × List Cell) :=
  match d.headMessage key f with
  | none => none
  | some (m, rest) =>
    let bs := messageBytes m
    let len := getLE 2 bs 2
    let begun := (d.runOf key f (firstNum m)).isSome
    let room := decide (getLE 1 bs 0 ≠ 2) || decide (4096 < len) || decide (d.replyBytes key + len ≤ 8192)
    let wiping := decide (getLE 1 bs 0 ≠ 4) && d.rbit (bankCtrl (key / 4)) 31 &&
      touchesSecure (getLE 5 bs 8 % 0x400000) len
    if (!begun && (d.earlierAt key f (lastNum m) || !room)) || wiping then none else some (m, rest)

/-- The new cells that a gateway has to present belong to the reply buffer of this bank and class. -/
def Dev.tagReplies (d : Dev) (key : Nat) : Dev :=
  let e := gateOf (key / 4)
  let g := d.ing e
  d.setIng e { g with outbox := g.outbox.map (fun c => if c.num = 0 then { c with num := key + 1 } else c) }

/-- The physical bank that a message in execution works on. -/
def Dev.runBank (d : Dev) (r : BankRun) : Nat := if r.spare then 16 else d.physOf r.bank

/-- The next word of a message in execution: written, with its mirror, or read. -/
def Dev.runWord (d : Dev) (bs : List Byte) (r : BankRun) : Dev × BankRun :=
  let p := d.runBank r
  let n := getLE 2 bs 2
  let a := r.offset / 64 + r.done
  if getLE 1 bs 0 = 1 then
    let data := slice bs 16 n
    let bad := (List.range 8).any (fun l => decide (laneCover r.offset n a l = 1) && decide (2 ≤ d.laneErr p a l))
    let d := d.writeWord p r.offset data a
    let d := match d.mirrorOf p with
      | some q => d.mirrorWord p q r.offset n a
      | none => d
    (d.statUp (bankWordsW r.bank) 1, { r with done := r.done + 1, bad := r.bad || bad })
  else
    let r := { r with done := r.done + 1, data := r.data ++ putLE 64 (d.bword p a).toNat, bad := r.bad || d.wordBad p a }
    ((d.decodeWord p a).statUp (bankWordsR r.bank) 1, r)

/-- Words of a message in execution one after another. -/
def Dev.runWords (d : Dev) (bs : List Byte) (r : BankRun) : Nat → Dev × BankRun
  | 0 => (d, r)
  | n + 1 =>
    let (d, r) := d.runWord bs r
    d.runWords bs r n

/-- The words that a message touches. -/
def runLength (bs : List Byte) (r : BankRun) : Nat := (wordsOf r.offset (getLE 2 bs 2)).length

/-- The answer of a message whose words have all been accessed. -/
def Dev.runAnswer (d : Dev) (e : Nat) (bs : List Byte) (r : BankRun) : Dev :=
  if getLE 1 bs 0 = 1 then
    if getLE 1 bs 1 % 2 = 1 then
      (if r.bad then d.answer e 0 0 bs 4 7 stBadParam [] else d.answer e 0 0 bs 4 0 stOk [])
    else d
  else if r.bad then d.answerFail e 0 0 bs 7 stBadParam
  else d.answer e 0 0 bs 0 0 stOk ((r.data.drop (r.offset % 64)).take (getLE 2 bs 2))

/-- The checks of a message when the gateway comes to execute it: its run, not begun. -/
def Dev.runOpen (d : Dev) (e : Nat) (m : List Cell) (bs : List Byte) : Option BankRun :=
  match d.gateCheck e m bs with
  | .go k _ o => some { num := firstNum m, bank := k, offset := o, spare := inSpareWindow (getLE 5 bs 8), done := 0,
                        data := [], bad := false }
  | _ => none

/-- A message is over: it leaves its queue. -/
def Dev.runClose (d : Dev) (key : Nat) (f : BitVec 12) (rest : List Cell) : Dev :=
  { d with bank := { d.bank with queues := mset (fun _ => []) d.bank.queues key rest,
                                 running := mdel d.bank.running (key * 4096 + f.toNat) } }

/-- What is left of one message is performed (R414, R422): the checks, where it has not begun, the accesses in ascending
address order, the answer. A gateway's answers are of the stream class, the only one its endpoint may use (R184). -/
def Dev.gateExecute (d : Dev) (key : Nat) (m rest : List Cell) (upsets : List (BitVec 16 × BitVec 3 × Bool)) : Dev :=
  let e := gateOf (key / 4)
  let bs := messageBytes m
  let f := ((m.head?.map (fun c => c.flow)).getD 0)
  let run := d.runOf key f (firstNum m)
  let d := d.runClose key f rest
  let d :=
    if getLE 1 bs 0 = 4 then
      if m.any (fun c => c.err) then d.answerFail e 0 0 bs 8 stBadParam
      else if getLE 2 bs 2 ≠ 0 then d.answerFail e 0 0 bs 1 stBadParam
      else d.answer e 0 0 bs 2 0 stOk []
    else
      match run.or (d.runOpen e m bs) with
      | some r =>
        let (d, r) := (d.upset (d.runBank r) upsets).runWords bs r (runLength bs r - r.done)
        d.runAnswer e bs r
      | none =>
        match d.gateCheck e m bs with
        | .bad reason denied =>
          let d := match denied with
            | some k => (d.count (bankDenied k)).cond (decide (reason = 5) && m.head?.any (fun (c : Cell) => decide (c.src = 48))) (fun d => d.fenceRefuse 6 k 0)
            | none => d
          d.answerFail e 0 0 bs reason stBadParam
        | .inTest => d.answerFail e 0 0 bs 0 stInTest
        | .go _ _ _ => d
  d.tagReplies key

/-- The queue of a logical bank and class: 1 CPU, 2 data, 3 DMA. -/
def classKey (k : Nat) (cls : BitVec 2) : Nat := k * 4 + (if cls = 0 then 2 else cls.toNat)

/-! ## The single port (R420, R432) -/

def Dev.bankPort (d : Dev) (p : Nat) : BankPort := mget (fun _ => BankPort.idle) d.bank.ports p

def Dev.setBankPort (d : Dev) (p : Nat) (x : BankPort) : Dev :=
  { d with bank := { d.bank with ports := mset (fun _ => BankPort.idle) d.bank.ports p x } }

/-- The message of a flow that asks the port for its next word: begun, or a WRITE or READ_REQ that passes its checks. -/
def Dev.portAsks (d : Dev) (key : Nat) (f : BitVec 12) : Option (List Cell × List Cell × BankRun) :=
  match d.gateReady key f with
  | none => none
  | some (m, rest) =>
    let bs := messageBytes m
    let t := getLE 1 bs 0
    if t ≠ 1 ∧ t ≠ 2 then none
    else ((d.runOf key f (firstNum m)).or (d.runOpen (gateOf (key / 4)) m bs)).map (fun r => (m, rest, r))

/-- The messages of a queue that ask for physical bank p's port, one of each flow: source endpoint and flow, oldest flow
first. -/
def Dev.readyIn (d : Dev) (p key : Nat) : List (Nat × Nat) :=
  (((d.bankQ key).map (fun c => c.flow)).eraseDups).filterMap (fun f =>
    ((d.portAsks key f).filter (fun y => decide (d.runBank y.2.2 = p))).map (fun y =>
      (((y.1.head?.map (fun (c : Cell) => c.src)).getD 0).toNat, f.toNat)))

/-- The data-class message that goes first: the owner's, then the lowest source, then the lowest flow. -/
def Dev.dataFirst (d : Dev) (p k : Nat) : Option (Nat × Nat) :=
  let owner := d.fld (bankOwner k) 0 6
  let le (a b : Nat × Nat) : Bool :=
    let ra := if a.1 = owner then 0 else 1
    let rb := if b.1 = owner then 0 else 1
    decide (ra < rb) || (decide (ra = rb) && (decide (a.1 < b.1) || (decide (a.1 = b.1) && decide (a.2 ≤ b.2))))
  (insSort le (d.readyIn p (k * 4 + 2))).head?

/-- A copy has a word left to copy from p. -/
def Dev.copyDue (d : Dev) (p : Nat) : Bool := (d.mirrorOf p).isSome && decide (d.fld bankRemap 8 17 < 65536)

/-- The logical bank whose queues a port serves; while bank 16 is being filled, the bank that fills it (R432). -/
def Dev.portBank (d : Dev) (p : Nat) : Option Nat :=
  if p = 16 ∧ d.remapState = 1 then some d.remapTarget else d.logicalOf p

/-- The grant of one port cycle. A wipe goes first, then a march; a corrected word is written back in the next cycle that no
class uses (R424), before a copy. -/
def Dev.portGrant (d : Dev) (p : Nat) : Grant :=
  let x := d.bankPort p
  if d.bankWiping p then .wipe
  else match d.march? p with
  | some m => if m.stopped then .none else .march
  | none =>
    match d.portBank p with
    | none => .none
    | some k =>
      let cpu := if 3 ≤ x.sinceCpu then (d.readyIn p (k * 4 + 1)).head? else none
      match cpu with
        | some (s, f) => .cpu s f
        | none =>
          if d.copyDue p && decide (256 ≤ x.copyWait) then .copy
          else match d.dataFirst p k with
            | some (s, f) => .data s f
            | none =>
              match (d.readyIn p (k * 4 + 3)).head? with
              | some (s, f) => .dma s f
              | none =>
                if mget (fun _ => []) d.bank.writeback p ≠ [] then .writeBack
                else if d.copyDue p then .copy else .none

/-- What is left of a message may be performed as one piece (R420): its bank's port grants it the next cycle, and none of its
words has to give way to another class, since none asks or one word is left. -/
def Dev.portAlone (d : Dev) (key : Nat) (f : BitVec 12) (bs : List Byte) (r : BankRun) : Bool :=
  let p := d.runBank r
  let cls := match d.portGrant p with
    | .cpu _ g => if g = f.toNat then 1 else 0
    | .data _ g => if g = f.toNat then 2 else 0
    | .dma _ g => if g = f.toNat then 3 else 0
    | _ => 0
  decide (cls = key % 4) && !(d.bankPort p).second &&
    (decide (runLength bs r - r.done ≤ 1) ||
      ([1, 2, 3].filter (fun c => decide (c ≠ cls))).all (fun c => decide (d.readyIn p (key / 4 * 4 + c) = [])))

/-- A gateway may execute the message of a flow now: it needs no port, as a FENCE and a message that its checks refuse, or
what is left of it is performed as one piece. -/
def Dev.mayExecute (d : Dev) (key : Nat) (f : BitVec 12) : Bool :=
  match d.portAsks key f with
  | none => true
  | some (m, _, r) => d.portAlone key f (messageBytes m) r

/-- The port after a message of class c has been performed as one piece: the CPU class waits three cycles (R420). -/
def Dev.portUsed (d : Dev) (key : Nat) (asks : Option (List Cell × List Cell × BankRun)) : Dev :=
  match asks with
  | none => d
  | some (m, _, r) =>
    let p := d.runBank r
    let x := d.bankPort p
    let n := runLength (messageBytes m) r - r.done
    d.setBankPort p { x with last := d.portGrant p, sinceCpu := if key % 4 = 1 then 0 else min 3 (x.sinceCpu + n) }

/-- GATEWAY_EXECUTE_*: the next message of the flow in that queue, where it is of the type and may execute. Where the port
serves another message between its words, BANK_PORT_CYCLE grants them one at a time. -/
def Dev.gateway (d : Dev) (type k : Nat) (cls : BitVec 2) (f : BitVec 12) (upsets : List (BitVec 16 × BitVec 3 × Bool)) : Dev :=
  let key := classKey k cls
  match d.gateReady key f with
  | some (m, rest) =>
    if getLE 1 (messageBytes m) 0 = type ∧ d.mayExecute key f then
      (d.portUsed key (d.portAsks key f)).gateExecute key m rest upsets
    else d
  | none => d

def execGatewayExecuteWrite (k : Fin 16) (cls : BitVec 2) (f : BitVec 12) (upsets : List (BitVec 16 × BitVec 3 × Bool))
    (s : State) : Host.Outcome State Fault Refusal :=
  finish s (s.dev.gateway 1 k cls f upsets)

def execGatewayExecuteRead (k : Fin 16) (cls : BitVec 2) (f : BitVec 12) (upsets : List (BitVec 16 × BitVec 3 × Bool))
    (s : State) : Host.Outcome State Fault Refusal :=
  finish s (s.dev.gateway 2 k cls f upsets)

def execGatewayExecuteFence (k : Fin 16) (cls : BitVec 2) (f : BitVec 12) (s : State) : Host.Outcome State Fault Refusal :=
  finish s (s.dev.gateway 4 k cls f [])

/-- The next word of a migration is copied: an uncorrectable lane becomes a poisoned one, counted (R432). -/
def Dev.copyNext (d : Dev) (p : Nat) (upsets : List (BitVec 16 × BitVec 3 × Bool)) : Dev :=
  match d.mirrorOf p with
  | none => d
  | some q =>
    let a := d.fld bankRemap 8 17
    let d := (d.upset p upsets).decodeWord p a
    let bad := ((List.range 8).filter (fun l => decide (2 ≤ d.laneErr p a l))).length
    ((d.count bankPoison bad).copyWord p q a).setFld bankRemap 8 17 (a + 1)

/-- One word of a message is granted: the word is accessed and, with the last one, the message is answered. It answers
whether the access takes a second cycle, as a read-modify-write does (R408, R421). -/
def Dev.portWord (d : Dev) (key : Nat) (f : BitVec 12) (upsets : List (BitVec 16 × BitVec 3 × Bool)) : Dev × Bool :=
  match d.portAsks key f with
  | none => (d, false)
  | some (m, rest, r) =>
    let bs := messageBytes m
    let a := r.offset / 64 + r.done
    let rmw := decide (getLE 1 bs 0 = 1) && (List.range 8).any (fun l => decide (laneCover r.offset (getLE 2 bs 2) a l = 1))
    let (d, r) := (d.upset (d.runBank r) upsets).runWord bs r
    (if r.done < runLength bs r then
      { d with bank := { d.bank with running := mput (key * 4096 + f.toNat) r d.bank.running } }
    else ((d.runClose key f rest).runAnswer (gateOf (key / 4)) bs r).tagReplies key, rmw)

/-- BANK_PORT_CYCLE: one cycle of physical bank p's port. A grant to a class performs one word of the message that it
names. The second cycle of a read-modify-write of the CPU class is a cycle granted to it. -/
def Dev.portCycle (d : Dev) (p : Nat) (upsets : List (BitVec 16 × BitVec 3 × Bool)) : Dev :=
  let x := d.bankPort p
  let g := if x.second then .second else d.portGrant p
  let k := (d.portBank p).getD 0
  let isCpu := match g with
    | .cpu _ _ => true
    | .second => decide (x.sinceCpu = 0)
    | _ => false
  let isCopy := decide (g = .copy)
  let wait := if isCopy || !d.copyDue p then 0 else min 256 (x.copyWait + 1)
  let (d, rmw) := match g with
    | .cpu _ f => d.portWord (k * 4 + 1) (BitVec.ofNat 12 f) upsets
    | .data _ f => d.portWord (k * 4 + 2) (BitVec.ofNat 12 f) upsets
    | .dma _ f => d.portWord (k * 4 + 3) (BitVec.ofNat 12 f) upsets
    | .copy => (d.copyNext p upsets, false)
    | .writeBack =>
      (match mget (fun _ => []) d.bank.writeback p with
      | a :: _ => d.writeBackWord p a
      | [] => d, false)
    | _ => (d, false)
  d.setBankPort p { last := g, second := rmw, sinceCpu := if isCpu then 0 else min 3 (x.sinceCpu + 1), copyWait := wait }

def execBankPortCycle (p : Fin 17) (upsets : List (BitVec 16 × BitVec 3 × Bool)) (s : State) :
    Host.Outcome State Fault Refusal :=
  finish s (s.dev.portCycle p upsets)

/-- Every message of which an access has been granted on physical bank p runs to its end, whatever else it would wait for
(R427, R435). -/
def Dev.finishRuns (d : Dev) (p : Nat) : Dev :=
  d.forEach (d.bank.running.filter (fun e => decide (d.runBank e.2 = p))) (fun d e =>
    let key := e.1 / 4096
    match (wholeMessages (BitVec.ofNat 12 (e.1 % 4096)) (d.bankQ key)).find? (fun x => decide (firstNum x.1 = e.2.num)) with
    | some (m, rest) => d.gateExecute key m rest []
    | none => { d with bank := { d.bank with running := mdel d.bank.running e.1 } })

/-! ## Ownership (R410 to R413) -/

/-- A control port owns bank k: one of its region's endpoints is the owner. -/
def Dev.ownsBank (d : Dev) (id : Fin 13) (k : Nat) : Bool :=
  let o := d.fld (bankOwner k) 0 6
  decide (id ≠ 0) && d.granted id 7 && isRegionEp o && decide (epRegion o = id.val - 1)

/-- A write of BANK_OWNER: by the hive, by the owner's control port, or a claim (R411). -/
def Dev.ownerWrite (d : Dev) (id : Fin 13) (k : Nat) (v : Word) : Dev :=
  let e := bits v 0 6
  let claim := decide (id ≠ 0) && d.granted id 7 && decide (d.fld (bankOwner k) 0 6 = ownerNone) && isRegionEp e &&
    decide (epRegion e = id.val - 1)
  if id = 0 || d.ownsBank id k || claim then d.startHandover k e
  else d.ctrlDecode id.val true false (bankOwner k)

def execBankOwnerWrite (id : Fin 13) (k : Fin 16) (v : Word) (s : State) : Host.Outcome State Fault Refusal :=
  finishBy id s (s.dev.ownerWrite id k v)

/-- The payload of BANK_OWNER_SET. -/
def Dev.ownerPayload (d : Dev) (k : Nat) : List Byte := putLE 1 k ++ putLE 1 (d.fld (bankOwner k) 0 6) ++ zeros 2

/-- Steps 2 to 5 of R412: nothing that arrived before step 1 is left. A secure partition is wiped first, and the handover
goes on when the wipe has ended; a bank that is powered down holds nothing to wipe. -/
def Dev.handoverDrained (d : Dev) (k : Nat) : Dev :=
  let busy := [1, 2, 3].any (fun c => decide (d.bankQ (k * 4 + c) ≠ []))
  if d.rbit (bankOwner k) 31 && !busy && !d.rbit (bankCtrl k) 31 then
    if d.rbit (bankCtrl k) 1 && !d.bankDown (d.physOf k) then d.startWipe k
    else
      let d := (d.setRbit (bankCtrl k) 1 false).takeOwner k
      d.endJob (fun j => decide (j = .ownerSet k)) (ansOk (d.ownerPayload k))
  else d

def execBankHandoverDrained (k : Fin 16) (s : State) : Host.Outcome State Fault Refusal := finish s (s.dev.handoverDrained k)

/-! ## Secure partitions (R415 to R418) -/

/-- The final payload of BANK_MARCH: BANK_REPAIR and BANK_FAIL_ROW (R538). -/
def Dev.marchPayload (d : Dev) (p : Nat) : List Byte :=
  putLE 4 (d.bankFree p * 65536 + (mget (fun _ => []) d.bank.repairs p).length * 256 + Config.bankFused p) ++
  putLE 4 (d.reg (bankFailRow p)).toNat

/-- A march on a bank that powers down was cut short: INCOMPLETE (R429). -/
def Dev.cutMarch (d : Dev) (p : Nat) : Dev :=
  d.endJob (fun j => decide (j = .march p)) (stTestIncomplete, d.marchPayload p)

/-- The next bank that a start tests: one at a time, in ascending number (R426). One that is powered
down is tested at its restore. -/
def Dev.nextStartMarch (d : Dev) (p : Nat) : Dev :=
  match (List.range 17).find? (fun q => decide (p < q) && !d.bankDown q && decide (d.fld (bankTestStatus q) 0 3 = 0)) with
  | some q => d.startMarch q { checker := false, preserving := false, cause := .start, stopped := false }
  | none => d

/-- RETAIN = 0 while the 0.752 V rung holds: the bank powers down (R435), with the spilled threads that it holds (R468), and a copy from it is abandoned; the spec
gives that command's final status no value. -/
def Dev.bankRung (d : Dev) (k : Nat) : Dev :=
  let p := d.physOf k
  if d.rbit pwrStatus 2 && !d.rbit (bankCtrl k) 0 && !d.bankDown p then
    let copying := decide (d.remapState = 1 ∨ d.remapState = 3) && decide (d.remapTarget = k)
    let starting := (d.march? p).any (fun m => decide (m.cause = .start))
    let d := (((d.finishRuns p).powerDown p).cutMarch p).spillLost p
    let d := d.cond starting (fun d => d.nextStartMarch p)
    if copying then
      let a : Answer := ((d.freeVal 16 : BitVec 16).toNat, putLE 4 (d.reg bankRemap).toNat)
      (d.freeNext.endJob (fun j => decide (j = .migrate k)) a).endJob (fun j => decide (j = .remapUndo k)) a
    else d
  else d

/-- A write of BANK_CTRL: RETAIN by the hive or the owner's port, SECURE by the owner's port while the owner is a secure
master (R415, R437). -/
def Dev.bankCtrlWrite (d : Dev) (id : Fin 13) (k : Nat) (v : Word) : Dev :=
  if id = 0 || d.ownsBank id k then
    let d := (d.setRbit (bankCtrl k) 0 (bit v 0)).bankRung k
    if decide (id ≠ 0) && d.secureMaster (d.fld (bankOwner k) 0 6) then
      (if bit v 1 then d.setRbit (bankCtrl k) 1 true else d.startWipe k)
    else d
  else d.ctrlDecode id.val true false (bankCtrl k)

/-- A write of SECURE that leaves RETAIN as it is. -/
def execBankSecureWrite (id : Fin 13) (k : Fin 16) (secure : Bool) (s : State) : Host.Outcome State Fault Refusal :=
  finishBy id s (s.dev.bankCtrlWrite id k (setBit (s.dev.reg (bankCtrl k) &&& 1) 1 secure))

/-- The wipe ends: WIPING and SECURE clear, a march that it stopped goes on (R416, R418), and a handover that waited for it
ends (R412). -/
def Dev.wipeDone (d : Dev) (k : Nat) : Dev :=
  if d.rbit (bankCtrl k) 31 then
    let d := d.clearBits (bankCtrl k) [31, 1]
    ((d.restartMarch (d.physOf k)).wipeIdleDone).handoverDrained k
  else d

def execBankWipeDone (k : Fin 16) (s : State) : Host.Outcome State Fault Refusal := finish s (s.dev.wipeDone k)

/-- A load that leaves the owning endpoint of a bank with SECURE = 1 no longer a secure master wipes it (R416). -/
def Dev.recheckSecure (d : Dev) : Dev :=
  d.forEach (List.range 16) (fun d k =>
    if d.rbit (bankCtrl k) 1 && !d.secureMaster (d.fld (bankOwner k) 0 6) then d.startWipe k else d)

/-! ## Marches (R425 to R430, R443) -/

/-- Why a march of R427 is refused now: 0 not at all, 1 another work on the bank, 2 powered down. -/
def Dev.marchBusy (d : Dev) (p : Nat) : Nat :=
  let copying := decide (d.remapState = 1 ∨ d.remapState = 3) &&
    (decide (p = 16) || decide (p = d.remapTarget))
  if d.bankDown p then 2 else if (d.march? p).isSome || copying || d.rbit pwrStatus 0 then 1 else 0

/-- A write of BANK_TEST_CTRL: only where R427 allows a march, otherwise nothing. -/
def Dev.testCtrlWrite (d : Dev) (p : Nat) (v : Word) : Dev :=
  if bit v 31 && d.served 1 && decide (d.marchBusy p = 0) then
    (d.finishRuns p).startMarch p { checker := bit v 0, preserving := bit v 4, cause := .command, stopped := false }
  else d

/-- The same from the control bus: by the hive, and with GO where R551 serves the test engine. -/
def Dev.testCtrlBus (d : Dev) (id : Fin 13) (p : Nat) (v : Word) : Dev :=
  let off := 0x482000 + 0x40 * p
  hiveWrite d id off (fun d => if bit v 31 && !d.served 1 then d.ctrlDecode id.val true false off else d.testCtrlWrite p v)

def execBankTestGo (id : Fin 13) (p : Fin 17) (v : Word) (s : State) : Host.Outcome State Fault Refusal :=
  finishBy id s (s.dev.testCtrlBus id p (setBit v 31 true))

/-- BANK_REPAIR_EXHAUSTED for one row (R430). -/
def Dev.repairExhausted (d : Dev) (p row : Nat) : Dev :=
  d.escalate clsRepair srcBank (Path.bank p none) (putLE 2 row)

/-- Soft repair: each failing row, in ascending order, takes a free spare row that did not fail itself. -/
def Dev.softRepair (d : Dev) (p : Nat) (failing : List Nat) (spareBad : Nat) : Dev :=
  d.forEach failing (fun d row =>
    let d := d.setReg (bankFailRow p) (BitVec.ofNat 32 (2 ^ 31 + row))
    if spareBad < d.bankFree p then
      { d with bank := { d.bank with
          repairs := mset (fun _ => []) d.bank.repairs p
            (insOne (fun a b => decide (a ≤ b)) row (mget (fun _ => []) d.bank.repairs p)) } }
    else d.repairExhausted p row)

/-- BANK_CLEARED (R435): the bank holds zeros and its partition is no longer secure. -/
def Dev.bankCleared (d : Dev) (p : Nat) : Dev :=
  match d.logicalOf p with
  | none => d
  | some k =>
    (d.setRbit (bankCtrl k) 1 false).logEntry 0x2C srcBank (Path.bank p none) (putLE 1 k ++ putLE 1 p)

/-- Every operation of a march has been run. `failing` are the rows that failed, `spareBad` the free spare rows that
failed. -/
def Dev.marchDone (d : Dev) (p : Nat) (failing : List (Fin 2048)) (spareBad : Nat) : Dev :=
  match d.march? p with
  | none => d
  | some m =>
    if m.stopped then d
    else
      let rows := (List.range 2048).filter (fun r => failing.any (fun f => decide (f.val = r)))
      let pass := decide (rows.length ≤ d.bankFree p - spareBad)
      let d := d.endMarch p
      let d := d.softRepair p rows spareBad
      let d := if m.preserving then d else d.zeroBank p
      let d := (d.setService p (if pass then 0 else 2)).setFld (bankTestStatus p) 0 3 (if pass then resPass else resFail)
      let d := match m.cause with
        | .start => d.nextStartMarch p
        | .restore => d.bankCleared p
        | _ => d
      let d := d.endJob (fun j => decide (j = .march p)) (if pass then stOk else stInTest, d.marchPayload p)
      match d.logicalOf p with
      | some k => d.bankRung k
      | none => d

/-! ## The spare bank (R431 to R434) -/

/-- A copy has reached its last word. -/
def Dev.copied16 (d : Dev) : Bool := decide (d.fld bankRemap 8 17 = 65536)

/-- Step 3 of R433: bank 16 serves the logical bank. -/
def Dev.migrateDone (d : Dev) : Dev :=
  if d.remapState = 1 ∧ d.copied16 then
    let d := (d.setFld bankRemap 30 2 2).logEntry 0x2B srcBank Path.chip []
    let d := { d with bank := { d.bank with retested := false } }
    d.endJob (fun j => decide (j = .migrate d.remapTarget)) (ansOk (putLE 4 (d.reg bankRemap).toNat))
  else d

def execBankMigrateDone (s : State) : Host.Outcome State Fault Refusal := finish s s.dev.migrateDone

/-- The copy back ends: the original bank serves its addresses again. -/
def Dev.undoDone (d : Dev) : Dev :=
  if d.remapState = 3 ∧ d.copied16 then
    let d := d.setFld bankRemap 30 2 0
    d.endJob (fun j => decide (j = .remapUndo d.remapTarget)) (ansOk (putLE 4 (d.reg bankRemap).toNat))
  else d

def execBankRemapUndoDone (s : State) : Host.Outcome State Fault Refusal := finish s s.dev.undoDone

/-! ## BANK_ registers (R437 to R444) -/

/-- BANK_CLEAR.ALL clears the bank's statistics counters. -/
def Dev.bankClearWrite (d : Dev) (k : Nat) (v : Word) : Dev :=
  if bit v 0 then (d.statClear (bankWordsR k)).statClear (bankWordsW k) else d

/-- A write of the rest of the BANK_L_ block: by the hive or the owner's control port. -/
def bankWriter (d : Dev) (id : Fin 13) (k off : Nat) (f : Dev → Dev) : Dev :=
  if id = 0 || d.ownsBank id k then f d else d.ctrlDecode id.val true false off

def execBankClear (id : Fin 13) (k : Fin 16) (s : State) : Host.Outcome State Fault Refusal :=
  finishBy id s (bankWriter s.dev id k (0x481030 + 0x40 * k.val) (fun d => d.bankClearWrite k 1))

/-- A write of a BANK_ register that has a row in a register table (R437): the hive writes the registers that the rule
names, the owner's control port its BANK_L_ block. -/
def Dev.bankWrite (d : Dev) (id : Fin 13) (off : Nat) (v : Word) : Dev :=
  if 0x482000 ≤ off then
    (if (off - 0x482000) % 0x40 = 0 then d.testCtrlBus id ((off - 0x482000) / 0x40) v else d.ctrlDecode id.val true false off)
  else if off < 0x481000 then d.ctrlDecode id.val true false off
  else
    let k := (off - 0x481000) / 0x40
    match (off - 0x481000) % 0x40 with
    | 0x00 => d.ownerWrite id k v
    | 0x04 => d.bankCtrlWrite id k v
    | 0x08 => bankWriter d id k off (fun d => d.setReg off (v &&& 0x0FFFFFFF))
    | 0x0C => bankWriter d id k off (fun d => d.setReg off (v &&& 0x0FFFFFFF))
    | 0x10 => bankWriter d id k off (fun d => d.setReg off v)
    | 0x14 => bankWriter d id k off (fun d => d.setReg off v)
    | 0x30 => bankWriter d id k off (fun d => d.bankClearWrite k v)
    | _ => if id ≠ 0 && d.ownsBank id k then d else d.ctrlDecode id.val true false off

/-- Who may read a BANK_ register (R437). -/
def Dev.bankReadOk (d : Dev) (id : Fin 13) (off : Nat) : Bool :=
  decide (id = 0) || (decide (0x481000 ≤ off ∧ off < 0x481400) && d.ownsBank id ((off - 0x481000) / 0x40))

/-- Cells in a request queue, with those that a handover holds. -/
def Dev.bankLevel (d : Dev) (key : Nat) : Nat := (d.bankQ key).length + (mget (fun _ => []) d.bank.heldq key).length

/-- BANK_REPAIR. -/
def Dev.bankRepairWord (d : Dev) (p : Nat) : Word :=
  BitVec.ofNat 32 (d.bankFree p * 65536 + (mget (fun _ => []) d.bank.repairs p).length * 256 + Config.bankFused p)

/-- The computed registers of the banks. -/
def Dev.bankView (d : Dev) (off : Nat) : Option Word :=
  if 0x481000 ≤ off ∧ off < 0x481400 then
    let k := (off - 0x481000) / 0x40
    if (off - 0x481000) % 0x40 = 0x1C then
      some (BitVec.ofNat 32 (d.bankLevel (k * 4 + 1) + d.bankLevel (k * 4 + 2) * 512 + d.bankLevel (k * 4 + 3) * 2 ^ 20))
    else none
  else if 0x482000 ≤ off ∧ off < 0x482440 ∧ (off - 0x482000) % 0x40 = 8 then
    some (d.bankRepairWord ((off - 0x482000) / 0x40))
  else none

end Sys2Proof.Machine
end

