-- ==== Sys2Proof/Machine/DmaOps.lean ====
section
/-! DEFINITION. DMA channels, descriptors, translation and faults as shared operations (R478 to R502). -/
namespace Sys2Proof.Machine

/-! ## Settings of a channel (R507) -/

def Dev.chLevel (d : Dev) (e c : Nat) : Nat := d.fld (dmaChCfg e c) 26 2
def Dev.chSpace (d : Dev) (e c : Nat) : Nat := d.fld (dmaChCfg e c) 16 6
def Dev.chDesc (d : Dev) (e c : Nat) : Nat := (d.reg (dmaChDesc e c 0)).toNat + d.fld (dmaChDesc e c 1) 0 8 * 2 ^ 32

def Dev.setChDesc (d : Dev) (e c va : Nat) : Dev :=
  (d.setReg (dmaChDesc e c 0) (BitVec.ofNat 32 va)).setReg (dmaChDesc e c 1) (BitVec.ofNat 32 (va / 2 ^ 32 % 256))

/-- DONE_EV is signalled where SIG_EN is set (R487). -/
def Dev.doneSignal (d : Dev) (e c : Nat) : Dev :=
  if d.rbit (dmaChCfg e c) 22 then d.hwSignal (d.fld (dmaChCfg e c) 0 9) else d

/-! ## Descriptors (R480) -/

def dType (b : List Byte) : Nat := getLE 1 b 0
def dFlag (b : List Byte) (i : Nat) : Bool := (getLE 1 b 1).testBit i
def dChain (b : List Byte) : Bool := dFlag b 0
def dSignal (b : List Byte) : Bool := dFlag b 1
def dSom (b : List Byte) : Bool := dFlag b 2
def dEom (b : List Byte) : Bool := dFlag b 3
def dFlow (b : List Byte) : Nat := getLE 2 b 2 % 4096
def dLen (b : List Byte) : Nat := getLE 4 b 4
def dSrc (b : List Byte) : Nat := getLE 5 b 8
def dDst (b : List Byte) : Nat := getLE 5 b 13
def dNext (b : List Byte) : Nat := getLE 5 b 18

/-- The access class of the descriptor's requests. -/
def dClass (b : List Byte) : BitVec 2 :=
  match getLE 1 b 1 / 16 % 4 with
  | 1 => 1
  | 2 => 2
  | _ => 3

def isM2M (b : List Byte) : Bool := decide (dType b = 1)
def isM2F (b : List Byte) : Bool := decide (dType b = 2)
def isF2M (b : List Byte) : Bool := decide (dType b = 3)

/-- The flow that the descriptor names is allowed (R482). -/
def Dev.flowOk (d : Dev) (e : Nat) (b : List Byte) : Bool :=
  let x := d.flow (dFlow b)
  if isM2F b then x.liveFrom (49 + e)
  else if isF2M b then decide (x.dest.toNat = 49 + e) && (decide (x.state = .live) || decide (x.state = .moving))
  else true

/-- The descriptor meets R480 and R482; `isOpen` where the channel's message is open. -/
def Dev.descOk (d : Dev) (e : Nat) (b : List Byte) (isOpen : Bool) : Bool :=
  decide (1 ≤ dType b ∧ dType b ≤ 3) && decide (getLE 1 b 1 < 64) && decide (getLE 2 b 2 < 4096) &&
  decide (1 ≤ dLen b ∧ dLen b ≤ 16777216) && decide (getLE 1 b 23 = 0) &&
  (!isM2M b || decide (dFlow b = 0)) && (!isF2M b || decide (dSrc b = 0)) && (!isM2F b || decide (dDst b = 0)) &&
  !(isM2F b && dSom b && isOpen) && d.flowOk e b

/-! ## Servers and routes (R52, R141, R485) -/

/-- The route index of the server of a physical address; none where the address is unmapped. -/
def Dev.serverOf (d : Dev) (pa : Nat) : Option Nat :=
  if pa < 0x04000000 then some (pa / 0x800000)
  else if inSpareWindow pa then (if d.remapState = 1 then some (d.remapTarget / 2) else none)
  else if 0x0100000000 ≤ pa ∧ pa < 0x0100C00000 then
    (if (pa - 0x0100000000) % 0x100000 < 0xF0000 then some (8 + (pa - 0x0100000000) / 0x100000) else none)
  else if 0x0200000000 ≤ pa ∧ pa < 0x0201000000 then some 20
  else if 0x0300000000 ≤ pa ∧ pa < 0x0600000000 then some (8 + (pa - 0x0300000000) / 0x40000000)
  else none

def Dev.reqFlow (d : Dev) (e s : Nat) : Nat := d.fld (dmaRoute e s) 0 12
def Dev.dmaReplyFlow (d : Dev) (e s : Nat) : Nat := d.fld (dmaRoute e s) 16 12

/-- The route is usable. -/
def Dev.routeOk (d : Dev) (e s : Nat) : Bool :=
  d.rbit (dmaRoute e s) 31 && (d.flow (d.reqFlow e s)).liveFrom (49 + e) &&
  decide ((d.flow (d.reqFlow e s)).dest.toNat = serverEp s) && (d.flow (d.dmaReplyFlow e s)).liveFrom (serverEp s) &&
  decide ((d.flow (d.dmaReplyFlow e s)).dest.toNat = 49 + e)

/-! ## Translation (R489, R491 to R493) -/

inductive Xlate where
  | hit (pa : Nat)
  | miss
  | fault (f : FaultInfo)
  deriving DecidableEq, Repr

def TlbEnt.covers (t : TlbEnt) (space va : Nat) : Bool := decide (t.space = space) && decide (va / 2 ^ t.shift = t.vpn)

def TlbEnt.pa (t : TlbEnt) (va : Nat) : Nat := t.ppn * 2 ^ t.shift + va % 2 ^ t.shift

/-- The checks of a physical address before a request is issued. -/
def Dev.paCheck (d : Dev) (e : Nat) (write : Bool) (pa : Nat) (f : FaultInfo) : Xlate :=
  match d.serverOf pa with
  | none => .fault { f with kind := 1, detail := 0x04, pa }
  | some s =>
    if write && decide (s = 20) then .fault { f with kind := 2, detail := 0x12, pa }
    else if !d.routeOk e s then .fault { f with kind := 1, detail := 0x05, pa }
    else .hit pa

/-- A virtual address of a channel's space: phase 0 descriptor fetch, 1 source read, 2 destination write. -/
def Dev.xlate (d : Dev) (e c va phase : Nat) (off : Option Nat) : Xlate :=
  let a := d.chSpace e c
  let f : FaultInfo := { kind := 1, detail := 0, phase, walk := false, va, pa := 0, level := 0, off }
  if !d.rbit (xltAsCfg a) 31 then .fault { f with detail := 0x06 }
  else if d.rbit (xltAsCfg a) 30 then d.paCheck e (decide (phase = 2)) va f
  else
    match (d.dmaEng e).tlb.find? (fun t => t.covers a va) with
    | none => .miss
    | some t =>
      if decide (phase = 2) && !t.w then .fault { f with kind := 2, detail := 0x11, pa := t.pa va }
      else if decide (phase ≠ 2) && !t.r then .fault { f with kind := 2, detail := 0x10, pa := t.pa va }
      else d.paCheck e (decide (phase = 2)) (t.pa va) f

/-- The entry that translated an address becomes the latest used one (R493). -/
def Dev.touch (d : Dev) (e c va : Nat) : Dev :=
  let a := d.chSpace e c
  d.updEng e (fun x => { x with tlb := x.tlb.filter (fun t => t.covers a va) ++ x.tlb.filter (fun t => !t.covers a va) })

/-! ## Requests (R481, R483, R486, R490) -/

/-- A TAG that no outstanding request of the engine has: a free value, moved on past them. -/
def Dev.newTag (d : Dev) (e : Nat) : BitVec 16 × Dev :=
  let v : BitVec 16 := d.freeVal 16
  let used := (d.dmaEng e).reqs.map (fun r => r.tag)
  let t := ((List.range (used.length + 1)).map (fun i => v + BitVec.ofNat 16 i)).find? (fun t => !used.contains t)
  (t.getD v, d.freeNext)

/-- A request leaves the engine on its server's REQ_FLOW. -/
def Dev.sendReq (d : Dev) (e c s : Nat) (kind : ReqKind) (cls : BitVec 2) (type len pa : Nat) (data : List Byte) : Dev :=
  let (tag, d) := d.newTag e
  let h := memHeader type (if type = 1 then 1 else 0) len (d.dmaReplyFlow e s) tag.toNat pa 0 0
  let d := d.sendMessage (49 + e) (d.reqFlow e s) cls (BitVec.ofNat 6 (d.chSpace e c)) (h ++ data)
  let r : DmaReq := { tag, chan := Fin.ofNat 16 c, kind, server := s,
                      cells := if type = 1 then 1 else (79 + len) / 64, dead := false, lost := false }
  d.updEng e (fun x => { x with reqs := x.reqs ++ [r] })

/-- The cells of REQ_FLOW can go now (R132, R486), and the store has room for the answer. -/
def Dev.canSend (d : Dev) (e s cells : Nat) : Bool :=
  d.txQready (49 + e) (d.reqFlow e s) && decide (d.storeUse e + cells ≤ 2048)

/-! ## Ends of chains (R479, R487, R500, R501) -/

/-- A channel's queued record leaves the queues (R498). -/
def recChan (r : List Byte) : Nat := getLE 1 r 2
def Dev.dropRecord (d : Dev) (e c : Nat) : Dev :=
  let mine (r : List Byte) : Bool := decide (recChan r = e * 16 + c)
  let d := d.updEng e (fun x => { x with fq := x.fq.filter (fun r => !mine r) })
  { d with dma := { d.dma with slq := d.dma.slq.filter (fun r => !mine r) } }

/-- The channel's answers to come are discarded, and its walk ends. -/
def Dev.killReqs (d : Dev) (e c : Nat) : Dev :=
  d.updEng e (fun x => { x with
    reqs := x.reqs.map (fun r => if r.chan.val = c then { r with dead := true } else r),
    walk := x.walk.filter (fun w => decide (w.chan.val ≠ c)) })

/-- ABORTING ends when the last answer has arrived. -/
def Dev.abortEnds (d : Dev) (e c : Nat) : Dev :=
  let x := d.dmaChan e c
  if x.state = .aborting ∧ (d.dmaEng e).reqs.all (fun r => decide (r.chan.val ≠ c) || r.lost) then
    (d.setDmaChan e c { x with state := .idle, result := x.ending }).doneSignal e c
  else d

/-- The cells of a flow in the receive store. -/
def Dev.flowCells (d : Dev) (e f : Nat) : List Cell := (d.rxCells (49 + e)).filter (fun c => decide (c.flow.toNat = f))

/-- A flow is no longer bound to the channel: its cells leave the store, counted, unless another channel runs it. -/
def Dev.unbind (d : Dev) (e c : Nat) : Dev :=
  match (d.dmaChan e c).bound with
  | none => d
  | some f =>
    let d := d.updChan e c (fun x => { x with bound := none, skip := 0 })
    if (d.boundChan e f.toNat).isSome then d
    else
      let cs := d.flowCells e f.toNat
      (d.setRx (49 + e) ((d.rxCells (49 + e)).filter (fun c => decide (c.flow ≠ f)))).count (dmaRxUnbound e) cs.length

/-- Bytes of the descriptor before the resume point, or done. -/
def DmaChan.doneBytes (x : DmaChan) : Nat :=
  if isM2F x.desc then x.sent
  else match x.groups with
    | g :: _ => g.off
    | [] => x.next

/-- A chain ends early: through ABORTING to IDLE with this RESULT. -/
def Dev.endChain (d : Dev) (e c : Nat) (result : Nat) : Dev :=
  let d := (((d.dropRecord e c).killReqs e c).releaseEngine e c).unbind e c
  let d := d.updChan e c (fun x => { x with
    state := .aborting, ending := BitVec.ofNat 8 result, next := x.doneBytes, groups := [], kept := [], fault := none, trying := none,
    msgOpen := false, somNext := false, msgCells := 0, part := [], asked := false })
  d.abortEnds e c

def resAborted : Nat := 1
def resBadDesc : Nat := 2
def resMsgLen : Nat := 3
def resUncorrectable : Nat := 4
def resFlow : Nat := 5
def resSecondLevel : Nat := 6

/-- A descriptor's run is over: the next one, or the end of the chain. -/
def Dev.descEnds (d : Dev) (e c : Nat) : Dev :=
  let b := (d.dmaChan e c).desc
  if dChain b then
    let d := d.cond (dSignal b) (fun d => d.doneSignal e c)
    let d := d.setChDesc e c (dNext b)
    d.updChan e c (fun x => { x with desc := [], asked := false, next := 0, stop := 0, sent := 0, groups := [], kept := [] })
  else
    let d := (d.updChan e c (fun x => { x with state := .idle, result := 0 })).releaseEngine e c
    let d := d.unbind e c
    d.doneSignal e c

/-! ## Faults (R495 to R499) -/

/-- The record. -/
def Dev.faultRecord (d : Dev) (e c : Nat) (f : FaultInfo) (done : Nat) (seq : Word) : List Byte :=
  putLE 1 f.kind ++ putLE 1 f.detail ++ putLE 1 (e * 16 + c) ++ putLE 1 (f.phase + 128 * b2n f.walk) ++ putLE 5 f.va ++
  putLE 5 f.pa ++ putLE 1 (d.chSpace e c) ++ putLE 1 f.level ++ putLE 5 (d.chDesc e c) ++ zeros 3 ++ putLE 4 done ++
  putLE 4 seq.toNat

/-- The record of a fault is posted, and the channel stops at its resume point. The data of the faulting request and of the
writes sent after it are kept, as is all that an F2M descriptor has taken from its flow; other source reads are discarded
(R497). -/
def Dev.postFault (d : Dev) (e c : Nat) (f : FaultInfo) : Dev :=
  let x := d.dmaChan e c
  let at_ := if isM2F x.desc then x.sent else f.off.getD 0
  let kept := x.groups.filterMap (fun g =>
    let sent := decide (g.st = .writing) || decide (g.st = .done) || isF2M x.desc || decide (g.off = at_)
    if at_ ≤ g.off ∧ g.parts = [] ∧ g.data.length = g.len ∧ !isM2F x.desc ∧ sent then some (g.off, g.data) else none)
  let d := (d.killReqs e c).setDmaChan e c
    { x with state := .faulted, fault := none, trying := none, asked := false, groups := [], next := at_,
             kept := kept ++ x.kept.filter (fun k => !(kept.map (·.1)).contains k.1) }
  let d := ((d.count (dmaFaults e)).count (dmaChFaults e c)).releaseEngine e c
  match d.chLevel e c with
  | 0 =>
    let seq := (d.dmaEng e).fqSeq
    let r := d.faultRecord e c f at_ seq
    let d := d.updEng e (fun x => { x with fq := x.fq ++ [r], fqSeq := seq + 1 })
    let d := d.setReg (dmaChFseq e c) seq
    if d.rbit (dmaEngCfg e) 31 then d.hwSignal (d.fld (dmaEngCfg e) 0 9) else d
  | 1 =>
    let seq := d.dma.slqSeq
    let r := d.faultRecord e c f at_ seq
    let d := { d with dma := { d.dma with slq := d.dma.slq ++ [r], slqSeq := seq + 1 } }
    (d.setReg (dmaChFseq e c) seq).logEntry 0x2E srcDma { region := none, unit := some (e * 16 + c), sub := none } (r.take 16)
  | _ =>
    let d := d.escalate clsDma srcDma { region := none, unit := some (e * 16 + c), sub := none }
      ((d.faultRecord e c f at_ 0).take 16)
    d.endChain e c resSecondLevel

/-- M2F data read and not yet taken into cells, in order. -/
def DmaChan.ready (x : DmaChan) : List Byte :=
  let gs := x.groups.takeWhile (fun g => decide (g.st = .toWrite))
  (gs.flatMap (fun g => g.data)).drop (x.sent - (gs.head?.map (fun g => g.off)).getD x.sent)

/-- The bytes of the descriptor that the next cell of an M2F message takes. -/
def DmaChan.cellTakes (x : DmaChan) : Nat := min (64 - x.part.length) (dLen x.desc - x.sent)

/-- Every transfer cell before the one at which a fault stands is done: written, or of an M2F descriptor sent, so that no whole
cell is left of what was read before it. -/
def DmaChan.upTo (x : DmaChan) (off : Nat) : Bool :=
  if isM2F x.desc then
    !x.groups.any (fun g => decide (g.off < off) && decide (g.st ≠ .toWrite)) && decide (x.ready.length < x.cellTakes)
  else !x.groups.any (fun g => decide (g.off < off))

/-- A pending fault is posted once every cell before it is done. -/
def Dev.faultDue (d : Dev) (e c : Nat) : Dev :=
  let x := d.dmaChan e c
  match x.fault with
  | none => d
  | some f =>
    if x.state = .idle ∨ x.state = .aborting ∨ x.state = .faulted then d
    else if x.desc = [] ∨ x.upTo (f.off.getD 0) then d.postFault e c f
    else d

/-- A fault is found: the earliest one in transfer order counts. -/
def Dev.faultFound (d : Dev) (e c : Nat) (f : FaultInfo) : Dev :=
  let x := d.dmaChan e c
  let earlier := match x.fault with
    | some g => decide (g.off.getD 0 ≤ f.off.getD 0)
    | none => false
  let d := if earlier then d else d.setDmaChan e c { x with fault := some f }
  d.faultDue e c

/-! ## Walks (R490, R491, R494) -/

/-- The address of the entry that a level reads in a table. -/
def entryAddr (table level va : Nat) : Nat :=
  table + 8 * (if level = 1 then va / 2 ^ 30 % 1024 else if level = 2 then va / 2 ^ 21 % 512 else va / 2 ^ 12 % 512)

def Dev.rootOf (d : Dev) (a : Nat) : Nat := d.fld (xltAsRoot a 0) 13 19 * 8192 + d.fld (xltAsRoot a 1) 0 8 * 2 ^ 32

def Walk.fault (w : Walk) (kind detail : Nat) (off : Option Nat) : FaultInfo :=
  { kind, detail, phase := w.phase, walk := true, va := w.va, pa := w.entry, level := w.level, off }

/-- Where the access that a walk serves stands in the descriptor: at a group that is still to be sent, or at a new one. -/
def DmaChan.walkOff (x : DmaChan) (va : Nat) : Option Nat :=
  if x.desc = [] then none
  else
    let mine (g : DmaGroup) : Bool :=
      decide (g.parts.head?.map (·.1) = some va) || decide ((dDst x.desc + g.off) % 2 ^ 40 = va)
    some (((x.groups.find? mine).map (·.off)).getD x.next)

/-- The walk ends in a fault of its channel. -/
def Dev.walkFault (d : Dev) (e : Nat) (w : Walk) (kind detail : Nat) : Dev :=
  let d := d.updEng e (fun x => { x with walk := none })
  d.faultFound e w.chan.val (w.fault kind detail ((d.dmaChan e w.chan.val).walkOff w.va))

/-- The walk reads its entry: a table outside the banks, or no route, is a fault; a suspended server is waited for. It
answers none where the read cannot go now. -/
def Dev.walkRead (d : Dev) (e : Nat) (w : Walk) : Option Dev :=
  if 0x04000000 ≤ w.entry then some (d.walkFault e w 1 0x03)
  else
    let s := w.entry / 0x800000
    if !d.routeOk e s then some (d.walkFault e w 1 0x05)
    else if d.serverSuspended s then
      (if (d.dmaChan e w.chan.val).state = .waitTest then none else some (d.enterWait e w.chan.val s))
    else if d.canSend e s 2 then
      let d := d.updEng e (fun x => { x with walk := some { w with asked := true } })
      some (d.sendReq e w.chan.val s .walk 1 2 8 w.entry [])
    else none

/-- A scope of an invalidation names an address of a space; a page is compared at the largest page size. -/
def InvalScope.names (x : InvalScope) (space va : Nat) : Bool :=
  match x with
  | .all => true
  | .space a => decide (a = space)
  | .page a v => decide (a = space) && decide (v / 2 ^ 21 = va / 2 ^ 21)

/-- A walk starts for a channel, where the engine has none. -/
def Dev.startWalk (d : Dev) (e c va phase : Nat) : Option Dev :=
  if (d.dmaEng e).walk.isSome then none
  else
    let a := d.chSpace e c
    let w : Walk := { chan := Fin.ofNat 16 c, space := a, va, phase, level := 1, entry := entryAddr (d.rootOf a) 1 va,
                      asked := false, stale := d.dma.inval.any (fun x => x.names a va) }
    let d := ((d.statUp xltMiss).statUp xltWalks).updEng e (fun x => { x with walk := some w })
    some ((d.walkRead e w).getD d)

/-- A stale walk begins anew, once the invalidation is over. -/
def Dev.redoWalk (d : Dev) (e : Nat) (w : Walk) : Dev :=
  let busy := d.dma.inval.any (fun x => x.names w.space w.va)
  let w' : Walk := { w with level := 1, entry := entryAddr (d.rootOf w.space) 1 w.va, asked := false, stale := busy }
  d.updEng e (fun x => { x with walk := some w' })

/-- A good leaf fills the TLB, which replaces its least recently used entry. -/
def Dev.fillTlb (d : Dev) (e : Nat) (w : Walk) (shift pa : Nat) (r wr : Bool) : Dev :=
  let t : TlbEnt := { space := w.space, shift, vpn := w.va / 2 ^ shift, ppn := pa / 2 ^ shift, r, w := wr }
  d.updEng e (fun x => { x with walk := none, tlb := (t :: x.tlb).take 128 })

/-- An entry has been read (R491). -/
def Dev.walkEntry (d : Dev) (e : Nat) (w : Walk) (v : Nat) : Dev :=
  let leaf := v.testBit 1
  let c := v.testBit 5
  let pa := v / 2 ^ 12 % 2 ^ 28 * 4096
  let reserved := decide (v / 2 ^ 40 % 2 ^ 16 ≠ 0) || decide (v / 2 ^ 6 % 2 ^ 6 ≠ 0) || v.testBit 4
  if !v.testBit 0 then d.walkFault e w 1 0x01
  else if reserved || (c && decide (w.level ≠ 3)) || (leaf && decide (w.level = 1)) || (!leaf && decide (w.level = 3)) ||
      (leaf && decide (w.level = 2) && decide (pa % 2 ^ 21 ≠ 0)) then d.walkFault e w 1 0x02
  else if leaf then
    d.fillTlb e w (if w.level = 2 then 21 else if c then 16 else 12) pa (v.testBit 2) (v.testBit 3)
  else
    let w' : Walk := { w with level := w.level + 1, entry := entryAddr pa (w.level + 1) w.va, asked := false }
    let d := d.updEng e (fun x => { x with walk := some w' })
    (d.walkRead e w').getD d

end Sys2Proof.Machine
end

