-- ==== Sys2Proof/Machine/Logic.lean ====
section
/-! DEFINITION. The logic regions (chapter 02): freeze and thaw commands, global lines, block memories, window engine,
queue controllers, shift registers, arithmetic blocks and I/O delays. -/
namespace Sys2Proof.Machine

/-! ## RGN_ register behaviour -/

/-- A write of RGN_CTRL: FREEZE wins over THAW; THAW changes nothing once a shutdown is done (R111, R637). -/
def Dev.rgnCtrl (d : Dev) (n : Nat) (v : Word) : Dev :=
  if bit v 0 then d.setReason n rsnCommand
  else if bit v 1 ∧ d.rbit pwrStatus 31 = false then d.thawCommand n
  else d

/-- A write of RGN_FAULT: clearing CONTENTION releases the latched taps and clears VALID of RGN_GLINE_FAULT
(R67, R114, R115). -/
def Dev.rgnFaultClear (d : Dev) (n : Nat) (v : Word) : Dev :=
  let d := d.setReg (rgnFault n) (d.reg (rgnFault n) &&& ~~~v)
  if bit v 1 then (d.releaseTaps n).setRbit (rgnGlineFault n) 31 false else d

/-- Only the hive may write RGN_ registers (R108); any other identity's access is refused (R49). -/
def hiveOnly (d : Dev) (id : Fin 13) (off : Nat) (f : Dev → Dev) : Dev :=
  if id = 0 then f d else d.ctrlDecode id.val true false off

def execRgnCtrlFreeze (id : Fin 13) (n : Fin 12) (v : Word) (s : State) : Host.Outcome State Fault Refusal :=
  finishBy id s (hiveOnly s.dev id (rgnBase n + 4) (fun d => d.rgnCtrl n (setBit v 0 true)))

def execRgnCtrlThaw (id : Fin 13) (n : Fin 12) (v : Word) (s : State) : Host.Outcome State Fault Refusal :=
  finishBy id s (hiveOnly s.dev id (rgnBase n + 4) (fun d => d.rgnCtrl n (setBit v 1 true)))

def execRgnFaultClear (id : Fin 13) (n : Fin 12) (v : Word) (s : State) : Host.Outcome State Fault Refusal :=
  finishBy id s (hiveOnly s.dev id (rgnFault n) (fun d => d.rgnFaultClear n v))

/-- The last step of a thaw (R78, R79): only where no freeze reason is left. The freeze latches open and the latched
contention taps are released; the first release after a load takes the pins out of configuration state (R331). -/
def Dev.thawDone (d : Dev) (n : Nat) : Dev :=
  if d.frozen n ∧ d.reasons n = 0 then
    let d := ((d.releaseTaps n).holdStopped n).setRbit (rgnStatus n) 31 false
    let d := { d with logic := { d.logic with thawAt := mdel d.logic.thawAt n } }
    ({ d with cfg := { d.cfg with pinsOut := setBit d.cfg.pinsOut n true } }).schedSettle
  else d

def execRegionThawDone (n : Fin 12) (s : State) : Host.Outcome State Fault Refusal := finish s (s.dev.thawDone n)

/-- CLK_LOST of a region endpoint (R121). -/
def execEndpointClockLost (e : Fin 52) (s : State) : Host.Outcome State Fault Refusal :=
  finish s (s.dev.cond (isRegionEp e) (fun d => (d.setRbit (fabEpStatus e) clkLostBit true).schedSettle.dmaSuspendAll))

def execEndpointClockRestored (e : Fin 52) (s : State) : Host.Outcome State Fault Refusal :=
  finish s (s.dev.cond (isRegionEp e) (fun d => (d.setRbit (fabEpStatus e) clkLostBit false).schedSettle))

/-! ## Contention on global lines (R66 to R68) -/

/-- The number of set bits among the lowest `n`. -/
def popCount (n w : Nat) : Nat := (bitList n w).length

/-- The keeper pulls a contended line low (R66). -/
def Dev.lineLow (d : Dev) (line : Nat) : Dev :=
  { d with logic := { d.logic with lines := mset (fun _ => false) d.logic.lines line false } }

/-- Contention on a region-wide line of region n. -/
def Dev.regionContention (d : Dev) (n line : Nat) (taps : BitVec 16) : Dev :=
  let k := lineKey n line
  let old := mget (fun _ => 0) d.logic.glineLatched k
  let d := d.lineLow k
  let d := { d with logic := { d.logic with
    glineLatched := mset (fun _ => 0) d.logic.glineLatched k (old ||| taps) } }
  let d := d.setRbit (rgnFault n) 1 true
  let d := d.setReg (rgnGlineFault n) (setBits (setBits (BitVec.ofNat 32 line) 12 16 taps.toNat) 31 1 1)
  d.escalate clsContention srcRegion (Path.rgn n) []

/-- Contention on a chip-wide line: the taps are named by their regions. -/
def Dev.chipContention (d : Dev) (line : Nat) (regions : BitVec 12) : Dev :=
  let old := mget (fun _ => 0) d.logic.clineLatched line
  let d := d.lineLow (chipLineKey line)
  let d := { d with logic := { d.logic with
    clineLatched := mset (fun _ => 0) d.logic.clineLatched line (old ||| regions) } }
  d.escalate clsContention srcRegion Path.chip (putLE 2 line ++ putLE 2 regions.toNat)

/-- The taps of a line that are enabled at an instant at which user logic drives the enables `user`: those that the image
configures, and none that is latched disabled (R63, R66). The freeze latches of a frozen region hold its chip-wide taps
(R64, R74). -/
def Dev.enabledTaps (d : Dev) (line : Nat) (user : BitVec 16) : Nat :=
  bitsOf 16 (fun p =>
    let ev (_ : Nat) (s : Sig) : Bool := if s = (d.tapCfg line p).enable then bit user p else false
    (d.tapNow ev line p).1)

/-- Two or more taps of one line are enabled at one instant; `region` is none for a chip-wide line, whose tap p is
region p's. -/
def execGlineContention (region : Option (Fin 12)) (line : BitVec 12) (taps : BitVec 16) (s : State) :
    Host.Outcome State Fault Refusal :=
  finish s
    (match region with
     | some n =>
       let on := s.dev.enabledTaps (lineKey n line.toNat) taps
       if 2 ≤ popCount 16 on then s.dev.regionContention n line.toNat (BitVec.ofNat 16 on) else s.dev
     | none =>
       let l := line.toNat % 128
       let on := s.dev.enabledTaps (chipLineKey l) taps % 4096
       if 2 ≤ popCount 12 on then s.dev.chipContention l (BitVec.ofNat 12 on) else s.dev)

/-! ## Block memories (R82 to R89) -/


/-- What an unlisted row reads as: zero, or a free value where a march was cut short (R81, R632). -/
def bramUnlisted (undef : List (Nat × Nat)) (k : Nat) : BitVec 72 :=
  let b := mget (fun _ => 0) undef (k / 122880)
  if b = 0 then 0 else Config.freeValue (b - 1 + k % 122880) 72

def Dev.bramRow (d : Dev) (n m r : Nat) : BitVec 72 := mget (bramUnlisted d.logic.bramFree) d.logic.bram (rowKey n m r)

def Dev.setBramRow (d : Dev) (n m r : Nat) (v : BitVec 72) : Dev :=
  { d with logic := { d.logic with bram := mset (bramUnlisted d.logic.bramFree) d.logic.bram (rowKey n m r) v } }

def Dev.bramErrOf (d : Dev) (n m r : Nat) : Nat := mget (fun _ => 0) d.logic.bramErr (rowKey n m r)

def Dev.setBramErr (d : Dev) (n m r v : Nat) : Dev :=
  { d with logic := { d.logic with bramErr := mset (fun _ => 0) d.logic.bramErr (rowKey n m r) v } }

/-- Every row of a region's memories zero, with a valid code: a load's first step (R81), and a march (R632). -/
def Dev.zeroBram (d : Dev) (n : Nat) : Dev :=
  { d with logic := { d.logic with
      bram := mdrop (fun k => decide (k / 122880 = n)) d.logic.bram,
      bramErr := mdrop (fun k => decide (k / 122880 = n)) d.logic.bramErr,
      bramFree := mdel d.logic.bramFree n } }

/-- Width of a word for a shift of R82: 72, 36, 18, 9, 4, 2, 1. -/
def widthOf (shift : Nat) : Nat := [72, 36, 18, 9, 4, 2, 1].getD shift 72

def cfgEcho (c : BramCfg) : BramSide → Echo
  | .a => c.echoA
  | .b => c.echoB

def cfgOutReg (c : BramCfg) : BramSide → Bool
  | .a => c.outRegA
  | .b => c.outRegB

/-- The row of an address (R82). -/
def rowOf (shift : Nat) (addr : BitVec 15) : Nat := (addr.toNat >>> shift) % 512

/-- The word of a row that an address names, right-aligned: the lowest address in the lowest bits (DESIGN CHOICE, log 55:
R82 gives the row of an address, not the bits of the row). -/
def wordOf (shift : Nat) (addr : BitVec 15) (row : BitVec 72) : BitVec 72 :=
  BitVec.ofNat 72 (bits row (widthOf shift * (addr.toNat % 2 ^ shift)) (widthOf shift))

/-- The row after a write of the word that an address names. -/
def putWord (shift : Nat) (addr : BitVec 15) (row data : BitVec 72) : BitVec 72 :=
  setBits row (widthOf shift * (addr.toNat % 2 ^ shift)) (widthOf shift) (bits data 0 (widthOf shift))

/-- A row as ECC mode stores it: 64 data bits and their check bits (R87). -/
def eccRow (data : BitVec 72) : BitVec 72 :=
  BitVec.ofNat 72 (bits data 0 64 + (Config.secded (BitVec.ofNat 64 (bits data 0 64))).toNat * 2 ^ 64)

/-- A port's edge: what its output register held back is presented, and this access's result follows. -/
def BramPort.clock (x : BramPort) (outReg : Bool) (o : Option PortOut) : BramPort :=
  let quiet : PortOut := { x.now with busy := false, corr := false, uncorr := false }
  if outReg then
    { x with now := (match x.next with | some v => v | none => quiet), next := o }
  else
    { x with now := (match o with | some v => v | none => quiet), next := none }

/-- The stored error that a read meets: what the row held, or what has struck it since (R88). -/
def errSeen (stored : Nat) (upset : EccState) : Nat :=
  max stored (match upset with | .clean => 0 | .single => 1 | .double => 2)

/-- RGN_BRAM_ERR (R116). -/
def bramErrWord (dbe : Bool) (p : BramSide) (m r : Nat) : Word :=
  BitVec.ofNat 32 (0x80000000 + b2n dbe * 0x40000000 + (match p with | .a => 0 | .b => 0x20000000) + m * 512 + r)

/-- Corrected rows that wait for a cycle in which neither port accesses the memory (R89). -/
def Dev.pendingRows (d : Dev) (n m : Nat) : List Nat := mget (fun _ => []) d.logic.writeback (memKey n m)

def Dev.setPendingRows (d : Dev) (n m : Nat) (rs : List Nat) : Dev :=
  { d with logic := { d.logic with writeback := mset (fun _ => []) d.logic.writeback (memKey n m) rs } }

/-- The outcome of reading a row in ECC mode: its errors, counted and escalated (R88, R89, R116). The pair is the
word presented and its flags. -/
def Dev.eccRead (d : Dev) (n m : Nat) (p : BramSide) (r : Nat) (upset : EccState) : Dev × PortOut :=
  let row := d.bramRow n m r
  let data : BitVec 72 := BitVec.ofNat 72 (bits row 0 64)
  let e := errSeen (d.bramErrOf n m r) upset
  let pick := (d.freeVal 2).toNat
  let kind := if e = 3 then (if pick = 0 then 0 else if pick = 1 then 1 else 2) else e
  let d := if e = 3 then d.freeNext else d.setBramErr n m r e
  if kind = 0 then (d, { dout := data, busy := false, corr := false, uncorr := false })
  else if kind = 1 then
    let d := (d.count (rgnBramCorr n)).setReg (rgnBramErr n) (bramErrWord false p m r)
    let d := d.cond ((d.bramCfg n m).singleClock && !(d.pendingRows n m).contains r) (fun d =>
      d.setPendingRows n m (d.pendingRows n m ++ [r]))
    (d, { dout := data, busy := false, corr := true, uncorr := false })
  else
    let d := (d.count (rgnBramUncorr n)).setReg (rgnBramErr n) (bramErrWord true p m r)
    let d := d.setRbit (rgnFault n) 2 true
    let v := d.freeVal 72
    let d := d.freeNext
    let d := d.escalate clsBram srcBram { region := some n, unit := some m, sub := some (match p with | .a => 0 | .b => 1) }
      (putLE 2 r)
    (d, { dout := v, busy := false, corr := false, uncorr := true })

/-- A write of a row: the stored error and a pending write-back of that row end (R89). -/
def Dev.rowWritten (d : Dev) (n m r : Nat) (v : BitVec 72) : Dev :=
  ((d.setBramRow n m r v).setBramErr n m r 0).setPendingRows n m ((d.pendingRows n m).filter (fun x => decide (x ≠ r)))

/-- One access of one port that collides with nothing (R83). -/
def Dev.bramOne (d : Dev) (n m : Nat) (p : BramSide) (op : BramOp) (upset : EccState) : Dev × PortOut :=
  let c := d.bramCfg n m
  let sh := cfgShift c p
  match op with
  | .read addr =>
    if c.ecc then d.eccRead n m p (rowOf sh addr) upset
    else (d, { dout := wordOf sh addr (d.bramRow n m (rowOf sh addr)), busy := false, corr := false, uncorr := false })
  | .write addr data =>
    let r := rowOf sh addr
    let old := d.bramRow n m r
    let new := if c.ecc then eccRow data else putWord sh addr old data
    let echo := match cfgEcho c p with
      | .new => if c.ecc then BitVec.ofNat 72 (bits new 0 64) else wordOf sh addr new
      | .old => if c.ecc then BitVec.ofNat 72 (bits old 0 64) else wordOf sh addr old
      | .none => (d.bramPort n m p).lastRead
    (d.rowWritten n m r new, { dout := echo, busy := false, corr := false, uncorr := false })

/-- The port's edge with its result; a read's data is what ECHO_NONE leaves on DO later (R83). -/
def Dev.bramClock (d : Dev) (n m : Nat) (p : BramSide) (isRead : Bool) (o : Option PortOut) : Dev :=
  let x := (d.bramPort n m p).clock (cfgOutReg (d.bramCfg n m) p) o
  let x := match isRead, o with
    | true, some v => { x with lastRead := v.dout }
    | _, _ => x
  d.setBramPort n m p x

def opIsRead : BramOp → Bool
  | .read _ => true
  | .write _ _ => false

def opAddr : BramOp → BitVec 15
  | .read a => a
  | .write a _ => a

/-- What a port presents where its data is undefined (R85). -/
def Dev.undefOut (d : Dev) (busy : Bool) : Dev × PortOut :=
  (d.freeNext, { dout := d.freeVal 72, busy, corr := false, uncorr := false })

/-- A collision (R84, R85): `bLater` says that port B is the later port. -/
def Dev.bramCollision (d : Dev) (n m : Nat) (a b : BramOp) (upA upB : EccState) (bLater : Bool) : Dev :=
  match (opIsRead a), (opIsRead b) with
  | true, false =>
    let (d, ob) := d.bramOne n m .b b upB
    let (d, oa) := d.undefOut (!bLater)
    (d.bramClock n m .a true (some oa)).bramClock n m .b false (some { ob with busy := bLater })
  | false, true =>
    let (d, oa) := d.bramOne n m .a a upA
    let (d, ob) := d.undefOut bLater
    (d.bramClock n m .a false (some { oa with busy := !bLater })).bramClock n m .b true (some ob)
  | _, _ =>
    let r := rowOf (cfgShift (d.bramCfg n m) .a) (opAddr a)
    let v := d.freeVal 72
    let d := (d.freeNext.rowWritten n m r v).setBramErr n m r 3
    let (d, oa) := d.undefOut false
    let (d, ob) := d.undefOut true
    (d.bramClock n m .a false (some oa)).bramClock n m .b false (some ob)

/-- The tree of a port. -/
def cfgTree (c : BramCfg) : BramSide → Option (Fin 16)
  | .a => c.treeA
  | .b => c.treeB

/-- What one port does at the instant, where the other does not collide with it. -/
def Dev.bramEdge (d : Dev) (n m : Nat) (p : BramSide) (e : PortEdge) (upset : EccState) : Dev :=
  match e with
  | .still => d
  | .idle => d.bramClock n m p false none
  | .op x =>
    let (d, o) := d.bramOne n m p x upset
    d.bramClock n m p (opIsRead x) (some o)

/-- The edges that reach the ports: a closed gate lets none through (R71), and with one clock both ports have theirs. -/
def Dev.portEdges (d : Dev) (n m : Nat) (a b : PortEdge) : PortEdge × PortEdge :=
  let c := d.bramCfg n m
  let gated (p : BramSide) (e : PortEdge) : PortEdge := if d.gateOpen n (cfgTree c p) then e else .still
  let a := gated .a a
  let b := gated .b b
  if c.singleClock && (decide (a ≠ .still) || decide (b ≠ .still)) then
    (if a = .still then .idle else a, if b = .still then .idle else b)
  else (a, b)

/-- An edge at a block memory (R83, R84). With one clock, port B is the later port. -/
def Dev.bramAccess (d : Dev) (n m : Nat) (a b : PortEdge) (upA upB : EccState) (bLater : Bool) : Dev :=
  let c := d.bramCfg n m
  let e := d.portEdges n m a b
  match e.1, e.2 with
  | .op x, .op y =>
    let same := decide (rowOf (cfgShift c .a) (opAddr x) = rowOf (cfgShift c .b) (opAddr y))
    if same && !((opIsRead x) && (opIsRead y)) then d.bramCollision n m x y upA upB (c.singleClock || bLater)
    else (d.bramEdge n m .a (.op x) upA).bramEdge n m .b (.op y) upB
  | x, y => (d.bramEdge n m .a x upA).bramEdge n m .b y upB

/-- User logic's access; a memory that runs as a queue is its controller's. -/
def execBramAccess (n : Fin 12) (m : Fin 240) (a b : PortEdge) (upA upB : EccState) (bLater : Bool) (s : State) :
    Host.Outcome State Fault Refusal :=
  finish s (s.dev.cond (!(s.dev.bramCfg n m).queue) (fun d => d.bramAccess n m a b upA upB bLater))

/-- A corrected word is written back, the oldest that waits (R89). -/
def execBramWriteback (n : Fin 12) (m : Fin 240) (s : State) : Host.Outcome State Fault Refusal :=
  let d := s.dev
  finish s
    (match d.pendingRows n m with
     | [] => d
     | r :: rest => if d.gateOpen n (cfgTree (d.bramCfg n m) .a) then (d.setBramErr n m r 0).setPendingRows n m rest else d)

/-! ## Queue controllers (R94 to R98) -/

/-- A write that is performed, at the write pointer, through port A. -/
def Dev.queuePut (d : Dev) (n m : Nat) (data : BitVec 72) : Dev :=
  let q := d.queue n m
  let c := d.bramCfg n m
  let sh := cfgShift c .a
  let addr : BitVec 15 := BitVec.ofNat 15 ((q.rptr + q.level) % d.queueDepth n m)
  let r := rowOf sh addr
  let d := d.rowWritten n m r (if c.ecc then eccRow data else putWord sh addr (d.bramRow n m r) data)
  d.setQueue n m { q with level := q.level + 1, toRead := if c.singleClock then [] else q.toRead ++ [(2, 3)] }

/-- A read that is performed: the word at the read pointer appears at port B, corrected in ECC mode (R87, R88). -/
def Dev.queueGet (d : Dev) (n m : Nat) (upset : EccState) : Dev :=
  let q := d.queue n m
  let c := d.bramCfg n m
  let addr : BitVec 15 := BitVec.ofNat 15 (q.rptr % d.queueDepth n m)
  let d := d.setQueue n m { q with rptr := (q.rptr + 1) % d.queueDepth n m, level := q.level - 1,
                                   toWrite := if c.singleClock then [] else q.toWrite ++ [(2, 3)] }
  let (d, o) := d.bramOne n m .b (.read addr) upset
  d.bramClock n m .b true (some o)

def Dev.queueOverflow (d : Dev) (n m : Nat) : Dev := d.setQueue n m { d.queue n m with overflow := true }
def Dev.queueUnderflow (d : Dev) (n m : Nat) : Dev := d.setQueue n m { d.queue n m with underflow := true }

/-- A side of a queue has an edge: its memory runs as a queue, QRST does not assert, and the gate of its clock is open. An
attempt while QRST asserts sets neither OVERFLOW nor UNDERFLOW; one in the cycles that its release takes afterwards does
(DESIGN CHOICE, log 59: R95 and R98 do not say). -/
def Dev.queueLive (d : Dev) (n m : Nat) (p : BramSide) : Bool :=
  (d.bramCfg n m).queue && !(d.queue n m).qrst && d.gateOpen n (cfgTree (d.bramCfg n m) p)

/-- What the sides of a queue do at an instant, by the flags before it (R95, R96). The edges also bring crossings on (R97). A
write and a read of one physical row at one instant do not collide: the data read is defined and no BUSY asserts (DESIGN
CHOICE, log 59: R84 speaks of a memory's ports, and R96 performs both). -/
def Dev.queueStep (d : Dev) (n m : Nat) (write : Option (BitVec 72)) (read : Bool) (upset : EccState) : Dev :=
  let single := (d.bramCfg n m).singleClock
  let w := write.isSome && d.queueLive n m .a
  let r := read && d.queueLive n m .b
  let empty := d.queueEmpty n m
  let full := d.queueFull n m && !(single && r && !empty && !(d.queue n m).heldW)
  let e := d.cond (w || (single && r)) (fun d => d.queueEdge n m .a)
  let e := e.cond (r || (single && w)) (fun d => d.queueEdge n m .b)
  let e := if r then (if empty then e.queueUnderflow n m else e.queueGet n m upset) else e
  if w then (if full then e.queueOverflow n m else e.queuePut n m (write.getD 0)) else e

/-- A write, with a read at the same instant where `alsoRead`. -/
def execQueueWrite (n : Fin 12) (m : Fin 240) (data : BitVec 72) (alsoRead : Bool) (upset : EccState) (s : State) :
    Host.Outcome State Fault Refusal :=
  finish s (s.dev.queueStep n m (some data) alsoRead upset)

def execQueueRead (n : Fin 12) (m : Fin 240) (upset : EccState) (s : State) : Host.Outcome State Fault Refusal :=
  finish s (s.dev.queueStep n m none true upset)

/-- QRST asserts, which empties the queue and clears its flags, or is released: each side sees the release after 2 cycles of
its clock (R95, R98). -/
def execQueueReset (n : Fin 12) (m : Fin 240) (asserted : Bool) (s : State) : Host.Outcome State Fault Refusal :=
  finish s
    (if asserted then s.dev.setQueue n m { QueueCtl.empty with qrst := true }
     else if (s.dev.queue n m).qrst then s.dev.setQueue n m { s.dev.queue n m with qrst := false, holdW := 2, holdR := 2 }
     else s.dev)

/-! ## Shift registers (R58 to R60) -/

/-- Q for an address, and Q63 (R59). -/
def srlQ (r : DWord) (addr : BitVec 6) : Bool := bit r addr.toNat

/-- One shift: bit k takes bit k − 1, bit 0 takes SD (R58). -/
def srlShift (r : DWord) (sd : Bool) : DWord := (r <<< 1) ||| BitVec.ofNat 64 (b2n sd)

/-- SD of a cell: what the image connects, or Q63 of the cell before it in its block (R59). -/
def Dev.srlIn (d : Dev) (n c : Nat) : Bool :=
  match (d.cellCfg n c).sd with
  | some s => d.sig n s
  | none => if c % 16 = 0 then false else bit (d.srl n (c - 1)) 63

/-- The cells of the block of cell c that are in shift-register mode on its tree: one edge reaches all of them, so that a
chain of them shifts at once (R59). -/
def Dev.srlCells (d : Dev) (n c : Nat) : List Nat :=
  ((List.range 16).map (fun i => c / 16 * 16 + i)).filter (fun i =>
    (d.cellCfg n i).shift && decide ((d.cellCfg n i).tree = (d.cellCfg n c).tree))

/-- What the register of a cell holds after an edge: it shifts with CE = 1 (R58). -/
def Dev.srlNext (d : Dev) (n c : Nat) : DWord :=
  if d.sig n (d.cellCfg n c).ce then srlShift (d.srl n c) (d.srlIn n c) else d.srl n c

def Dev.setSrl (d : Dev) (n c : Nat) (v : DWord) : Dev :=
  { d with logic := { d.logic with shiftRegs := mset (fun _ => 0) d.logic.shiftRegs (srlKey n c) v } }

/-- An edge of the clock of a cell in shift-register mode, and so of every such cell of its block on that tree: their registers
and flip-flops take what was there before the edge. -/
def Dev.srlEdge (d : Dev) (n c : Nat) : Dev :=
  let g := d.cellCfg n c
  if g.shift && d.gateOpen n g.tree then
    let cs := d.srlCells n c
    let e := d.forEach (cs.map (fun i => (i, d.srlNext n i))) (fun e x => e.setSrl n x.1 x.2)
    e.forEach (cs.flatMap (fun i => d.cellFfs (srlKey n i) (d.cellCfg n i))) (fun e x => e.setFf x.1 x.2)
  else d

def execShiftRegisterShift (n : Fin 12) (c : Fin 80000) (s : State) : Host.Outcome State Fault Refusal :=
  finish s (s.dev.srlEdge n c)

/-! ## Arithmetic blocks (R99 to R102) -/

def opsHeld (x : ArithOps) : ArithIn := { a := x.a, b := x.b, d := x.d, a1 := x.a1, b1 := x.b1, a2 := x.a2, b2 := x.b2 }

/-- The pre-adder stage: A ± D beside B; dual mode passes its operands on (R99). -/
def preOf (x : ArithIn) (psub : Bool) : ArithPre :=
  { sum := if psub then x.a.signExtend 28 - x.d.signExtend 28 else x.a.signExtend 28 + x.d.signExtend 28,
    b := x.b, a1 := x.a1, b1 := x.b1, a2 := x.a2, b2 := x.b2 }

/-- The multiplier stage (R99). -/
def prodOf (dual : Bool) (x : ArithPre) : BitVec 64 :=
  BitVec.ofInt 64 (if dual then x.a1.toInt * x.b1.toInt + x.a2.toInt * x.b2.toInt else x.sum.toInt * x.b.toInt)

/-- The accumulator after one step, with OVF (R100): wrap modulo 2^64, or hold at the end of the range. -/
def accStep (cfg : ArithCfg) (acc : BitVec 64) (ovf load : Bool) (p cin : Int) : BitVec 64 × Bool :=
  let t := (if load then 0 else acc.toInt) + p + cin
  let out := decide (t < -(2 ^ 63 : Int) ∨ (2 ^ 63 : Int) ≤ t)
  let v := if cfg.saturate && out then (if t < 0 then -(2 ^ 63 : Int) else (2 ^ 63 : Int) - 1) else t
  (BitVec.ofInt 64 v, if load then out else ovf || out)

/-- One edge of a block's clock (R102): each stage takes what the stage before it held, or passes it on where the image
bypasses that register. PSUB acts at the pre-adder and LOAD at the accumulator as they are presented at that edge. -/
def Acc.edge (x : Acc) (cfg : ArithCfg) (ops : ArithOps) (cin : Int) : Acc :=
  let inp := if cfg.skipIn then opsHeld ops else x.inp
  let pre := preOf inp ops.psub
  let preOut := if cfg.skipPre then pre else x.pre
  let prod := prodOf cfg.dual preOut
  let prodOut := if cfg.skipProd then prod else x.prod
  let (acc, ovf) := accStep cfg x.acc x.ovf ops.load prodOut.toInt cin
  { inp := opsHeld ops, pre, prod, acc, ovf }

/-- CIN of a block whose image enables the cascade: P_OUT of the block before it in its column. The 40 blocks of a column
have consecutive numbers, and the first of a column takes 0 (DESIGN CHOICE, log 55). -/
def Dev.cinOf (d : Dev) (n b : Nat) : Int :=
  if (d.arithCfg n b).cascade ∧ b % 40 ≠ 0 then (d.acc n (b - 1)).acc.toInt else 0

/-- An edge of the clock of block b, with what user logic presents. -/
def execArithAccumulate (n : Fin 12) (b : Fin 320) (ops : ArithOps) (s : State) : Host.Outcome State Fault Refusal :=
  let d := s.dev
  let cfg := d.arithCfg n b
  finish s
    (if d.gateOpen n cfg.tree then
       { d with logic := { d.logic with
         arith := mset (fun _ => Acc.zero) d.logic.arith (n.val * 320 + b.val) ((d.acc n b).edge cfg ops (d.cinOf n b)) } }
     else d)

/-! ## I/O delays (R104, R105) -/

/-- One cycle of the I/O cell's clock: the goal moves as user logic asks, the delay by at most one tap towards it. A step
beyond tap 511 or 0 leaves the goal, and a step while a change runs moves the goal (DESIGN CHOICE, log 55). -/
def DelayLine.step (x : DelayLine) (op : DelayOp) : DelayLine :=
  let g : Fin 512 := match op with
    | .load t => t
    | .up => if x.goal.val < 511 then Fin.ofNat 512 (x.goal.val + 1) else x.goal
    | .down => Fin.ofNat 512 (x.goal.val - 1)
    | .hold => x.goal
  { goal := g,
    cur := if x.cur.val < g.val then Fin.ofNat 512 (x.cur.val + 1)
           else if g.val < x.cur.val then Fin.ofNat 512 (x.cur.val - 1) else x.cur }

/-- HP pins: see R578. -/
def hpPin (p : Nat) : Bool := decide (p < 192)

/-- A delay line of a pin; one that has not moved stands at the initial tap of its I/O cell (R104). -/
def Dev.delayLine (d : Dev) (p : Nat) (output : Bool) : DelayLine :=
  mget (fun _ => DelayLine.zero) d.logic.delays (p * 2 + b2n output)

/-- A cycle of the clock of an HP pin's I/O cell; a closed gate lets none through (R71). -/
def execIoDelayStep (p : Fin 240) (output : Bool) (op : DelayOp) (s : State) : Host.Outcome State Fault Refusal :=
  let d := s.dev
  let n := p.val / 16
  finish s
    (if hpPin p && d.gateOpen n (d.ioCfg n (p.val % 16)).tree then
       { d with logic := { d.logic with
         delays := mset (fun _ => DelayLine.zero) d.logic.delays (p.val * 2 + b2n output) ((d.delayLine p output).step op) } }
     else d)

/-- The calibration engine's pass: it measures against TCLK while its PLL is locked. -/
def execIodelayCalibration (trim : BitVec 16) (s : State) : Host.Outcome State Fault Refusal :=
  let d := s.dev
  finish s (d.cond (d.rbit timeStatus 31) (fun d => { d with logic := { d.logic with tapTrim := some trim } }))

/-- The trim in force (R105): the measured one while TCLK's PLL is locked, and the factory trim of the calibration row
before the first lock and while lock is lost. -/
def Dev.trimNow (d : Dev) : BitVec 16 :=
  let factory := Config.factoryTrim ((List.range 128).map (fun i => Config.calRow (0x380 + i)))
  if d.rbit timeStatus 31 then d.logic.tapTrim.getD factory else factory

/-! ## The window engine (R90 to R93) -/

/-- The physical address where region n's block-memory window begins (R50). -/
def winBase (n : Nat) : Nat := 0x0100000000 + n * 0x100000

/-- The rows that a window access touches. -/
def winRows (o len : Nat) : List Nat := ((List.range 512).filter (fun r => decide (8 * r < o + len ∧ o < 8 * r + 8)))

/-- The user access on port B that the engine displaces (R91): BUSY of port B. What DO shows then is not stated: it is
free. -/
def Dev.winSteal (d : Dev) (n m : Nat) : Dev :=
  let (d, o) := d.undefOut true
  d.bramClock n m .b false (some o)

/-- A row as one window access meets it: data bits [63:0], and whether they could not be corrected (R88). -/
def Dev.winRow (d : Dev) (n m r : Nat) (upset : EccState) : Dev × BitVec 64 × Bool :=
  if (d.bramCfg n m).ecc then
    let (d, o) := d.eccRead n m .b r upset
    (d, BitVec.ofNat 64 (bits o.dout 0 64), o.uncorr)
  else (d, BitVec.ofNat 64 (bits (d.bramRow n m r) 0 64), false)

/-- A row after a window write of the bytes `new`, by their place in the row (R92): in ECC mode a write of less than 8 bytes
reads the row first, and the check bits follow; outside it bits [71:64] stay. Where the row read has a double-bit error, the
write takes place with the undefined data it read (DESIGN CHOICE, log 59: R92 does not say). -/
def Dev.winRowWrite (d : Dev) (n m r : Nat) (new : List (Nat × Byte)) (upset : EccState) : Dev :=
  let ecc := (d.bramCfg n m).ecc
  let (d, old) := if ecc && decide (new.length < 8) then
      (let (d, v, _) := d.winRow n m r upset
       (d, setBits (d.bramRow n m r) 0 64 v.toNat))
    else (d, d.bramRow n m r)
  let v := new.foldl (fun (v : BitVec 72) x => setBits v (8 * x.1) 8 x.2.toNat) old
  d.rowWritten n m r (if ecc then eccRow v else v)

/-- User accesses on port A at the instant of the window's access to row r (R84, R92). -/
def Dev.clashAt (d : Dev) (n m r : Nat) (cs : List WinClash) : Option WinClash :=
  if d.gateOpen n (cfgTree (d.bramCfg n m) .a) then
    cs.find? (fun c => decide (rowOf (cfgShift (d.bramCfg n m) .a) (opAddr c.op) = r))
  else none

/-- BUSY of a collision with the window's access: port B is the later port with one clock, else the port whose edge came
later (R84, R85). -/
def Dev.aIsLater (d : Dev) (n m : Nat) (c : WinClash) : Bool := !(d.bramCfg n m).singleClock && c.aLater

/-- One read access of the window to a row, with the user access on port A at its instant. A write there makes what the
window reads undefined (R85). -/
def Dev.winReadRow (d : Dev) (n m r : Nat) (upset : EccState) (clash : Option WinClash) : Dev × BitVec 64 × Bool :=
  match clash with
  | none => d.winRow n m r upset
  | some c =>
    if opIsRead c.op then (d.bramEdge n m .a (.op c.op) .clean).winRow n m r upset
    else
      let (d, o) := d.bramOne n m .a c.op .clean
      let d := d.bramClock n m .a false (some { o with busy := d.aIsLater n m c })
      let d := d.cond (!d.aIsLater n m c) (fun d => d.winSteal n m)
      (d.freeNext, d.freeVal 64, false)

/-- One write access of the window to a row, with the user access on port A at its instant: a read there has undefined
data, and a write leaves the row undefined with its check bits (R85, R86). -/
def Dev.winWriteRow (d : Dev) (n m r : Nat) (new : List (Nat × Byte)) (upset : EccState) (clash : Option WinClash) : Dev :=
  match clash with
  | none => d.winRowWrite n m r new upset
  | some c =>
    let later := d.aIsLater n m c
    let d :=
      if opIsRead c.op then d.winRowWrite n m r new upset
      else (d.freeNext.rowWritten n m r (d.freeVal 72)).setBramErr n m r 3
    let (d, o) := d.undefOut (later && opIsRead c.op)
    let d := d.bramClock n m .a (opIsRead c.op) (some o)
    d.cond (!(later && opIsRead c.op)) (fun d => d.winSteal n m)

/-- The places in row r of the bytes [o, o + len) of a memory's window, with their place in the access. -/
def rowBytes (r o len : Nat) : List (Nat × Nat) :=
  ((List.range 8).filter (fun i => decide (o ≤ 8 * r + i ∧ 8 * r + i < o + len))).map (fun i => (i, 8 * r + i - o))

/-- The engine reads `len` bytes, row after row. `steals`: rows for which it took the cycle of a user access (R91). -/
def Dev.winRead (d : Dev) (n m o len : Nat) (steals : List (Fin 512)) (upset : EccState) (clash : List WinClash) :
    Dev × List Byte × Bool :=
  (winRows o len).foldl (fun (x : Dev × List Byte × Bool) r =>
    let d := x.1.cond (steals.any (fun c => decide (c.val = r))) (fun d => d.winSteal n m)
    let (d, v, bad) := d.winReadRow n m r upset (d.clashAt n m r clash)
    (d, x.2.1 ++ (rowBytes r o len).map (fun i => BitVec.ofNat 8 (bits v (8 * i.1) 8)), x.2.2 || bad)) (d, [], false)

/-- The engine writes bytes from offset `o`, row after row. -/
def Dev.winWrite (d : Dev) (n m o : Nat) (bs : List Byte) (steals : List (Fin 512)) (upset : EccState)
    (clash : List WinClash) : Dev :=
  d.forEach (winRows o bs.length) (fun d r =>
    let d := d.cond (steals.any (fun c => decide (c.val = r))) (fun d => d.winSteal n m)
    d.winWriteRow n m r ((rowBytes r o bs.length).map (fun i => (i.1, bs.getD i.2 0))) upset (d.clashAt n m r clash))

/-- The window is open: the image opened it and the memory does not run as a queue (R90). -/
def Dev.winOpen (d : Dev) (n m : Nat) : Bool := d.rbit (rgnWinMask n (m / 32)) (m % 32) && !(d.bramCfg n m).queue

/-- REASON of a window request, 0 where it can be executed (R141, R143). -/
def Dev.winReason (d : Dev) (n : Nat) (err : Bool) (bs : List Byte) : Nat :=
  let t := getLE 1 bs 0
  let len := getLE 2 bs 2
  let addr := getLE 5 bs 8
  if err then 8
  else if t = 4 then (if len ≠ 0 then 1 else 0)
  else if len = 0 ∨ 4096 < len ∨ (t = 1 ∧ bs.length ≠ 16 + len) then 1
  else if addr / 4096 ≠ (addr + len - 1) / 4096 then 2
  else if addr < winBase n ∨ winBase n + 0xF0000 ≤ addr then 3
  else if !d.winOpen n ((addr - winBase n) / 4096) then 9
  else 0

/-- Takes a whole message out of a region's window queue: that of the flow whose cells stand first. -/
def Dev.winTake (d : Dev) (n : Nat) : Option (List Cell × Dev) :=
  let q := mget (fun _ => []) d.logic.winq n
  match ((q.map (fun c => c.flow)).eraseDups).findSome? (fun f => takeMessage f q) with
  | none => none
  | some (msg, rest) => some (msg, { d with logic := { d.logic with winq := mset (fun _ => []) d.logic.winq n rest } })

/-- The memory that the oldest window message addresses; none for a message that accesses none. -/
def Dev.winMem (d : Dev) (n : Nat) : Option Nat :=
  match d.winTake n with
  | none => none
  | some (msg, _) =>
    let bs := messageBytes msg
    if getLE 1 bs 0 = 4 || decide (d.winReason n (msg.any (fun c => c.err)) bs ≠ 0) then none
    else some ((getLE 5 bs 8 - winBase n) / 4096)

/-- The window engine serves its oldest message. It answers on the stream class, which every endpoint may use (DESIGN CHOICE,
log 24). -/
def Dev.windowServe (d : Dev) (n : Nat) (steals : List (Fin 512)) (upset : EccState) (clash : List WinClash) : Dev :=
  match d.winTake n with
  | none => d
  | some (msg, d) =>
    let bs := messageBytes msg
    let ep := 17 + 2 * n
    let r := d.winReason n (msg.any (fun c => c.err)) bs
    if r ≠ 0 then d.answerFail ep 0 0 bs r 0x0101
    else
      let o := getLE 5 bs 8 - winBase n
      let m := o / 4096
      let len := getLE 2 bs 2
      if getLE 1 bs 0 = 4 then d.answer ep 0 0 bs 2 0 0 []
      else if getLE 1 bs 0 = 1 then
        let d := d.winWrite n m (o % 4096) (slice bs 16 len) steals upset clash
        if getLE 1 bs 1 % 2 = 1 then d.answer ep 0 0 bs 4 0 0 [] else d
      else
        let (d, data, bad) := d.winRead n m (o % 4096) len steals upset clash
        if bad then d.answerFail ep 0 0 bs 7 0x0101 else d.answer ep 0 0 bs 0 0 0 data

/-- While the region is frozen, its window does not answer (R53); while the gate of port B's tree is closed, an access waits
(R71, R91). -/
def execWindowAccess (n : Fin 12) (steals : List (Fin 512)) (upset : EccState) (clash : List WinClash) (s : State) :
    Host.Outcome State Fault Refusal :=
  let d := s.dev
  let clocked := match d.winMem n with
    | some m => d.gateOpen n (cfgTree (d.bramCfg n m) .b)
    | none => true
  finish s (d.cond (!d.frozen n && clocked) (fun d => d.windowServe n steals upset clash))

/-- Port B's tree stands still while a window access waits: it is answered with error status (R93, R143). A message that
accesses no memory waits for no tree. -/
def execWindowTimeout (n : Fin 12) (s : State) : Host.Outcome State Fault Refusal :=
  finish s
    (if s.dev.frozen n ∨ s.dev.winMem n = none then s.dev
     else match s.dev.winTake n with
      | none => s.dev
      | some (msg, d) =>
        let d := d.setRbit (rgnFault n) 3 true
        d.answerFail (17 + 2 * n.val) 0 0 (messageBytes msg) 9 0x0101)

end Sys2Proof.Machine
end

