-- ==== Sys2Proof/Machine/Jtag.lean ====
section
/-! DEFINITION. The test access port: its instructions and what they do to the pads (R675, R677, R678). -/
namespace Sys2Proof.Machine

def irExtest : BitVec 10 := 0x000
def irSample : BitVec 10 := 0x001
def irIdcode : BitVec 10 := 0x009
def irHighz : BitVec 10 := 0x00A
def irClamp : BitVec 10 := 0x00B
def irExtestPulse : BitVec 10 := 0x00C
def irExtestTrain : BitVec 10 := 0x00D
def irCfgLoad : BitVec 10 := 0x020
def irBypass : BitVec 10 := 0x3FF

/-- The instructions of R675 that are served in every lifecycle state. -/
def irListed : List (BitVec 10) :=
  [irExtest, irSample, irIdcode, irHighz, irClamp, irExtestPulse, irExtestTrain, irCfgLoad, 0x021, irBypass]

/-- A vendor instruction. -/
def irVendor (c : BitVec 10) : Bool := decide (0x100 ≤ c.toNat ∧ c.toNat ≤ 0x1FF)

/-- What a code acts as: BYPASS where it is not listed, or is a vendor instruction outside MANUFACTURE. -/
def Dev.irOf (d : Dev) (c : BitVec 10) : BitVec 10 :=
  if irListed.contains c || (irVendor c && d.inManufacture) then c else irBypass

/-- The boundary register sets every pad that it covers (R678). -/
def Dev.padsTaken (d : Dev) : Bool := [irExtest, irExtestPulse, irExtestTrain, irClamp, irHighz].contains d.jtag.ir

/-- An instruction that selects the boundary register as its data register (R675). -/
def irBoundary (c : BitVec 10) : Bool := [irExtest, irSample, irExtestPulse, irExtestTrain].contains c

/-- The test port takes another instruction. What the scans under an instruction that selects the boundary register have put
into its cells is free: the table has no command for such a scan (log entry 45). -/
def Dev.irTaken (d : Dev) (ir : BitVec 10) : Dev :=
  if irBoundary d.jtag.ir then
    { d.freeNext with jtag := { d.jtag with ir := ir, boundary := d.freeVal 896 } }
  else { d with jtag := { d.jtag with ir := ir } }

def execJtagInstructionUpdate (ir : BitVec 10) (s : State) : Host.Outcome State Fault Refusal :=
  let d := s.dev
  finish s (d.irTaken (d.irOf ir))

def execJtagTestLogicReset (s : State) : Host.Outcome State Fault Refusal :=
  let d := s.dev
  finish s (d.irTaken irIdcode)

end Sys2Proof.Machine
end

