-- ==== Sys2Proof/Machine/PinOps.lean ====
section
/-! DEFINITION. User pins, permits and the module scan as shared operations (R561, R577 to R587, R596 to R603). -/
namespace Sys2Proof.Machine

/-! ## Pins (R577, R581) -/

/-- The region that owns a pin, and the pin's index in it. -/
def pinRegion (p : Nat) : Nat := if p < 192 then p / 16 else (p - 192) / 4
def pinIndex (p : Nat) : Nat := if p < 192 then p % 16 else 16 + p % 4

/-- The pin has a dedicated peripheral, and one that drives. -/
def hasPeripheral (p : Nat) : Bool := decide ((192 ≤ p ∧ p ≤ 199) ∨ p = 216 ∨ (220 ≤ p ∧ p ≤ 223))
def peripheralDrives (p : Nat) : Bool := decide ((192 ≤ p ∧ p ≤ 199) ∨ p = 216 ∨ p = 223)

def fnIocell : Nat := 0
def fnGpio : Nat := 1
def fnDedicated : Nat := 2

/-- FUNC of a pin. -/
def Dev.pinFunc (d : Dev) (p : Nat) : Nat := d.fld (pmuxPin p) 0 2

/-- The pin's permit in force. -/
def Dev.pinPermit (d : Dev) (p : Nat) : Bool := d.rbit (fencePin (p / 32)) (p % 32)

/-- The pin is in configuration state (R331, R582, R584). -/
def Dev.pinConfigured (d : Dev) (p : Nat) : Bool :=
  d.power.por || d.rbit pwrStatus 3 || (decide (d.pinFunc p = fnIocell) && !bit d.cfg.pinsOut (pinRegion p))

/-- The GPIO controller drives the pad: its function, the permit and GPIO_OE allow it, and an open-drain pin drives only
low (R579, R585, R589). -/
def Dev.gpioDrives (d : Dev) (p : Nat) : Bool :=
  decide (d.pinFunc p = fnGpio) && !d.pinConfigured p && !d.pinUnpowered p && d.pinPermit p && d.rbit (gpioOe (p / 16)) (p % 16) &&
  !(d.rbit (pmuxPin p) 20 && d.rbit (gpioOut (p / 16)) (p % 16))

/-- The values of PMUX_PIN that a pin accepts (R608). -/
def pmuxOk (p : Nat) (v : Word) : Bool :=
  let drive := bits v 24 4
  (if p < 192 then decide (1 ≤ drive ∧ drive ≤ 3) else decide (drive ≤ 4)) &&
  (decide (bits v 0 2 < 2) || (decide (bits v 0 2 = 2) && hasPeripheral p))

/-- Step 3 of a switch: the synchroniser and the interrupt status are cleared, and the next sample raises no edge. -/
def Dev.pinSwitched (d : Dev) (p : Nat) : Dev :=
  { d with pins := { d.pins with level := setBit d.pins.level p false, fresh := setBit d.pins.fresh p true } }.setRbit
    (gpioStatus (p / 16)) (p % 16) false

/-- PMUX_PIN takes an accepted value; a new function switches the pin. -/
def Dev.pmuxApply (d : Dev) (p : Nat) (v : Word) : Dev :=
  let d := d.cond (decide (d.pinFunc p ≠ bits v 0 2)) (fun d => d.pinSwitched p)
  d.setReg (pmuxPin p) (v &&& 0x0FF00003)

/-- The pin function defaults of the chip-global frames (R582, R583). -/
def Dev.pinDefaults (d : Dev) : Dev :=
  let f (a : Nat) : List Byte := mget (fun _ => zeros 256) d.cfg.frames a
  d.forEach (List.range 240) (fun d p =>
    let v := Config.pinDefault f p
    d.cond (pmuxOk p v) (fun d => d.pmuxApply p v))

/-- At the restore of rung 4 the pins of hive-side functions leave configuration state (R584). -/
def Dev.pinsRestored (d : Dev) : Dev :=
  d.forEach ((List.range 240).filter (fun p => decide (d.pinFunc p ≠ fnIocell))) Dev.pinSwitched

/-! ## Module configuration (R596, R613) -/

def Dev.laneEnabled (d : Dev) (n : Nat) : Bool := d.rbit (modLaneCfg n) 31
def Dev.leadOf (d : Dev) (n : Nat) : Nat := d.fld (modLaneCfg n) 24 4
def Dev.isLead (d : Dev) (n : Nat) : Bool := d.laneEnabled n && decide (d.leadOf n = n)
def Dev.busOf (d : Dev) (n : Nat) : Nat := d.fld (modLaneCfg n) 22 2

/-- The lanes whose LEAD names a lead: its module is theirs, their own EN whatever it is (R596, R602). -/
def Dev.ledBy (d : Dev) (l : Nat) : List Nat := (List.range 16).filter (fun n => decide (d.leadOf n = l))

/-- The select pin and the presence pin of a lane. -/
def Dev.selPin (d : Dev) (n : Nat) : Option Nat :=
  if d.laneEnabled n && decide (d.fld (modLaneCfg n) 8 8 < 240) then some (d.fld (modLaneCfg n) 8 8) else none
def Dev.presPin (d : Dev) (n : Nat) : Option Nat :=
  if d.laneEnabled n && decide (d.fld (modLaneCfg n) 0 8 < 240) then some (d.fld (modLaneCfg n) 0 8) else none

/-- The bits of a GPIO port that the scan engine controls. -/
def Dev.selMask (d : Dev) (q : Nat) : Nat :=
  bitsOf 16 (fun k => (List.range 16).any (fun n => decide (d.selPin n = some (16 * q + k))))

/-- The scan engine drives a lane's select pin: OE held at 1, OUT at its active or its inactive level. -/
def Dev.drivesSel (d : Dev) (n : Nat) (active : Bool) : Dev :=
  match d.selPin n with
  | none => d
  | some p =>
    (d.setRbit (gpioOe (p / 16)) (p % 16) true).setRbit (gpioOut (p / 16)) (p % 16) (d.rbit (modLaneCfg n) 30 == active)

/-- The module's presence pin says present; none where the lane has no presence pin (R598). -/
def Dev.presentNow (d : Dev) (n : Nat) : Option Bool :=
  (d.presPin n).map (fun p => bit d.pins.level p == d.rbit (modLaneCfg n) 29)

/-! ## Module check (R602, R603) -/

/-- MODULE_CLASS of a lane. -/
def Dev.moduleClass (d : Dev) (n : Nat) : Nat := getLE 1 d.cfg.chip (0x60 + n)

/-- A value of R602's table. -/
def classListed (c : Nat) : Bool :=
  decide (c = 0 ∨ c = 1 ∨ (0x10 ≤ c ∧ c ≤ 0x12) ∨ (0x40 ≤ c ∧ c ≤ 0xFE))

def causeAbsent : Nat := 1
def causeNoIdentity : Nat := 2
def causeClass : Nat := 3
def causeRecord : Nat := 4
def causeLaneMap : Nat := 5
def causeNotConfigured : Nat := 6
def causeBusFault : Nat := 7
def causeTimeout : Nat := 8

/-- The cause for which a module that answered, as the lane's registers show it, fails a required class; 0 where it
passes. -/
def Dev.classCause (d : Dev) (n c : Nat) : Nat :=
  let st := d.reg (modLaneStatus n)
  if c = 0 ∨ c = 1 then 0
  else if c < 0x40 then (if bits st 0 2 = c - 0xF then 0 else causeClass)
  else if bit st 28 = false then causeRecord
  else if bits st 16 8 ≠ c then causeClass
  else if bits (d.reg (modRec n 1)) (n - d.leadOf n) 1 = 0 ∨ n < d.leadOf n ∨ 16 ≤ n - d.leadOf n then causeLaneMap
  else 0

/-- The cause for which lane n's check fails, where its scan ended with `why` (0: the module answered). -/
def Dev.checkCause (d : Dev) (n why : Nat) : Nat :=
  let c := d.moduleClass n
  if c = 0 then 0
  else if !d.isLead (d.leadOf n) then causeNotConfigured
  else if why ≠ 0 then why
  else d.classCause n c

/-- MATCH and CAUSE of a lane. -/
def Dev.setCheck (d : Dev) (n cause : Nat) : Dev :=
  (d.setRbit (modLaneStatus n) 29 (decide (cause = 0))).setFld (modLaneStatus n) 24 4 cause

/-- How the latest scan of lane n's lead ended; none before its first. -/
def Dev.leadEnded (d : Dev) (n : Nat) : Option Nat := mget (fun _ => none) d.mods.ended (d.leadOf n)

/-- The check of every lane against the classes in force, for the module of its lead: until the lead's first scan completes it
does not pass, except where nothing is required. -/
def Dev.recheckModules (d : Dev) : Dev :=
  d.forEach (List.range 16) (fun d n =>
    let cause := d.checkCause n ((d.leadEnded n).getD 0)
    if d.moduleClass n = 0 ∨ cause = causeNotConfigured ∨ (d.leadEnded n).isSome then d.setCheck n cause
    else (d.setRbit (modLaneStatus n) 29 false).setFld (modLaneStatus n) 24 4 0)

/-- Lane n shows the registers of lane l as `old` has them, MATCH and CAUSE left to its own check; none: nothing scanned
(R611). -/
def Dev.showLead (d old : Dev) (n : Nat) (l : Option Nat) : Dev :=
  let word (reg : Nat → Nat) : Word := (l.map (fun l => old.reg (reg l))).getD 0
  let d := d.setReg (modLaneStatus n) (word modLaneStatus)
  let d := d.forEach (List.range 16) (fun d i => d.setReg (modRec n i) (word (fun l => modRec l i)))
  d.forEach (List.range 12) (fun d i => d.setReg (modId n i) (word (fun l => modId l i)))

/-- After MOD_LANE_CFG has changed from that of `old`, every lane shows the module of its lead; a lane that has just become a
lead has not been scanned. -/
def Dev.leadsChanged (d old : Dev) : Dev :=
  let was (l : Nat) : Bool := decide (old.leadOf l = l)
  let d := { d with mods := { d.mods with ended := d.mods.ended.filter (fun e => was e.1 && decide (d.leadOf e.1 = e.1)) } }
  d.forEach (List.range 16) (fun d n => d.showLead old n (if was (d.leadOf n) then some (d.leadOf n) else none))

/-! ## Permits in force (R561) -/

/-- The module check of a lane passes. -/
def Dev.moduleOk (d : Dev) (n : Nat) : Bool := d.rbit (modLaneStatus n) 29

/-- The permits that follow from the chip record of the running full image, the module checks and the lifecycle. A permit
granted again may turn a transmitter on (R245, R246). -/
def Dev.permitsSet (d : Dev) : Dev :=
  let c := d.cfg.chip
  let live := !d.inRetired && decide (c ≠ [])
  let all (w : Nat) : Nat := if live then w else 0
  let checked (w : Nat) : Nat := all (bitsOf 16 (fun n => w.testBit n && d.moduleOk n))
  let d := d.forEach (List.range 8) (fun d i =>
    d.setReg (fencePin i) (BitVec.ofNat 32 (all (getLE (if i = 7 then 2 else 4) c (0x38 + 4 * i)))))
  let lane := getLE 2 c 0x56
  let port := getLE 2 c 0x58
  let d := d.setReg fenceLane (BitVec.ofNat 32 (lane * 65536 + checked lane))
  let d := d.setReg fencePort (BitVec.ofNat 32 (port * 65536 + checked port))
  let d := d.setReg fenceMisc (BitVec.ofNat 32 (all (getLE 1 c 0x5A % 2)))
  d.forEach (List.range 16) Dev.txAgain

/-- The lane configurations of the chip-global frames, with every select pin at its inactive level, and the checks and
permits that follow (R596). -/
def Dev.laneDefaults (d : Dev) : Dev :=
  let f (a : Nat) : List Byte := mget (fun _ => zeros 256) d.cfg.frames a
  let old := d
  let d := d.forEach (List.range 16) (fun d n =>
    d.setReg (modLaneCfg n) ((Config.laneConfig f n &&& 0xEFC0FFFF) ||| 0x003F0000))
  let d := d.forEach (List.range 16) (fun d n => d.drivesSel n false)
  (d.leadsChanged old).recheckModules.permitsSet

/-- A full scan: every enabled lead is queued (R597). -/
def Dev.scanAll (d : Dev) : Dev :=
  { d with mods := { d.mods with queued := d.mods.queued ||| BitVec.ofNat 16 (bitsOf 16 d.isLead) } }

end Sys2Proof.Machine
end

