-- ==== Sys2Proof/Machine/Flags.lean ====
section
/-! DEFINITION. What reads and writes do by the access type of a field (R18 to R20), and the latches of the statistics
counters (R11 to R13). -/
namespace Sys2Proof.Machine

/-- The word that a register holds after a write of `v`, by its access type; `mask` marks the bits that are not reserved
(R18, R19). -/
def Access.write (a : Access) (mask old v : Word) : Word :=
  match a with
  | .rw => (old &&& ~~~mask) ||| (v &&& mask)
  | .perId => (old &&& ~~~mask) ||| (v &&& mask)
  | .w1c => old &&& ~~~(v &&& mask)
  | .w1s => old ||| (v &&& mask)
  | _ => old

/-- What a read leaves in a field (R19, R20): an RC field is cleared. -/
def Access.afterRead (a : Access) (old : Word) : Word :=
  match a with
  | .rc => 0
  | _ => old

/-- A write of a register without behaviour of its own. -/
def Dev.plainWrite (d : Dev) (off : Nat) (v : Word) : Dev :=
  match regRow off with
  | some r => d.setReg off (r.acc.write r.mask (d.reg off) v)
  | none => d

/-- The same for a register with one copy per requester identity. -/
def Dev.plainIdWrite (d : Dev) (id : Fin 13) (off : Nat) (v : Word) : Dev :=
  match regRow off with
  | some r => d.setIdReg id off (r.acc.write r.mask (d.idReg id off) v)
  | none => d

/-- A read of the low word of a statistics counter: the high word and SAT go into the reader's latch (R12). -/
def Dev.statLatch (d : Dev) (id : Fin 13) (off : Nat) (c : Stat) : Word × Dev :=
  (c.low, d.setIdReg id (off + 4) c.high)

/-- A read of an RC register: its value, and the register is cleared (R20). -/
def Dev.rcRead (d : Dev) (off : Nat) : Word × Dev := (d.reg off, d.setReg off (Access.rc.afterRead (d.reg off)))

end Sys2Proof.Machine
end

