-- ==== Sys2Proof/Machine/LineCode.lean ====
section
/-! DEFINITION. What a lane puts on its line and takes from it (R252, R261, R264, R265): 8b/10b characters with running
disparity, the scrambler of 64b/66b, and the PRBS generator. The 8b/10b code itself is the standard one, which the spec
names and does not print (PRESUMED, log 57). -/
namespace Sys2Proof.Machine

/-! ## 8b/10b -/

/-- The valid 8b/10b control codes, each with its character at negative disparity. -/
def kTable : List (Nat × Nat) :=
  [(0x1C, 0x0BC), (0x3C, 0x27C), (0x5C, 0x2BC), (0x7C, 0x33C), (0x9C, 0x13C), (0xBC, 0x17C), (0xDC, 0x1BC), (0xFC, 0x07C),
   (0xF7, 0x057), (0xFB, 0x05B), (0xFD, 0x05D), (0xFE, 0x05E)]

def kCodes : List Nat := kTable.map (·.1)

/-- The 6-bit and 4-bit halves of data characters at negative disparity, the first bit sent in bit 0. -/
def sixBits : List Nat :=
  [0x39, 0x2E, 0x2D, 0x23, 0x2B, 0x25, 0x26, 0x07, 0x27, 0x29, 0x2A, 0x0B, 0x2C, 0x0D, 0x0E, 0x3A,
   0x36, 0x31, 0x32, 0x13, 0x34, 0x15, 0x16, 0x17, 0x33, 0x19, 0x1A, 0x1B, 0x1C, 0x1D, 0x1E, 0x35]
def fourBits : List Nat := [0xD, 0x9, 0xA, 0x3, 0xB, 0x5, 0x6, 0x7]

/-- The number of ones among the lowest `n` bits. -/
def ones (n w : Nat) : Nat := (List.range n).foldl (fun a i => a + b2n (w.testBit i)) 0

/-- The running disparity (true: positive) after `n` bits. -/
def disparity (rd : Bool) (n w : Nat) : Bool := if 2 * ones n w = n then rd else decide (n < 2 * ones n w)

/-- A half at positive disparity: inverted where it is unbalanced, and where it is one of the two balanced pairs. -/
def halfAt (rd : Bool) (n w : Nat) (pair : Bool) : Nat :=
  if rd && (decide (2 * ones n w ≠ n) || pair) then 2 ^ n - 1 - w else w

/-- The 10 bits of a character at a running disparity, the first bit sent in bit 0. -/
def symbolOf (rd : Bool) (b : Byte) (k : Bool) : Nat :=
  let x := b.toNat % 32
  let y := b.toNat / 32
  if k then halfAt rd 10 (((kTable.find? (fun e => decide (e.1 = b.toNat))).map (·.2)).getD 0) true
  else
    let six := halfAt rd 6 (sixBits.getD x 0) (decide (x = 7))
    let rd' := disparity rd 6 six
    let alt := decide (y = 7) && (if rd' then [11, 13, 14].contains x else [17, 18, 20].contains x)
    six + 64 * halfAt rd' 4 (if alt then 0xE else fourBits.getD y 0) (decide (y = 3))

/-- Every character: data bytes, then the control codes. -/
def allChars : List (Byte × Bool) :=
  (List.range 256).map (fun b => (BitVec.ofNat 8 b, false)) ++ kCodes.map (fun b => (BitVec.ofNat 8 b, true))

/-- The character of 10 received bits, and whether it is a code error: no character at all, or one of the other disparity. -/
def charOf (rd : Bool) (w : Nat) : Option (Byte × Bool) × Bool :=
  match allChars.find? (fun c => decide (symbolOf rd c.1 c.2 = w)) with
  | some c => (some c, false)
  | none => (allChars.find? (fun c => decide (symbolOf (!rd) c.1 c.2 = w)), true)

/-- 10 bits are a comma: K28.1, K28.5 or K28.7 at either disparity (R261). -/
def isComma (w : Nat) : Bool :=
  [0x3C, 0xBC, 0xFC].any (fun b => decide (symbolOf false b true = w) || decide (symbolOf true b true = w))

/-- How many bits from `at_` on a comma starts, where it starts within the next 10. -/
def commaAt (line at_ : Nat) : Option Nat := (List.range 10).find? (fun o => isComma (line / 2 ^ (at_ + o) % 1024))

/-- Characters as they are sent: their 10 bits in two bytes each, and the running disparity after them. A K flag on a byte
that is no control code sends the data character (R259). -/
def sendChars (rd : Bool) : List (Byte × Bool) → Bool × List Byte
  | [] => (rd, [])
  | (b, k) :: t =>
    let w := symbolOf rd b (k && kCodes.contains b.toNat)
    let r := sendChars (disparity rd 10 w) t
    (r.1, putLE 2 w ++ r.2)

/-! ## The scrambler x⁵⁸ + x³⁹ + 1 -/

/-- One bit, and the state with `feed` shifted in: bit 0 of the state is the latest. -/
def scrambleBit (b : Bool) (st : BitVec 58) : Bool := xor b (xor (bit st 38) (bit st 57))

/-- `n` bits from bit 0 on, scrambled (`back` false: the sent bits enter the state) or descrambled (the received ones do). -/
def scramble (back : Bool) : Nat → Nat → BitVec 58 → Nat × BitVec 58
  | 0, _, st => (0, st)
  | n + 1, w, st =>
    let b := w.testBit 0
    let o := scrambleBit b st
    let r := scramble back n (w / 2) (setBit (st <<< 1) 0 (if back then b else o))
    (b2n o + 2 * r.1, r.2)

/-- Blocks of a sync header and 64 bits, their payload scrambled where `on`; each is sent as the header and eight bytes. -/
def sendBlocks (on : Bool) (st : BitVec 58) : List (Nat × Nat) → BitVec 58 × List Byte
  | [] => (st, [])
  | (h, w) :: t =>
    let r := if on then scramble false 64 w st else (w, st)
    let rest := sendBlocks on r.2 t
    (rest.1, putLE 1 h ++ putLE 8 r.1 ++ rest.2)

/-- The payloads of received blocks, descrambled where `on`. -/
def receiveBlocks (on : Bool) (st : BitVec 58) : List Nat → BitVec 58 × List Nat
  | [] => (st, [])
  | w :: t =>
    let r := if on then scramble true 64 w st else (w, st)
    let rest := receiveBlocks on r.2 t
    (rest.1, r.1 :: rest.2)

/-! ## The pattern generator (R265, R288) -/

/-- The two taps of a pattern, and so its length. -/
def prbsTaps (pattern : Nat) : Nat × Nat :=
  match pattern with
  | 0 => (7, 6)
  | 1 => (9, 5)
  | 2 => (15, 14)
  | 3 => (23, 18)
  | _ => (31, 28)

/-- `n` bits of a pattern, the first in bit 0, and the state after them: bit i of the state is the bit sent i + 1 before. -/
def prbsBits (taps : Nat × Nat) : Nat → BitVec 31 → Nat × BitVec 31
  | 0, st => (0, st)
  | n + 1, st =>
    let b := xor (bit st (taps.1 - 1)) (bit st (taps.2 - 1))
    let r := prbsBits taps n (setBit (st <<< 1) 0 b)
    (b2n b + 2 * r.1, r.2)

/-- The Gray-coded level of a pair of bits, the first the more significant. -/
def grayLevel (a b : Bool) : Nat := if a then (if b then 2 else 3) else b2n b

/-- 64 bits as the line carries them: on an NRZ lane eight bytes, on a PAM4 lane one byte for each symbol. -/
def lineBits (pam4 : Bool) (w : Nat) : List Byte :=
  if pam4 then (List.range 32).map (fun i => BitVec.ofNat 8 (grayLevel (w.testBit (2 * i)) (w.testBit (2 * i + 1)))) else putLE 8 w

/-! ## Ethernet frames (R252, R268) -/

/-- Preamble and start-of-frame delimiter. -/
def preamble : List Byte := List.replicate 7 0x55 ++ [0xD5]

/-- The FCS of a frame: the check of IEEE 802.3. -/
def fcs32 (bs : List Byte) : Nat := Nat.xor (bs.foldl (crcByte 0xEDB88320) 0xFFFFFFFF) 0xFFFFFFFF

/-- A frame on the line. -/
def lineFrame (bs : List Byte) : List Byte := preamble ++ bs ++ putLE 4 (fcs32 bs)

/-- The ordered set that signals a remote fault (IEEE 802.3; log 57). -/
def remoteFault : List Byte := [0x9C, 0x00, 0x00, 0x02]

end Sys2Proof.Machine
end

