-- ==== Sys2Proof/Machine/Serial.lean ====
section
/-! DEFINITION. Lanes and Ethernet ports (chapter 05, R242 to R275, R283 to R293): lane and port registers, bring-up and
loss of link, received and transmitted frames, raw cells, and the pattern generator and checker. -/
namespace Sys2Proof.Machine

/-! ## Lane state -/

/-- Bits of SDS_STATUS that events set (R287). -/
def bitSignal : Nat := 30
def bitCdr : Nat := 28
def bitRxReady : Nat := 27
def bitBlock : Nat := 26

/-- SDS_RATE lies outside R242 or R262 for a raw mode. -/
def Dev.rateErr (d : Dev) (n : Nat) : Bool :=
  let r := d.fld (sdsRate n) 0 24
  let top := match d.laneMode n with
    | 2 => 1600000
    | 3 => 3200000
    | _ => if d.rbit (sdsRawCfg n) 26 then 11250000 else 10625000
  let lo := if d.rbit (sdsCfg n) 21 then 2000000 else 125000
  let hi := if d.rbit (sdsCfg n) 21 then 11250000 else 3200000
  d.isRaw n && (decide (r < lo) || decide (min top hi < r))

/-- LINK_UP of a port changes: counted, with LINK_CHANGE (R292). -/
def Dev.setLink (d : Dev) (p : Nat) (up : Bool) : Dev :=
  if d.rbit (macStatus p) 31 = up then d
  else ((d.setRbit (macStatus p) 31 up).count (macLinkChanges p)).setRbit (macEvent p) 0 true

/-- PCS and FEC lock of a port are lost, and its link with them (R268). -/
def Dev.portUnlock (d : Dev) (p : Nat) : Dev := (d.clearBits (macStatus p) [30, 29]).setLink p false

/-- The port of a lane loses its lock. -/
def Dev.lanePortUnlock (d : Dev) (n : Nat) : Dev :=
  match d.portOfLane n with
  | some (p, _) => d.portUnlock p
  | none => d

/-- A member has lost a lock: its port is not locked any more (R292), and LINK_UP falls with LINK_DOWN. -/
def Dev.memberUnlock (d : Dev) (n : Nat) : Dev :=
  match d.portOfLane n with
  | some (p, _) => d.clearBits (macStatus p) [30, 29]
  | none => d

/-- The gearbox of a raw lane notes a loss of signal or CDR lock for its next cell (R258), and its count towards block lock
starts again (R261). -/
def Dev.rawLost (d : Dev) (n : Nat) : Dev :=
  d.cond (d.isRaw n) (fun d => d.setRaw n { d.rawLane n with lost := true, goodHeads := 0, badHeads := 0 })

/-- What a lane sends. -/
def Dev.setLine (d : Dev) (n : Nat) (bs : List Byte) : Dev :=
  { d with serial := { d.serial with lineOut := mset (fun _ => []) d.serial.lineOut n bs } }

/-- The device's own cause of a loss on a lane: the next falls do not escalate (R269). -/
def Dev.exemptLane (d : Dev) (n : Nat) : Dev := { d with serial := { d.serial with exempt := setBit d.serial.exempt n true } }

/-- The receiver of a lane is off: no signal and no lock. -/
def Dev.rxDown (d : Dev) (n : Nat) : Dev :=
  (((d.clearBits (sdsStatus n) [bitSignal, bitCdr, bitRxReady, bitBlock]).rawLost n).exemptLane n).lanePortUnlock n

/-- A lane in reset or OFF: the transmit PLL is off too. -/
def Dev.laneDown (d : Dev) (n : Nat) : Dev := (d.rxDown n).setRbit (sdsStatus n) bitTxpll false

/-- The turn-off of rung 4 of shedding reaches a lane's transmitter (R246). -/
def Dev.shedTx (d : Dev) (n : Nat) : Dev :=
  if d.rbit (sdsCfg n) 31 then
    ({ d with serial := { d.serial with txShed := setBit d.serial.txShed n true } }).exemptLane n
  else d

/-- The restore: bring-up repeats from step 3, and the endpoint waits for its transmitter (R246, R267). -/
def Dev.unshedTx (d : Dev) (n : Nat) : Dev :=
  if bit d.serial.txShed n then
    let d := { d with serial := { d.serial with txShed := setBit d.serial.txShed n false, txWait := setBit d.serial.txWait n true } }
    let d := d.txAgain n
    (((d.clearBits (sdsStatus n) [bitCdr, bitRxReady, bitBlock]).rawLost n).exemptLane n).lanePortUnlock n
  else d

/-- What the reset of a lane returns to its reset value besides its locks: its gearbox with its queue and sequence counters,
its events, its counters, and its pattern generator and checker. The registers that the hive writes keep their settings,
since SDS_CFG and SDS_RATE are written while the reset holds (R283; DESIGN CHOICE, log 59). -/
def Dev.laneClear (d : Dev) (n : Nat) : Dev :=
  let d := d.setRaw n RawState.idle
  let d := { d with serial := { d.serial with
    prbs := mset (fun _ => 0) d.serial.prbs n 0
    prbsInject := mset (fun _ => 0) d.serial.prbsInject n 0
    lineOut := mset (fun _ => []) d.serial.lineOut n []
    loopIn := mset (fun _ => []) d.serial.loopIn n [] } }
  (d.forEach [sdsEvent n, sdsPrbsStatus n, sdsPrbsErr n, sdsRawUnderrun n, sdsRawTxdrop n, sdsRawLate n, sdsLockLoss n]
    (fun d a => d.setReg a 0)).statClear (sdsPrbsBits n)

/-! ## SDS_ registers (R283 to R289) -/

/-- A write of SDS_CFG (R283, R285). -/
def Dev.sdsCfgWrite (d : Dev) (id n : Nat) (v : Word) : Dev :=
  let v := v &&& 0x8F300000
  if 4 < bits v 24 4 then d
  else if v ≠ d.reg (sdsCfg n) ∧ d.laneReset n = false then d.ctrlDecode id true false (sdsCfg n)
  else
    let d := (d.setReg (sdsCfg n) v).exemptLane n
    if d.laneMode n = 0 then d.laneDown n else d

/-- A write of SDS_RATE (R283, R284). -/
def Dev.sdsRateWrite (d : Dev) (id n : Nat) (v : Word) : Dev :=
  let v := v &&& 0xFFFFFF
  if v ≠ d.reg (sdsRate n) ∧ d.laneReset n = false then d.ctrlDecode id true false (sdsRate n)
  else (d.setReg (sdsRate n) v).exemptLane n

/-- Only the hive writes SDS_ and MAC_ registers (R283). -/
def execSdsCfgWrite (id : Fin 13) (n : Fin 16) (rate : Bool) (v : Word) (s : State) : Host.Outcome State Fault Refusal :=
  finishBy id s (hiveWrite s.dev id (if rate then sdsRate n else sdsCfg n)
    (fun d => if rate then d.sdsRateWrite id n v else d.sdsCfgWrite id n v))

/-- The fields of SDS_CTRL as a write leaves them: TEST is not set in RETIRED (R263), and a loopback is selected only on
a lane that is marked after the write (R264); a shutdown keeps every lane in reset (R637). -/
def Dev.sdsCtrlNew (d : Dev) (n : Nat) (v : Word) : Word :=
  let v := v &&& 0xF0000007
  let old := d.reg (sdsCtrl n)
  let v := if d.inRetired && !bit old 31 then setBit v 31 false else v
  let v := if 2 ≤ d.fld pwrStatus 28 3 then setBit v 0 true else v
  let marked := (d.setReg (sdsCtrl n) v).laneTest n
  if bits v 28 3 ≠ 0 ∧ marked = false then setBits v 28 3 (bits old 28 3) else v

/-- What follows on a lane from a change of SDS_CTRL (R263, R267, R269, R618): the lane's reset begins, lasts or ends. -/
def Dev.sdsCtrlSet (d : Dev) (n : Nat) (v : Word) : Dev :=
  let old := d.reg (sdsCtrl n)
  let d := d.setReg (sdsCtrl n) v
  let d := if bit v 0 then d.laneDown n else d
  let d := if bit v 0 || bit old 0 then d.laneClear n else d
  let d := if bit old 2 && !bit v 2 then d.rxDown n else d
  let marked := match d.portOfLane n with
    | some (p, _) => d.members p
    | none => [n]
  let d := if bit v 31 && !bit old 31 then (d.forEach marked Dev.exemptLane).lanePortUnlock n else d
  d.txAgain n

/-- A write of SDS_CTRL: one that turns a transmitter on while the permit is clear is refused as a whole (R245, R562). -/
def Dev.sdsCtrlWrite (d : Dev) (id n : Nat) (v : Word) : Dev :=
  if 4 < bits v 28 3 then d
  else if bit v 1 && !d.rbit (sdsCtrl n) 1 && !d.lanePermit n then
    (d.fenceRefuse 2 n (sdsCtrl n)).ctrlDecode id true false (sdsCtrl n)
  else d.sdsCtrlSet n (d.sdsCtrlNew n v)

def execSdsCtrlWrite (id : Fin 13) (n : Fin 16) (v : Word) (s : State) : Host.Outcome State Fault Refusal :=
  finishBy id s (hiveWrite s.dev id (sdsCtrl n) (fun d => d.sdsCtrlWrite id n v))

/-! ## The pattern generator and checker (R264 to R266, R288) -/

/-- The checker counts bits and bit errors while it is locked. -/
def Dev.prbsCount (d : Dev) (n errs bitsN : Nat) : Dev :=
  ((d.count (sdsPrbsErr n) errs).statUp (sdsPrbsBits n) bitsN)

/-- The modulation of a lane: PAM4 in a raw mode, and the one of its port's mode in ETH (R248, R285). -/
def Dev.lanePam4 (d : Dev) (n : Nat) : Bool :=
  if d.isRaw n then d.rbit (sdsCfg n) 21
  else match d.portOfLane n with
    | some (p, _) => decide (d.fld (macCfg p) 14 2 = 2)
    | none => false

/-- A near loopback carries what the transmitter sends to the lane's own receiver (R264). -/
def Dev.nearLoop (d : Dev) (n : Nat) : Bool := decide (d.loopback n = 1) || decide (d.loopback n = 2)

/-- What a lane sends: a near loopback carries it to the lane's own receiver, and it reaches the balls where the transmitter
is on (R264). -/
def Dev.transmit (d : Dev) (n : Nat) (bs : List Byte) : Dev :=
  if d.nearLoop n then { d with serial := { d.serial with loopIn := mset (fun _ => []) d.serial.loopIn n bs } }
  else d.cond (d.txOn n) (fun d => d.setLine n bs)

/-- The generator's last bits are no part of its pattern where they are all zeros: as at its start, after a reset and where
PATTERN has become shorter. Where it stands in its pattern then is free. -/
def Dev.prbsSeed (d : Dev) (n : Nat) : Dev :=
  let len := (prbsTaps (d.fld (sdsPrbsCtrl n) 0 3)).1
  let clear (v : BitVec 31) : Bool := decide (v.toNat % 2 ^ len = 0)
  if clear (mget (fun _ => 0) d.serial.prbs n) then
    let v : BitVec 31 := d.freeVal 31
    let v := if clear v then setBit v 0 true else v
    { d.freeNext with serial := { d.serial with prbs := mset (fun _ => 0) d.serial.prbs n v } }
  else d

/-- The next 64 bits of the generated pattern, with `flip` inverted (R265). -/
def Dev.prbsSend (d : Dev) (n flip : Nat) : Dev :=
  let d := d.prbsSeed n
  let taps := prbsTaps (d.fld (sdsPrbsCtrl n) 0 3)
  let (w, st) := prbsBits taps 64 (mget (fun _ => 0) d.serial.prbs n)
  let w := Nat.xor (if d.rbit (sdsPrbsCtrl n) 29 then 2 ^ 64 - 1 - w else w) flip
  let d := { d with serial := { d.serial with prbs := mset (fun _ => 0) d.serial.prbs n st } }
  d.transmit n (lineBits (d.lanePam4 n) w)

/-- The generator starts anew. -/
def Dev.prbsStart (d : Dev) (n : Nat) : Dev :=
  ({ d with serial := { d.serial with prbs := mset (fun _ => 0) d.serial.prbs n 0 } }).prbsSend n 0

/-- INJECT: one bit of the generated stream is inverted; a checker that receives it over a near loopback counts it. -/
def Dev.prbsInject (d : Dev) (n : Nat) : Dev :=
  if d.rbit (sdsPrbsCtrl n) 31 then
    let d := d.prbsSend n 1
    let d := { d with serial := { d.serial with
      prbsInject := mset (fun _ => 0) d.serial.prbsInject n (mget (fun _ => 0) d.serial.prbsInject n + 1) } }
    if d.rbit (sdsPrbsStatus n) 31 && d.nearLoop n then
      d.prbsCount n 1 1
    else d
  else d

/-- A write of SDS_PRBS_CTRL: GEN_EN and CHK_EN are set only on a lane marked TEST (R264); enabling the checker clears
its counters (R266). -/
def Dev.prbsCtrlWrite (d : Dev) (n : Nat) (v : Word) : Dev :=
  if 4 < bits v 0 3 then d
  else
    let old := d.reg (sdsPrbsCtrl n)
    let marked := d.laneTest n
    let gen := if bit v 31 && !marked then bit old 31 else bit v 31
    let chk := if bit v 30 && !marked then bit old 30 else bit v 30
    let w := setBit (setBit (v &&& 0x20000007) 31 gen) 30 chk
    let d := d.setReg (sdsPrbsCtrl n) w
    let d := if chk && !bit old 30 then (d.setReg (sdsPrbsErr n) 0).statClear (sdsPrbsBits n) else d
    let d := if chk then d else d.setRbit (sdsPrbsStatus n) 31 false
    let d := if gen && !bit old 31 then d.prbsStart n else d
    if bit v 28 then d.prbsInject n else d

def execSdsPrbsCtrlWrite (id : Fin 13) (n : Fin 16) (v : Word) (s : State) : Host.Outcome State Fault Refusal :=
  finishBy id s (hiveWrite s.dev id (sdsPrbsCtrl n) (fun d => d.prbsCtrlWrite n v))

/-- A write that sets INJECT and leaves the other fields as they are (R265). -/
def execPrbsInject (id : Fin 13) (n : Fin 16) (s : State) : Host.Outcome State Fault Refusal :=
  finishBy id s (hiveWrite s.dev id (sdsPrbsCtrl n)
    (fun d => d.prbsCtrlWrite n (setBit (d.reg (sdsPrbsCtrl n)) 28 true)))

/-- The checker locks, and counts `bitsN` bits with `errs` errors before the next event of this lane (R266). Over a near
loopback it receives the lane's own pattern, whose only errors INJECT makes. -/
def execPrbsCheckerLock (n : Fin 16) (errs : Word) (bitsN : BitVec 48) (s : State) : Host.Outcome State Fault Refusal :=
  finish s (s.dev.cond (s.dev.rbit (sdsPrbsCtrl n) 30 && s.dev.laneTest n)
    (fun d => (d.setRbit (sdsPrbsStatus n) 31 true).prbsCount n (if d.nearLoop n then 0 else errs.toNat) bitsN.toNat))

/-- The checker sees 32 errors within 64 bits, the last of the counted ones, and loses lock (R266). -/
def execPrbsCheckerLoss (n : Fin 16) (errs : Word) (bitsN : BitVec 48) (s : State) : Host.Outcome State Fault Refusal :=
  finish s (s.dev.cond (s.dev.rbit (sdsPrbsStatus n) 31 && decide (32 ≤ errs.toNat) && decide (errs.toNat ≤ bitsN.toNat))
    (fun d => (d.prbsCount n errs.toNat bitsN.toNat).setRbit (sdsPrbsStatus n) 31 false))

/-! ## Bring-up and link status (R267 to R269) -/

/-- Step 2 and 3: the transmit PLL locks, and the transmitter leaves electrical idle where it may. -/
def execTxPllLock (n : Fin 16) (s : State) : Host.Outcome State Fault Refusal :=
  finish s (s.dev.cond (decide (s.dev.laneMode n ≠ 0) && !s.dev.laneReset n && s.dev.rbit (sdsCtrl n) 1)
    (fun d => (d.setRbit (sdsStatus n) bitTxpll true).txAgain n))

/-- Step 4: the receiver has a signal, its CDR locks and it is adapted; the exemption of R269 ends. -/
def Dev.cdrLock (d : Dev) (n : Nat) : Dev :=
  if d.laneMode n ≠ 0 ∧ d.laneReset n = false ∧ d.rbit (sdsCtrl n) 2 then
    let d := d.forEach [bitSignal, bitCdr, bitRxReady] (fun d b => d.setRbit (sdsStatus n) b true)
    { d with serial := { d.serial with exempt := setBit d.serial.exempt n false } }
  else d

def execCdrLockAcquired (n : Fin 16) (s : State) : Host.Outcome State Fault Refusal := finish s (s.dev.cdrLock n)

def Dev.portOn (d : Dev) (p : Nat) : Bool := d.rbit (macCfg p) 31 && !d.laneTest p

/-- Every lane of a port is in mode ETH and has recovered its clock, and its blocks where `blocks`. -/
def Dev.portLanesReady (d : Dev) (p : Nat) (blocks : Bool) : Bool :=
  (d.portLanes p).all (fun i => decide (d.laneMode i = 1) && d.rbit (sdsStatus i) bitCdr && (!blocks || d.rbit (sdsStatus i) bitBlock))

/-- Step 5 on every member of a port. The lock of a raw lane follows from the units that it receives (`gearLock`). -/
def Dev.pcsLock (d : Dev) (n : Nat) : Dev :=
  if d.portOn n && d.portLanesReady n false then
    (d.forEach (d.members n) (fun d i => d.setRbit (sdsStatus i) bitBlock true)).setRbit (macStatus n) 30 true
  else d

def execPcsLock (n : Fin 16) (s : State) : Host.Outcome State Fault Refusal := finish s (s.dev.pcsLock n)

/-- Step 6. -/
def execFecLock (p : Fin 16) (s : State) : Host.Outcome State Fault Refusal :=
  finish s (s.dev.cond (s.dev.portOn p && s.dev.rbit (macStatus p) 30 && decide (s.dev.fld (macCfg p) 14 2 ≠ 0))
    (fun d => d.setRbit (macStatus p) 29 true))

/-- PCS lock of every member, and FEC lock where the port has FEC. -/
def Dev.portLocked (d : Dev) (p : Nat) : Bool :=
  d.portOn p && d.portLanesReady p true && d.rbit (macStatus p) 30 && (d.rbit (macStatus p) 29 || decide (d.fld (macCfg p) 14 2 = 0))

/-- Step 7: no fault has been received for 10 µs, so the MAC signals none any more. -/
def Dev.linkUp (d : Dev) (p : Nat) : Dev :=
  let d := (d.clearBits (macStatus p) [28, 27]).setLink p true
  d.cond (decide (mget (fun _ => []) d.serial.lineOut p = remoteFault)) (fun d => d.setLine p [])

def execLinkUp (p : Fin 16) (s : State) : Host.Outcome State Fault Refusal :=
  finish s (s.dev.cond (s.dev.portLocked p) (fun d => d.linkUp p))

/-- R268: a member has no signal or lock, PCS or FEC lock is lost, or a local or remote fault is received. `blocks` names
the members that lose block or alignment-marker lock, with BLOCK_LOSS in SDS_EVENT (R284). While a local fault is received, the MAC sends remote fault. -/
def Dev.linkDown (d : Dev) (p : Nat) (blocks : BitVec 16) (pcs fec localFault remoteFaultIn : Bool) : Dev :=
  if d.rbit (macCfg p) 31 then
    let hit := (d.members p).filter (fun i => bit blocks i)
    let d := d.forEach hit (fun d i => d.cond (d.rbit (sdsStatus i) bitBlock)
      (fun d => (d.setRbit (sdsStatus i) bitBlock false).setRbit (sdsEvent i) 2 true))
    let lost := pcs || (d.members p).any (fun i =>
      !(d.rbit (sdsStatus i) bitSignal && d.rbit (sdsStatus i) bitCdr && d.rbit (sdsStatus i) bitBlock))
    if lost || fec || localFault || remoteFaultIn then
      let d := if lost then d.clearBits (macStatus p) [30, 29] else d
      let d := if fec then d.setRbit (macStatus p) 29 false else d
      let d := if localFault then (d.setRbit (macStatus p) 28 true).cond (d.txOn p) (fun d => d.setLine p remoteFault) else d
      let d := if remoteFaultIn then d.setRbit (macStatus p) 27 true else d
      d.setLink p false
    else d
  else d

def execLinkDown (p : Fin 16) (blocks : BitVec 16) (pcs fec localFault remoteFault : Bool) (s : State) :
    Host.Outcome State Fault Refusal :=
  finish s (s.dev.linkDown p blocks pcs fec localFault remoteFault)

/-- The level path of a lane (R269). -/
def Path.lane (n : Nat) : Path := { region := none, unit := some n, sub := none }

/-- SIGNAL_DETECT or CDR_LOCK falls (R269). -/
def Dev.signalLoss (d : Dev) (n : Nat) (sig cdr : Bool) : Dev :=
  let sig := sig && d.rbit (sdsStatus n) bitSignal
  let cdr := cdr && d.rbit (sdsStatus n) bitCdr
  if sig || cdr then
    let exempt := bit d.serial.exempt n
    let d := if sig then d.setRbit (sdsStatus n) bitSignal false else d
    let d := if cdr then (d.clearBits (sdsStatus n) [bitCdr, bitRxReady, bitBlock]).memberUnlock n else d
    let d := d.rawLost n
    if exempt then d
    else
      let d := if cdr then d.count (sdsLockLoss n) else d
      if d.rbit (sdsCtrl n) 2 && !d.laneTest n then
        let m := b2n sig + 2 * b2n cdr
        (d.setReg (sdsEvent n) (d.reg (sdsEvent n) ||| BitVec.ofNat 32 m)).escalate clsLane srcLane (Path.lane n) [BitVec.ofNat 8 m]
      else d
  else d

def execLaneSignalLoss (n : Fin 16) (sig cdr : Bool) (s : State) : Host.Outcome State Fault Refusal :=
  finish s (s.dev.signalLoss n sig cdr)

/-- R261: a 64b/66b gearbox loses block lock. -/
def Dev.blockLost (d : Dev) (n : Nat) : Dev :=
  ((d.setRbit (sdsStatus n) bitBlock false).setRbit (sdsEvent n) 2 true).setRaw n
    { d.rawLane n with badHeads := 0, goodHeads := 0 }

def execBlockLockLoss (n : Fin 16) (s : State) : Host.Outcome State Fault Refusal :=
  finish s (s.dev.cond (decide (s.dev.laneMode n = 3) && s.dev.rbit (sdsStatus n) bitBlock) (fun d => d.blockLost n))

/-! ## MAC_ registers (R248, R249, R290 to R293) -/

/-- SPEED, LANES and FEC of a mode of R248. -/
def macModes : List (Nat × Nat × Nat) :=
  [ (1, 1, 0), (2, 1, 0), (2, 1, 1), (3, 1, 2), (4, 1, 2), (4, 4, 0), (4, 4, 1), (5, 2, 2), (5, 4, 2), (6, 4, 2), (6, 8, 2) ]

/-- A MAC_CFG word may enable port p (R249). -/
def Dev.macCfgOk (d : Dev) (p : Nat) (v : Word) : Bool :=
  let k := bits v 16 4
  macModes.contains (bits v 24 4, k, bits v 14 2) && decide (p % k = 0) &&
  (List.range k).all (fun i =>
    decide (d.laneMode (p + i) = 1) &&
    (match d.portOfLane (p + i) with
     | none => true
     | some (q, _) => decide (q = p)))

/-- A port is enabled, or is not any more: a lane that its membership marks TEST falls silent by the device's own cause (R263,
R269), and one whose loopback or mark has ended may transmit again. -/
def Dev.macMembers (d : Dev) (p : Nat) (v : Word) : Dev :=
  let e := d.setReg (macCfg p) v
  e.forEach (List.range 16) (fun e i => (e.cond (e.laneTest i && !d.laneTest i) (fun e => e.exemptLane i)).txAgain i)

/-- A write of MAC_CFG (R249, R283, R291). -/
def Dev.macCfgWrite (d : Dev) (id p : Nat) (v : Word) : Dev :=
  let v := v &&& 0x8F0FC000
  let old := d.reg (macCfg p)
  if ¬ (1 ≤ bits v 24 4 ∧ bits v 24 4 ≤ 6) ∨ ¬ [1, 2, 4, 8].contains (bits v 16 4) ∨ bits v 14 2 = 3 then
    (if bit v 31 then d.setRbit (macEvent p) 3 true else d)
  else if bit old 31 ∧ setBit v 31 false ≠ setBit old 31 false then d.ctrlDecode id true false (macCfg p)
  else if bit v 31 ∧ d.macCfgOk p v = false then d.setRbit (macEvent p) 3 true
  else if bit old 31 ∧ bit v 31 = false then (d.portUnlock p).macMembers p v
  else d.macMembers p v

def execMacCfgWrite (id : Fin 13) (p : Fin 16) (v : Word) (s : State) : Host.Outcome State Fault Refusal :=
  finishBy id s (hiveWrite s.dev id (macCfg p) (fun d => d.macCfgWrite id p v))

/-- MAC_CLEAR.ALL clears the port's statistics counters (R290). -/
def Dev.macClearWrite (d : Dev) (p : Nat) (v : Word) : Dev :=
  if bit v 0 then d.forEach [macRxFrames p, macRxBytes p, macTxFrames p, macTxBytes p, macFecCorr p] Dev.statClear else d

def execMacClear (id : Fin 13) (p : Fin 16) (s : State) : Host.Outcome State Fault Refusal :=
  finishBy id s (hiveWrite s.dev id (macClear p) (fun d => d.macClearWrite p 1))

def Dev.txtsOf (d : Dev) (p : Nat) : List TxStamp := mget (fun _ => []) d.serial.txts p

def Dev.setTxts (d : Dev) (p : Nat) (q : List TxStamp) : Dev :=
  { d with serial := { d.serial with txts := mset (fun _ => []) d.serial.txts p q } }

/-- A read of MAC_TXTS3 removes the head entry (R293). -/
def Dev.txtsPop (d : Dev) (p : Nat) : Word × Dev :=
  match d.txtsOf p with
  | [] => (0, d)
  | x :: q => (setBit x.tag 31 true, d.setTxts p q)

/-- The read data of an access of identity `id`. -/
def Dev.setRead (d : Dev) (id : Fin 13) (v : Word) : Dev :=
  { d with readData := mset (fun _ => 0) d.readData id.val v }

/-- Reads of SDS_, MAC_ and TIME_ registers (R283). -/
def Dev.serialReadOk (d : Dev) (id : Fin 13) : Bool := d.granted id 2

def execMacTxtsPop (id : Fin 13) (p : Fin 16) (s : State) : Host.Outcome State Fault Refusal :=
  let d := s.dev
  finishBy id s
    (if d.serialReadOk id then
      let r := d.txtsPop p
      r.2.setRead id r.1
     else (d.ctrlDecode id.val false false (macTxts3 p)).setRead id 0)

/-! ## Port ingress classification (R145 to R149) -/

/-- VLAN tags at the front of a frame, at most two (R147). -/
def Dev.vlanTags (d : Dev) (p : Nat) (bs : List Byte) : Nat :=
  let tag (i : Nat) : Bool :=
    let t := (bs.getD i 0).toNat * 256 + (bs.getD (i + 1) 0).toNat
    decide (i + 1 < bs.length) && (decide (t = d.fld (fabCls p + 4) 0 16) || decide (t = d.fld (fabCls p + 4) 16 16))
  if tag 12 then (if tag 16 then 2 else 1) else 0

/-- Big-endian number of `n` bytes from `off`. -/
def getBE (n : Nat) (bs : List Byte) (off : Nat) : Nat :=
  (slice bs off n).foldl (fun a b => a * 256 + b.toNat) 0

/-- `v` as `n` bytes, most significant first. -/
def putBE (n v : Nat) : List Byte := (putLE n v).reverse

/-- Field i of the key; none where it lies past the end of the frame or past byte 191. -/
def Dev.clsField (d : Dev) (p i : Nat) (bs : List Byte) : Option Nat :=
  let w := d.reg (fabCls p + 0x10 + 4 * i)
  if bit w 31 then
    let base := match bits w 29 2 with
      | 0 => 0
      | 1 => 12 + 4 * d.vlanTags p bs
      | _ => 14 + 4 * d.vlanTags p bs
    let off := base + bits w 0 8
    let n := bits w 8 2 + 1
    if off + n ≤ bs.length ∧ off + n ≤ 192 then some (getBE n bs off) else none
  else some 0

/-- The 128-bit key; none where a field makes the lookup a miss. -/
def Dev.clsKeyOf (d : Dev) (p : Nat) (bs : List Byte) : Option (BitVec 128) :=
  (List.range 4).foldl (fun a i =>
    match a, d.clsField p i bs with
    | some k, some v => some (k + BitVec.ofNat 128 (v * 2 ^ (32 * i)))
    | _, _ => none) (some 0)

/-- The flow of the valid entry that holds the key. -/
def Dev.clsFind (d : Dev) (p : Nat) (k : BitVec 128) : Option Nat :=
  (d.fab.cls.find? (fun e => decide (e.1 / 4096 = p) && e.2.valid && decide (e.2.key = k))).map (fun e => e.2.flow.toNat)

/-- A flow other than flow 0 that is live with a member of port p as its source. -/
def Dev.liveAtPort (d : Dev) (ms : List Nat) (f : Nat) : Bool :=
  decide (f ≠ 0) && ms.any (fun e => (d.flow f).liveFrom e)

/-- A frame's flow and the member that it enters at; none where it is dropped (R148, R250). -/
def Dev.classify (d : Dev) (p : Nat) (ms : List Nat) (bs : List Byte) : Dev × Option Nat :=
  let hit := if d.rbit (fabCls p) 31 then (d.clsKeyOf p bs).bind (fun k => d.clsFind p k) else none
  match hit with
  | some f =>
    if d.liveAtPort ms f then (d.statUp (clsHit p), some f)
    else
      let d := (d.count (clsStale p)).statUp (clsMissCnt p)
      (d, if d.rbit (fabCls p) 30 then none else some (d.fld (fabCls p) 0 12))
  | none =>
    let d := d.statUp (clsMissCnt p)
    (d, if d.rbit (fabCls p) 30 then none else some (d.fld (fabCls p) 0 12))

/-- A whole message at a port ingress: accepted, carried or dropped (R149, R196, R199, R216); none is
carried while best-effort service is stopped (R156). -/
def Dev.judgeMessage (d : Dev) (e : Nat) (cs : List Cell) : Dev :=
  match cs with
  | [] => d
  | c :: _ =>
    let f := c.flow.toNat
    let x := d.flow f
    let n := cs.length
    let drop (d : Dev) : Dev := d.statUp (fabEpDrop e) n
    let carry (d : Dev) : Dev := if d.beStopped then drop d else d.forEach cs (fun d c => d.carryCell e c)
    if f = 0 then
      (if 51 < c.dest.toNat then d.forEach cs (fun d _ => d.igDiscard e)
       else if (d.ing e).be.length + n ≤ 64 then carry d else drop d)
    else if x.openAt e = false then d.count (admEpNotlive e) n
    else if x.judged && decide (n ≤ x.tokens) && decide (n ≤ x.credits) && decide (n ≤ x.m.toNat) then
      d.forEach cs (fun d c => d.acceptCell e c)
    else if x.judged then (if x.carryExcess then carry d else drop d)
    else carry d

/-- Bytes of a port's staging memory in use: messages whose cells the best-effort stores of its members have no room
for yet (R146). -/
def Dev.stagingUse (d : Dev) (ms : List Nat) : Nat := ms.foldl (fun a e => a + 64 * ((d.ing e).be.length - 64)) 0

/-- A message that the MAC has passed goes through the classifier (R145, R146, R250). -/
def Dev.portIngress (d : Dev) (p : Nat) (ms : List Nat) (frame msg : List Byte) : Dev :=
  if 16384 < msg.length then d.count (clsOversize p)
  else if 32768 < d.stagingUse ms + msg.length then d.count (clsStageDrop p)
  else
    match d.classify p ms frame with
    | (d, none) => d
    | (d, some f) =>
      let e := if f = 0 then p else (ms.find? (fun e => decide ((d.flow f).src.toNat = e))).getD p
      let dest := if f = 0 then d.fld (fabCls p) 16 6 else (d.flow f).dest.toNat
      d.judgeMessage e (cellsOf (BitVec.ofNat 12 f) (BitVec.ofNat 6 dest) 0 0 msg)

/-! ## PTP event messages and stamps (R270 to R275) -/

/-- Where the PTP header of an event message starts, and whether it is carried over UDP (0 no, 4, 6) with the start of
the IP header (R270). -/
def Dev.ptpAt (d : Dev) (p : Nat) (bs : List Byte) : Option (Nat × Nat × Nat) :=
  let h := 14 + 4 * d.vlanTags p bs
  let et := getBE 2 bs (h - 2)
  let cand : Option (Nat × Nat × Nat) :=
    if et = 0x88F7 then some (h, 0, h)
    else if et = 0x0800 ∧ getBE 1 bs (h + 9) = 17 ∧ getBE 2 bs (h + 6) % 0x4000 = 0 then
      let u := h + 4 * (getBE 1 bs h % 16)
      if getBE 2 bs (u + 2) = 319 then some (u + 8, 4, h) else none
    else if et = 0x86DD ∧ getBE 1 bs (h + 6) = 17 ∧ getBE 2 bs (h + 42) = 319 then some (h + 48, 6, h)
    else none
  match cand with
  | some (q, v, ip) =>
    if q + 34 ≤ bs.length ∧ getBE 1 bs (q + 1) % 16 = 2 ∧ getBE 1 bs q % 16 ≤ 3 then some (q, v, ip) else none
  | none => none

/-- A signed correction in units of 2⁻¹⁶ ns, as device time. -/
def corrOf (w : Word) : Time96 := w.signExtend 96 <<< 16

/-- Device time at a measured instant: `skew` is the error of the measurement, within ±2 ns (R271). -/
def Dev.stampAt (d : Dev) (skew : BitVec 34) (corr : Word) : Time96 := d.time.now + skew.signExtend 96 + corrOf corr

/-- Nanoseconds and fraction of a time. -/
def nsOf (t : Time96) : Nat := t.toNat / 2 ^ 32
def fracOf (t : Time96) : Nat := t.toNat % 2 ^ 32

/-- The 12-byte trailer of R273. -/
def stampTrailer (t : Time96) : List Byte := putLE 8 (nsOf t) ++ putLE 4 (fracOf t)

/-- A far loopback sends back what the lane receives, where the transmitter is on (R264). -/
def Dev.farLoop (d : Dev) (n : Nat) : Bool :=
  (decide (d.loopback n = 3) || decide (d.loopback n = 4)) && d.txOn n && d.rbit (sdsCtrl n) 2

/-- MAC_FRAME_RECEIVE: `frame` runs from the destination address to the byte before the FCS; the FCS check, code errors
and the FEC's work are what the receiver finds (R251, R273). -/
def Dev.frameReceive (d : Dev) (p : Nat) (frame : List Byte) (fcsBad codeErr : Bool) (fecCorr fecUncorr : BitVec 16)
    (skew : BitVec 34) : Dev :=
  if d.portLocked p then
    let d := d.statUp (macFecCorr p) fecCorr.toNat
    let d := d.count (macFecUncorr p) fecUncorr.toNat
    let len := frame.length + 4
    let code := codeErr || decide (fecUncorr ≠ 0)
    let runt := decide (len < 64)
    let long := decide (d.fld (macMaxFrame p) 0 15 < len)
    let d := if fcsBad then d.count (macRxFcsErr p) else d
    let d := if runt then d.count (macRxRunt p) else d
    let d := if long then d.count (macRxOversize p) else d
    let d := if code then d.count (macRxCodeErr p) else d
    if fcsBad || runt || long || code then d
    else
      let d := (d.statUp (macRxFrames p)).statUp (macRxBytes p) len
      let mode := d.fld (macCtrl p) 28 2
      let t := d.stampAt skew (d.reg (sdsRxCorr p))
      let trailer := if mode = 2 ∨ (mode = 1 ∧ (d.ptpAt p frame).isSome) then stampTrailer t else []
      d.portIngress p (d.members p) frame (frame ++ trailer)
  else if d.farLoop p then
    let fcs : Word := if fcsBad then d.freeVal 32 else BitVec.ofNat 32 (fcs32 frame)
    (d.cond fcsBad Dev.freeNext).setLine p (preamble ++ frame ++ putLE 4 fcs.toNat)
  else d

def execMacFrameReceive (p : Fin 16) (frame : List Byte) (fcsBad codeErr : Bool) (fecCorr fecUncorr : BitVec 16)
    (skew : BitVec 34) (s : State) : Host.Outcome State Fault Refusal :=
  finish s (s.dev.frameReceive p frame fcsBad codeErr fecCorr fecUncorr skew)

/-- One's complement sum of 16-bit words. -/
def onesSum : List Byte → Nat → Nat
  | a :: b :: t, acc =>
    let v := acc + a.toNat * 256 + b.toNat
    onesSum t (v % 65536 + v / 65536)
  | [a], acc =>
    let v := acc + a.toNat * 256
    v % 65536 + v / 65536
  | [], acc => acc

/-- The UDP checksum over IPv6 of the datagram at `u`, its own checksum field taken as 0. -/
def udp6Sum (bs : List Byte) (ip u : Nat) : Nat :=
  let len := getBE 2 bs (u + 4)
  let body := patch (slice bs u len) 6 [0, 0]
  let s := onesSum (slice bs (ip + 8) 32 ++ putBE 4 len ++ [0, 0, 0, 17] ++ body) 0
  if s = 65535 then 65535 else 65535 - s

/-- A Sync message stamped in one step (R275). -/
def oneStep (bs : List Byte) (q v ip : Nat) (t : Time96) : List Byte :=
  let ns := nsOf t
  let bs := patch bs (q + 34) (putBE 6 (ns / 1000000000) ++ putBE 4 (ns % 1000000000))
  let bs := patch bs (q + 8) (putBE 8 (getBE 8 bs (q + 8) + fracOf t / 65536))
  if v = 4 then patch bs (q - 2) [0, 0]
  else if v = 6 then patch bs (q - 2) (putBE 2 (udp6Sum bs ip (q - 8)))
  else bs

/-- An entry for the transmit stamp queue (R274). -/
def stampEntry (bs : List Byte) (q : Nat) (t : Time96) : TxStamp :=
  { tag := BitVec.ofNat 32 (getBE 1 bs q % 16 * 2 ^ 24 + getBE 1 bs (q + 4) * 2 ^ 16 + getBE 2 bs (q + 30)), time := t }

def Dev.pushStamp (d : Dev) (p : Nat) (x : TxStamp) : Dev :=
  if 64 ≤ (d.txtsOf p).length then d.count (macTxtsOvf p) else d.setTxts p (d.txtsOf p ++ [x])

/-- MAC_TRANSMIT: the message at the head of a port's queue is sent, or dropped while the link is down (R252, R253). -/
def Dev.macTransmit (d : Dev) (p : Nat) (skew : BitVec 34) : Dev :=
  match d.macTx p with
  | [] => d
  | m :: q =>
    let d := d.setMacTx p q
    if d.rbit (macStatus p) 31 then
      let bs := fit (max 60 m.bytes.length) m.bytes
      let mode := d.fld (macCtrl p) 30 2
      let t := d.stampAt skew (d.reg (sdsTxCorr p))
      let (d, bs) := match d.ptpAt p bs with
        | none => (d, bs)
        | some (at_, v, ip) =>
          if mode = 2 ∧ getBE 1 bs at_ % 16 = 0 ∧ bit (bs.getD (at_ + 6) 0) 1 = false ∧ at_ + 44 ≤ bs.length then
            (d, oneStep bs at_ v ip t)
          else if mode = 1 ∨ mode = 2 then (d.pushStamp p (stampEntry bs at_ t), bs)
          else (d, bs)
      ((d.statUp (macTxFrames p)).statUp (macTxBytes p) (bs.length + 4)).setLine p (lineFrame bs)
    else d.macDrop p 2

def execMacTransmit (p : Fin 16) (skew : BitVec 34) (s : State) : Host.Outcome State Fault Refusal :=
  finish s (s.dev.macTransmit p skew)

/-! ## Raw lanes (R256 to R260) -/

/-- A raw lane at work: a raw mode, out of reset, not marked TEST. -/
def Dev.rawOn (d : Dev) (n : Nat) : Bool := d.isRaw n && !d.laneReset n && !d.laneTest n

/-- Units as a gearbox takes them from the line: where the next one starts, data bytes, marks (K flags or sync headers),
code-error flags. -/
structure RawUnits where
  dev : Dev
  at_ : Nat
  data : List Byte
  marks : Nat
  errs : Nat
  codeErr : Bool

/-- The character or block lock of a raw lane is gained, where its clock is recovered: its alignment is a new one (R258,
R261). -/
def Dev.gearLock (d : Dev) (n : Nat) : Dev :=
  if d.rbit (sdsStatus n) bitCdr && !d.rbit (sdsStatus n) bitBlock then
    (d.setRbit (sdsStatus n) bitBlock true).setRaw n { d.rawLane n with aligned := true, badHeads := 0 }
  else d

/-- The character at `u.at_`, the i-th of its cell. Where COMMA_ALIGN is 1 and a comma starts within the next 10 bits, the
bits before it are passed over and it is the next character (R261; log 59). The data of bits that are no character is free. -/
def Dev.takeChar (n line : Nat) (u : RawUnits) (i : Nat) : RawUnits :=
  let comma := if u.dev.rbit (sdsRawCfg n) 30 then commaAt line u.at_ else none
  let skip := comma.getD 0
  let d := if skip = 0 then u.dev else u.dev.setRaw n { u.dev.rawLane n with aligned := true }
  let d := if comma.isSome then d.gearLock n else d
  let w := line / 2 ^ (u.at_ + skip) % 1024
  let x := d.rawLane n
  let r := charOf x.rxRd w
  let d := d.setRaw n { x with rxRd := disparity x.rxRd 10 w }
  let (d, c) := match r.1 with
    | some c => (d, c)
    | none => (d.freeNext, ((d.freeVal 8 : Byte), false))
  { dev := d, at_ := u.at_ + skip + 10, data := u.data ++ [c.1], marks := u.marks + b2n c.2 * 2 ^ i,
    errs := u.errs + b2n r.2 * 2 ^ i, codeErr := u.codeErr || r.2 }

/-- A sync header: it counts towards block lock, or against it. Where the lock does not hold, one bit is passed over after
an invalid header, so that the gearbox tries the next alignment (R261; log 59). The result says whether one is. -/
def Dev.takeHeader (d : Dev) (n : Nat) (wrong : Bool) : Bool × Dev :=
  let x := d.rawLane n
  let good := if wrong then 0 else min 64 (x.goodHeads + 1)
  if d.rbit (sdsStatus n) bitBlock then
    let b := setBit (x.badHeads <<< 1) 0 wrong
    let d := d.setRaw n { x with badHeads := b, goodHeads := good }
    (false, d.cond (decide (16 ≤ ones 64 b.toNat)) (fun d => d.blockLost n))
  else
    let d := d.setRaw n { x with goodHeads := good, aligned := x.aligned || wrong }
    (wrong, d.cond (decide (good = 64)) (fun d => d.gearLock n))

/-- The block at `u.at_`, the i-th of its cell: a sync header and 64 bits, descrambled. -/
def Dev.takeBlock (n line : Nat) (u : RawUnits) (i : Nat) : RawUnits :=
  let h := line / 2 ^ u.at_ % 4
  let wrong := decide (h = 0) || decide (h = 3)
  let x := u.dev.rawLane n
  let r := receiveBlocks (u.dev.rbit (sdsRawCfg n) 31) x.rxScr [line / 2 ^ (u.at_ + 2) % 2 ^ 64]
  let (slip, d) := (u.dev.setRaw n { x with rxScr := r.1 }).takeHeader n wrong
  { dev := d, at_ := u.at_ + 66 + b2n slip, data := u.data ++ r.2.flatMap (putLE 8), marks := u.marks + h * 4 ^ i, errs := 0,
    codeErr := u.codeErr || wrong }

/-- The units of a full cell, taken from the bits that follow the latest cell's: 40 characters, six blocks, or bytes. -/
def Dev.takeUnits (d : Dev) (n line : Nat) : RawUnits :=
  let u : RawUnits := { dev := d, at_ := 0, data := [], marks := 0, errs := 0, codeErr := false }
  if d.laneMode n = 2 then (List.range 40).foldl (Dev.takeChar n line) u
  else if d.laneMode n = 3 then (List.range 6).foldl (Dev.takeBlock n line) u
  else { u with data := putLE 60 line }

/-- The 64 bytes of a received raw cell (R256, R257). -/
def Dev.rawCell (d : Dev) (n : Nat) (u : RawUnits) (flags : Nat) (t : Time96) : List Byte :=
  let seq := putLE 2 (d.rawLane n).rxSeq.toNat
  let fl := putLE 1 flags
  let head := putLE 4 (nsOf t) ++ seq ++ fl ++ [0]
  if d.dense n then seq ++ fl ++ [0] ++ u.data.take 60
  else if d.laneMode n = 2 then head ++ u.data ++ putLE 5 u.marks ++ putLE 5 u.errs ++ zeros 6
  else if d.laneMode n = 3 then head ++ u.data ++ putLE 2 u.marks ++ zeros 6
  else head ++ u.data.take 56

/-- What the gearbox sends for characters, blocks or bytes, and its state after them (R259, R261). -/
def Dev.sendUnits (d : Dev) (n : Nat) (chars : List (Byte × Bool)) (blocks : List (Nat × Nat)) (bytes : List Byte) : RawState × List Byte :=
  let x := d.rawLane n
  if d.laneMode n = 2 then
    let r := sendChars x.txRd chars
    ({ x with txRd := r.1 }, r.2)
  else if d.laneMode n = 3 then
    let r := sendBlocks (d.rbit (sdsRawCfg n) 31) x.txScr blocks
    ({ x with txScr := r.1 }, r.2)
  else (x, bytes)

/-- The units of a cell as the gearbox sends them: the first UNITS of them, all where that is 0. -/
def Dev.rawUnits (d : Dev) (n : Nat) (bs : List Byte) : RawState × List Byte :=
  let u := getLE 1 bs (if d.dense n then 3 else 7)
  let some_ (all : Nat) : Nat := if u = 0 then all else min u all
  let ks := getLE 5 bs 48
  let hs := getLE 2 bs 56
  d.sendUnits n ((List.range (some_ 40)).map (fun i => (bs.getD (8 + i) 0, ks.testBit i)))
    ((List.range (some_ 6)).map (fun i => (hs / 4 ^ i % 4, getLE 8 bs (8 + 8 * i))))
    (if d.dense n then slice bs 4 (some_ 60) else slice bs 8 (some_ 56))

/-- A fill unit (R259). -/
def Dev.rawFill (d : Dev) (n : Nat) : RawState × List Byte :=
  let block := putLE 4 (d.reg (sdsRawFill n 0)).toNat ++ putLE 4 (d.reg (sdsRawFill n 1)).toNat
  d.sendUnits n [(block.getD 0 0, d.rbit (sdsRawCfg n) 27)] [(d.fld (sdsRawCfg n) 28 2, getLE 8 block 0)] block

/-- What the gearbox sends reaches the line, or the lane's own receiver. -/
def Dev.rawSend (d : Dev) (n : Nat) (x : RawState × List Byte) : Dev := (d.setRaw n x.1).transmit n x.2

/-- Received units as the transmit gearbox sends them again, whole (R264). -/
def Dev.unitsBack (d : Dev) (n : Nat) (u : RawUnits) : RawState × List Byte :=
  d.sendUnits n ((List.range 40).map (fun i => (u.data.getD i 0, u.marks.testBit i)))
    ((List.range 6).map (fun i => (u.marks / 4 ^ i % 4, getLE 8 u.data (8 * i)))) (if d.dense n then u.data else u.data.take 56)

/-- A far loopback on a raw lane: FAR_PMA sends the received bits of a cell's length again as they are, FAR_PCS the units that
the receive gearbox takes from them, through the transmit gearbox (R264). -/
def Dev.rawEcho (d : Dev) (n line : Nat) : Dev :=
  if d.loopback n = 4 then
    let u := d.takeUnits n line
    u.dev.rawSend n (u.dev.unitsBack n u)
  else d.setLine n (putLE 60 line)

/-- RAW_RX_CELL: a full cell of units has been collected. `line` holds the received bits that follow the units of the latest
cell, the first in bit 0, and more than any cell takes of them. FLAGS: bit 0 LOS, where the lane has lost signal or
CDR lock since the latest cell, whose units are free values then; bit 1 CODE_ERR; bit 2 ALIGN, where the alignment has
changed since. A far loopback sends back what comes instead. -/
def Dev.rawReceive (d : Dev) (n : Nat) (line : BitVec 800) (skew : BitVec 34) : Dev :=
  if d.rawOn n && d.rbit (sdsCtrl n) 2 then
    let t := d.stampAt skew (d.reg (sdsRxCorr n))
    let x := d.rawLane n
    let los := x.lost || !d.rbit (sdsStatus n) bitSignal || !d.rbit (sdsStatus n) bitCdr
    let (line, d) := if los then (d.freeVal 800, d.freeNext) else (line, d)
    let u := d.takeUnits n line.toNat
    let y := u.dev.rawLane n
    let bs := u.dev.rawCell n u (b2n los + 2 * b2n u.codeErr + 4 * b2n y.aligned) t
    let d := u.dev.setRaw n { y with rxSeq := y.rxSeq + 1, lost := false, aligned := false }
    let f := d.fld (sdsRawCfg n) 0 12
    if f ≠ 0 ∧ (d.flow f).liveFrom n then
      d.judgeMessage n (cellsOf (BitVec.ofNat 12 f) (BitVec.ofNat 6 (d.flow f).dest.toNat) 0 0 bs)
    else d.count (clsStale n)
  else if d.isRaw n && d.farLoop n then d.rawEcho n line.toNat
  else d

def execRawRxCell (n : Fin 16) (line : BitVec 800) (skew : BitVec 34) (s : State) : Host.Outcome State Fault Refusal :=
  finish s (s.dev.rawReceive n line skew)

/-- RAW_TX_CELL: the gearbox sends the cell at the head of its queue. One whose TIME is still to come waits there, and a
fill unit is sent meanwhile, as where the queue is empty; one that came to the head when its TIME had passed is sent at
once and counted (R259, R260). On a lane marked TEST the generator sends, or the gearbox a fill unit over a near loopback:
the lane's queue stands apart from it (R263, R264). -/
def Dev.rawTransmit (d : Dev) (n : Nat) : Dev :=
  if d.rawOn n then
    let x := d.rawLane n
    match x.txQueue with
    | [] => d.rawSend n (d.rawFill n)
    | c :: q =>
      let bs := fit 64 c.payload
      if d.rawEarly n bs && x.waits then d.rawSend n (d.rawFill n)
      else
        let d := if d.rawTimed n bs && !x.waits then d.count (sdsRawLate n) else d
        let d := d.setRaw n { x with txQueue := q, txSeq := x.txSeq + 1, waits := d.rawHead n q }
        let d := if q = [] then d.count (sdsRawUnderrun n) else d
        d.rawSend n (d.rawUnits n bs)
  else if d.laneTest n && d.rbit (sdsPrbsCtrl n) 31 then d.prbsSend n 0
  else if d.isRaw n && d.nearLoop n && !d.laneReset n then d.rawSend n (d.rawFill n)
  else d

def execRawTxCell (n : Fin 16) (s : State) : Host.Outcome State Fault Refusal := finish s (s.dev.rawTransmit n)

/-! ## What other writes and reads do -/

/-- A plain write of an SDS_ or MAC_ register, by its offset from the lane's or port's base. -/
def Dev.sdsWrite (d : Dev) (id n r : Nat) (v : Word) : Dev :=
  match r with
  | 0x00 => d.sdsCfgWrite id n v
  | 0x04 => d.sdsRateWrite id n v
  | 0x08 => d.sdsCtrlWrite id n v
  | 0x14 => if 63 < bits v 0 6 + bits v 6 6 + bits v 12 6 then d else d.setReg (sdsTxeq n) (v &&& 0x3FFFF)
  | 0x20 => d.prbsCtrlWrite n v
  | _ => d

def Dev.macWrite (d : Dev) (id p r : Nat) (v : Word) : Dev :=
  match r with
  | 0x000 => d.macCfgWrite id p v
  | 0x004 => if bits v 30 2 = 3 ∨ bits v 28 2 = 3 then d else d.setReg (macCtrl p) (v &&& 0xF0000000)
  | 0x010 => if bits v 0 15 < 64 ∨ 16388 < bits v 0 15 then d else d.setReg (macMaxFrame p) (v &&& 0x7FFF)
  | 0x0A0 => d.macClearWrite p v
  | _ => d

/-- The computed registers of a lane. -/
def Dev.sdsView (d : Dev) (n r : Nat) : Option Word :=
  match r with
  | 0x0C => some (setBit (setBit (setBit (d.reg (sdsStatus n)) 31 (d.txOn n)) 25 (d.rateErr n)) 24 (d.laneTest n))
  | 0x50 => some (BitVec.ofNat 32 ((d.rawLane n).txSeq.toNat * 65536 + (d.rawLane n).rxSeq.toNat))
  | _ => none

/-- The computed registers of a port. -/
def Dev.macView (d : Dev) (p r : Nat) : Option Word :=
  let head := (d.txtsOf p).head?
  match r with
  | 0x014 => some (BitVec.ofNat 32 (d.macLevel p))
  | 0x018 => some (BitVec.ofNat 32 (d.txtsOf p).length)
  | 0x020 => some (match head with | some x => BitVec.ofNat 32 (nsOf x.time) | none => 0)
  | 0x024 => some (match head with | some x => BitVec.ofNat 32 (nsOf x.time / 2 ^ 32) | none => 0)
  | 0x028 => some (match head with | some x => BitVec.ofNat 32 (fracOf x.time) | none => 0)
  | 0x02C => some (match head with | some x => setBit x.tag 31 true | none => 0)
  | _ => none

end Sys2Proof.Machine
end

