-- ==== Sys2Proof/Machine/TimeBase.lean ====
section
/-! DEFINITION. The device time base (R276 to R282, R294 to R296, R681): rate, step and set, latched reads, references,
and the PPS pins. -/
namespace Sys2Proof.Machine

/-! ## References and clock losses (R276, R681) -/

/-- One escalation of CLOCK_LOSS with the losses found in the same cycle (R681). -/
def Dev.clockLoss (d : Dev) (m : Nat) : Dev := d.escalate clsClock srcClocks Path.chip [BitVec.ofNat 8 m]

/-- The PLL is locked to TIME_REFCLK, which may be lost. -/
def Dev.onTimeRef (d : Dev) : Bool :=
  decide (d.fld timeStatus 27 2 ≠ 0) && !d.rbit timeStatus 30 && !d.rbit timeStatus 29

/-- The reference goes: holdover (R276). -/
def Dev.holdover (d : Dev) : Dev :=
  ((d.setRbit timeStatus 31 false).setRbit timeStatus 30 true).setRbit timeEvent 3 true

def Dev.timeRefLost (d : Dev) : Dev := d.cond d.onTimeRef (fun d => d.holdover.clockLoss 8)

def execTimeRefLost (s : State) : Host.Outcome State Fault Refusal := finish s s.dev.timeRefLost

/-- The losses of one HCLK cycle: FABRIC_REFCLK, the FCLK PLL, TIME_REFCLK where it was valid, the TCLK PLL (R681). -/
def Dev.clocksLost (d : Dev) (fabricRef fclkPll timeRef tclkPll : Bool) : Dev :=
  let ref := timeRef && d.onTimeRef
  let d := d.cond ref Dev.holdover
  let d := d.cond tclkPll (fun d => d.setRbit timeStatus 31 false)
  let m := b2n fabricRef + 2 * b2n fclkPll + 8 * b2n ref + 16 * b2n tclkPll
  d.cond (decide (m ≠ 0)) (fun d => d.clockLoss m)

def execClockLoss (fabricRef fclkPll timeRef tclkPll : Bool) (s : State) : Host.Outcome State Fault Refusal :=
  finish s (s.dev.clocksLost fabricRef fclkPll timeRef tclkPll)

/-- A reference of 10, 25 or 156.25 MHz (coded 1, 2, 3) is valid again, or for the first time (R276). It also locks a PLL
that lost its lock to a reference that stayed (DEDUCED, log 49). -/
def Dev.timeRefReturn (d : Dev) (freq : BitVec 2) : Dev :=
  if freq ≠ 0 ∧ (d.rbit timeStatus 30 ∨ d.rbit timeStatus 29 ∨ (d.time.running ∧ d.rbit timeStatus 31 = false)) then
    ((d.clearBits timeStatus [30, 29]).setFld timeStatus 27 2 freq.toNat).setRbit timeStatus 31 true
  else d

def execTimeRefReturn (freq : BitVec 2) (s : State) : Host.Outcome State Fault Refusal := finish s (s.dev.timeRefReturn freq)

/-- The time base at a start: the reference found, coded as REF_FREQ, or none (R276). Device time starts from 0. `lost`: what
else is lost in the HCLK cycle in which no reference is found, FABRIC_REFCLK, the FCLK PLL and the TCLK PLL (R681). -/
def Dev.timeStart (d : Dev) (freq : BitVec 2) (lost : BitVec 3) : Dev :=
  let d := { d with time := { d.time with now := 0, running := true } }
  if freq = 0 then
    (d.setRbit timeStatus 29 true).clockLoss (4 + b2n (bit lost 0) + 2 * b2n (bit lost 1) + 16 * b2n (bit lost 2))
  else (d.setFld timeStatus 27 2 freq.toNat).setRbit timeStatus 31 true

/-! ## Rate, step and set (R277 to R279) -/

/-- The increment in TIME_INC_NS and TIME_INC_FRAC. -/
def Dev.incWritten (d : Dev) : BitVec 36 := BitVec.ofNat 36 (d.fld timeIncNs 0 4 * 2 ^ 32 + (d.reg timeIncFrac).toNat)

/-- 2.0 ns ± 200 ppm, in units of 2⁻³² ns: the increment v satisfies |v − 2³³| × 5,000 ≤ 2³³. -/
def incInRange (v : BitVec 36) : Bool :=
  decide (4999 * 2 ^ 33 ≤ v.toNat * 5000) && decide (v.toNat * 5000 ≤ 5001 * 2 ^ 33)

/-- The uptime 64 ns from now. -/
def TimeState.due (t : TimeState) : Time96 := t.uptime + BitVec.ofNat 96 (64 * 2 ^ 32)

/-- How far off, in units of 2⁻³² ns, the first instant lies, not before uptime `r`, at which device time is a multiple of
1,024 ns. A step or set in between changes which instant that is (R278). -/
def TimeState.waitFor (t : TimeState) (r : Time96) : Nat :=
  let q := 1024 * 2 ^ 32
  (t.now.toNat + (r.toNat - t.uptime.toNat) + (q - 1)) / q * q - t.now.toNat

/-- The value in TIME_STEP0–2. -/
def Dev.stepWritten (d : Dev) : Time96 :=
  BitVec.ofNat 96 ((d.reg (timeStep 0)).toNat * 2 ^ 32 + (d.reg (timeStep 1)).toNat * 2 ^ 64 + (d.reg (timeStep 2)).toNat)

/-- A write of TIME_CTRL: a GO whose kind is pending changes nothing; SET_GO wins over STEP_GO (R277, R278). -/
def Dev.timeCtrlWrite (d : Dev) (v : Word) : Dev :=
  let due := d.time.due
  let d := if bit v 0 then
      (if incInRange d.incWritten then
        { d with time := { d.time with pendRate := some (d.time.pendRate.getD (d.incWritten, due)) } }
       else d.setRbit timeEvent 0 true)
    else d
  if bit v 2 then { d with time := { d.time with pendSet := some (d.time.pendSet.getD (d.stepWritten, due)) } }
  else if bit v 1 then { d with time := { d.time with pendStep := some (d.time.pendStep.getD (d.stepWritten, due)) } }
  else d

/-- The hive, and a control port with TIME_WRITE, write TIME_ registers (R283). -/
def timeWriter (d : Dev) (id : Fin 13) (off : Nat) (f : Dev → Dev) : Dev :=
  if d.granted id 3 then f d else d.ctrlDecode id.val true false off

def execTimeRateGo (id : Fin 13) (v : Word) (s : State) : Host.Outcome State Fault Refusal :=
  finishBy id s (timeWriter s.dev id timeCtrl (fun d => d.timeCtrlWrite (setBit v 0 true)))

def execTimeStepGo (id : Fin 13) (v : Word) (s : State) : Host.Outcome State Fault Refusal :=
  finishBy id s (timeWriter s.dev id timeCtrl (fun d => d.timeCtrlWrite (setBit v 1 true)))

def execTimeSetGo (id : Fin 13) (v : Word) (s : State) : Host.Outcome State Fault Refusal :=
  finishBy id s (timeWriter s.dev id timeCtrl (fun d => d.timeCtrlWrite (setBit v 2 true)))

/-- The magnitude of a signed difference of device time. -/
def magnitude (t : Time96) : Nat := t.toInt.natAbs

/-- Device time changes to `t`: counted, logged, and seen by timers and waits (R279, R459). -/
def Dev.changeTime (d : Dev) (t : Time96) : Dev :=
  let diff := t - d.time.now
  let d := { d with time := { d.time with now := t } }
  let d := d.seqUp timeStepCount
  let d := d.logEntry 0x24 srcTime Path.chip (putLE 8 (nsOf diff) ++ putLE 4 (fracOf diff))
  d.schedTimeChange (decide (2 ^ 30 * 2 ^ 32 ≤ magnitude diff))

/-- The waits of what is pending. -/
def TimeState.waits (t : TimeState) : List Nat :=
  (t.pendRate.map (fun x => t.waitFor x.2)).toList ++ (t.pendStep.map (fun x => t.waitFor x.2)).toList ++
  (t.pendSet.map (fun x => t.waitFor x.2)).toList

/-- What is due `w` from now takes effect: a step, a set and a rate written together at one instant (R278). -/
def Dev.timeApplyAt (d : Dev) (w : Nat) : Dev :=
  let t := d.time
  let isDue (x : Time96) : Bool := decide (t.waitFor x ≤ w)
  let d := d.pass w
  let d := match t.pendRate with
    | some (v, at_) => if isDue at_ then { d with time := { d.time with inc := v, pendRate := none } } else d
    | none => d
  let d := match t.pendStep with
    | some (v, at_) => if isDue at_ then ({ d with time := { d.time with pendStep := none } }).changeTime (d.time.now + v) else d
    | none => d
  match t.pendSet with
  | some (v, at_) => if isDue at_ then ({ d with time := { d.time with pendSet := none } }).changeTime v else d
  | none => d

/-- What is pending takes effect, instant by instant, until the GO that `waits` tells of has: at most three instants. -/
def Dev.timeApply (waits : TimeState → Bool) (d : Dev) : Dev :=
  d.forEach (List.range 3) (fun d _ =>
    match d.time.waits with
    | [] => d
    | w :: ws => d.cond (waits d.time) (fun d => d.timeApplyAt (ws.foldl min w)))

def execTimeRateApply (s : State) : Host.Outcome State Fault Refusal :=
  finish s (s.dev.timeApply (fun t => t.pendRate.isSome))

def execTimeStepApply (s : State) : Host.Outcome State Fault Refusal :=
  finish s (s.dev.timeApply (fun t => t.pendStep.isSome))

def execTimeSetApply (s : State) : Host.Outcome State Fault Refusal :=
  finish s (s.dev.timeApply (fun t => t.pendSet.isSome))

/-! ## Latched reads (R280, R282) -/

/-- A read of TIME_NOW0 latches the rest for the reader. -/
def Dev.timeNowRead (d : Dev) (id : Fin 13) : Word × Dev :=
  let ns := nsOf d.time.now
  let d' := (d.setIdReg id (timeNow 1) (BitVec.ofNat 32 (ns / 2 ^ 32))).setIdReg id (timeNow 2) (BitVec.ofNat 32 (fracOf d.time.now))
  (BitVec.ofNat 32 ns, d')

/-- A read of TIME_PPS_IN_TS0 latches the rest of the stamp for the reader. -/
def Dev.ppsTsRead (d : Dev) (id : Fin 13) : Word × Dev :=
  (d.reg (timePpsInTs 0),
   (d.setIdReg id (timePpsInTs 1) (d.reg (timePpsInTs 1))).setIdReg id (timePpsInTs 2) (d.reg (timePpsInTs 2)))

/-- A latching read by an identity that may read. -/
def Dev.latchRead (d : Dev) (id : Fin 13) (off : Nat) (f : Dev → Word × Dev) : Dev :=
  if d.serialReadOk id then (f d).2.setRead id (f d).1 else (d.ctrlDecode id.val false false off).setRead id 0

def execTimeNowRead (id : Fin 13) (s : State) : Host.Outcome State Fault Refusal :=
  finishBy id s (s.dev.latchRead id (timeNow 0) (fun d => d.timeNowRead id))

def execPpsInTsRead (id : Fin 13) (s : State) : Host.Outcome State Fault Refusal :=
  finishBy id s (s.dev.latchRead id (timePpsInTs 0) (fun d => d.ppsTsRead id))

/-! ## PPS (R281, R282) -/

/-- The PPS permit in force (R561). -/
def Dev.ppsPermit (d : Dev) : Bool := d.rbit fenceMisc 0

/-- PPS_OUT may pulse: EN = 1 and the permit is set. -/
def Dev.ppsOn (d : Dev) : Bool := d.rbit timePpsOutCtrl 31 && d.ppsPermit

/-- The level of PPS_OUT: inverted with POLARITY, low while it may not pulse. -/
def Dev.ppsLevel (d : Dev) : Bool := d.ppsOn && (d.time.ppsOut.isSome != d.rbit timePpsOutCtrl 30)

/-- Whole ns, from the ns that device time counts, to the first instant not before now at which device time minus OFFSET is
a whole second; the ns count wraps (R10). -/
def Dev.ppsNext (d : Dev) : Nat :=
  let n : Nat := d.time.now.toNat / 2 ^ 32
  let up := if d.time.now.toNat % 2 ^ 32 = 0 then 0 else 1
  let toGo (k : Nat) : Nat := (((d.reg timePpsOutOffset).toInt - Int.ofNat k) % (1000000000 : Int)).toNat
  let k := up + toGo (n + up)
  if n + k < 2 ^ 64 then k else 2 ^ 64 - n + toGo 0

/-- PPS_OUT_PULSE: device time comes to that instant and the pulse starts. -/
def execPpsOutPulse (s : State) : Host.Outcome State Fault Refusal :=
  finish s (s.dev.cond (s.dev.ppsOn && s.dev.time.ppsOut.isNone && s.dev.time.running) (fun d =>
    let d := d.reachAhead d.ppsNext
    let width := 1000 * d.fld timePpsOutCtrl 0 20 * 2 ^ 32
    { d with time := { d.time with ppsOut := some (d.time.uptime + BitVec.ofNat 96 width) } }))

/-- PPS_OUT_PULSE_END: the pulse has lasted WIDTH µs. -/
def execPpsOutPulseEnd (s : State) : Host.Outcome State Fault Refusal :=
  finish s (match s.dev.time.ppsOut with
    | some t =>
      let d := s.dev.pass (t.toNat - s.dev.time.uptime.toNat)
      { d with time := { d.time with ppsOut := none } }
    | none => s.dev)

/-- PPS_IN_EDGE: the level at PPS_IN changes; `skew` is the error of the stamp, within ±4 ns (R282). -/
def Dev.ppsInEdge (d : Dev) (rising : Bool) (skew : BitVec 35) : Dev :=
  if d.time.ppsIn = rising then d
  else
    let d := { d with time := { d.time with ppsIn := rising } }
    if d.rbit timePpsInCtrl 31 && (d.rbit timePpsInCtrl 30 != rising) then
      let t := d.time.now + skew.signExtend 96
      let d := if d.rbit timeEvent 1 then d.setRbit timeEvent 2 true else d
      let d := ((d.setReg (timePpsInTs 0) (BitVec.ofNat 32 (nsOf t))).setReg (timePpsInTs 1)
        (BitVec.ofNat 32 (nsOf t / 2 ^ 32))).setReg (timePpsInTs 2) (BitVec.ofNat 32 (fracOf t))
      let d := (d.setRbit timeEvent 1 true).count timePpsInCount
      if d.rbit timePpsInCtrl 29 then { d with time := { d.time with ppsIrq := true } } else d
    else d

def execPpsInEdge (rising : Bool) (skew : BitVec 35) (s : State) : Host.Outcome State Fault Refusal :=
  finish s (s.dev.ppsInEdge rising skew)

/-! ## TIME_ registers -/

/-- A plain write of a TIME_ register by an identity that may write (R281, R294 to R296, R562). -/
def Dev.timeWrite (d : Dev) (id : Nat) (off : Nat) (v : Word) : Dev :=
  match off - 0x400000 with
  | 0x04 =>
    let d := d.setReg timeEvent (d.reg timeEvent &&& ~~~v)
    if bit v 1 then { d with time := { d.time with ppsIrq := false } } else d
  | 0x08 => d.timeCtrlWrite v
  | 0x2C =>
    let w := bits v 0 20
    if w = 0 ∨ 999999 < w then d
    else if id = 0 && bit v 31 && !d.rbit timePpsOutCtrl 31 && !d.ppsPermit then
      (d.fenceRefuse 4 0 timePpsOutCtrl).ctrlDecode id true false timePpsOutCtrl
    else d.setReg timePpsOutCtrl (v &&& 0xC00FFFFF)
  | 0x30 => if v.toInt < -100000000 ∨ 100000000 < v.toInt then d else d.setReg timePpsOutOffset v
  | _ => d

/-- The computed registers of the time base. -/
def Dev.timeView (d : Dev) (id : Fin 13) (off : Nat) : Option Word :=
  match off - 0x400000 with
  | 0x00 => some (d.reg timeStatus ||| BitVec.ofNat 32
      (b2n d.time.pendRate.isSome + 2 * b2n d.time.pendStep.isSome + 4 * b2n d.time.pendSet.isSome))
  | 0x0C => some (BitVec.ofNat 32 (nsOf d.time.now))
  | 0x10 => some (d.idReg id (timeNow 1))
  | 0x14 => some (d.idReg id (timeNow 2))
  | 0x3C => some (d.idReg id (timePpsInTs 1))
  | 0x40 => some (d.idReg id (timePpsInTs 2))
  | _ => none

end Sys2Proof.Machine
end

