-- ==== Sys2Proof/Machine/Pins.lean ====
section
/-! DEFINITION. The GPIO controller, the pin multiplexer and the module controllers at work (chapter 13). -/
namespace Sys2Proof.Machine

/-! ## GPIO writes (R585, R590, R591) -/

/-- The bits of a GPIO port that an identity may write or read: all for the hive, its region's own pins for a port. -/
def Dev.gpioOwn (_d : Dev) (id : Fin 13) (q : Nat) : Nat :=
  match portOf id with
  | none => 0xFFFF
  | some n => bitsOf 16 (fun k => decide (pinRegion (16 * q + k) = n))

/-- The identity may reach the registers of a port. -/
def Dev.gpioReach (d : Dev) (id : Fin 13) (q : Nat) : Bool :=
  d.granted id 6 && decide (d.gpioOwn id q ≠ 0)

/-- `old` with the bits in `mask` taken from `v`. -/
def mergeBits (old mask v : Nat) : Word := BitVec.ofNat 32 (bitsOf 32 (fun k => if mask.testBit k then v.testBit k else old.testBit k))

/-- A write that would let a hive-side function drive a pin without its permit: refused (R562). -/
def Dev.pinRefuse (d : Dev) (id : Fin 13) (p off : Nat) : Dev :=
  (d.fenceRefuse 1 p off).ctrlDecode id.val true false off

/-- A write of GPIO_OUT through a mask; bits that the scan engine controls do not change (R596). -/
def Dev.gpioOutTo (d : Dev) (id : Fin 13) (q mask v : Nat) : Dev :=
  let m := Nat.land mask (d.gpioOwn id q)
  d.setReg (gpioOut q) (mergeBits (d.reg (gpioOut q)).toNat (bitsOf 16 (fun k => m.testBit k && !(d.selMask q).testBit k)) v)

/-- A write of GPIO_OE through a mask: one bit that the hive may not set refuses the whole. -/
def Dev.gpioOeTo (d : Dev) (id : Fin 13) (q mask v off : Nat) : Dev :=
  let old := d.reg (gpioOe q)
  let m := bitsOf 16 (fun k => mask.testBit k && (d.gpioOwn id q).testBit k && !(d.selMask q).testBit k)
  match (List.range 16).find? (fun k => m.testBit k && v.testBit k && !bit old k && !d.pinPermit (16 * q + k)) with
  | some k => if id = 0 then d.pinRefuse id (16 * q + k) off else d.setReg (gpioOe q) (mergeBits old.toNat m v)
  | none => d.setReg (gpioOe q) (mergeBits old.toNat m v)

/-- Behind the access check of R591. -/
def gpioAccess (d : Dev) (id : Fin 13) (q off : Nat) (f : Dev → Dev) : Dev :=
  if d.gpioReach id q then f d else d.ctrlDecode id.val true false off

def execGpioOutMasked (id : Fin 13) (q : Fin 15) (v : Word) (s : State) : Host.Outcome State Fault Refusal :=
  finishBy id s (gpioAccess s.dev id q (gpioBase q + 8) (fun d => d.gpioOutTo id q (bits v 16 16) (bits v 0 16)))

def execGpioOeMasked (id : Fin 13) (q : Fin 15) (v : Word) (s : State) : Host.Outcome State Fault Refusal :=
  finishBy id s (gpioAccess s.dev id q (gpioBase q + 0x10) (fun d => d.gpioOeTo id q (bits v 16 16) (bits v 0 16) (gpioBase q + 0x10)))

def execGpioOutWrite (id : Fin 13) (q : Fin 15) (v : Word) (s : State) : Host.Outcome State Fault Refusal :=
  finishBy id s (gpioAccess s.dev id q (gpioOut q) (fun d => d.gpioOutTo id q 0xFFFF (bits v 0 16)))

def execGpioOeWrite (id : Fin 13) (q : Fin 15) (v : Word) (s : State) : Host.Outcome State Fault Refusal :=
  finishBy id s (gpioAccess s.dev id q (gpioOe q) (fun d => d.gpioOeTo id q 0xFFFF (bits v 0 16) (gpioOe q)))

/-! ## Interrupts (R592 to R594) -/

/-- The mode of a pin. -/
def Dev.irqMode (d : Dev) (p : Nat) : Nat := d.fld (gpioMode (p / 16) (p % 16 / 8)) (4 * (p % 8)) 3

/-- A sample sets the pin's status bit: an edge against the sample before, or the level of a level mode. -/
def irqSeen (mode : Nat) (old new fresh : Bool) : Bool :=
  match mode with
  | 1 => !fresh && !old && new
  | 2 => !fresh && old && !new
  | 3 => !fresh && (old != new)
  | 4 => new
  | 5 => !new
  | _ => false

/-- A status bit goes to 1: it is counted, and signals its event object where it is routed to one. -/
def Dev.irqSet (d : Dev) (p : Nat) : Dev :=
  let q := p / 16
  if d.rbit (gpioStatus q) (p % 16) then d
  else
    let d := (d.setRbit (gpioStatus q) (p % 16) true).count (gpioEvents q)
    if d.fld (gpioRoute p) 30 2 = 1 then d.hwSignal (d.fld (gpioRoute p) 0 9) else d

/-- One GPCLK sample of a pin. -/
def Dev.pinSample (d : Dev) (p : Nat) (v : Bool) : Dev :=
  let seen := irqSeen (d.irqMode p) (bit d.pins.level p) v (bit d.pins.fresh p)
  let d := { d with pins := { level := setBit d.pins.level p v, pad := setBit d.pins.pad p v, fresh := setBit d.pins.fresh p false } }
  d.cond seen (fun d => d.irqSet p)

/-- GPIO_IRQ_DETECT: a sample of the 16 pads of a port. -/
def execGpioIrqDetect (q : Fin 15) (pads : BitVec 16) (s : State) : Host.Outcome State Fault Refusal :=
  finish s (if s.dev.power.por then s.dev else
    s.dev.forEach (List.range 16) (fun d k =>
      d.pinSample (16 * q.val + k) (bit pads k && !d.pinUnpowered (16 * q.val + k))))

/-- The region's GPIO_IRQ primitive (R594): bit i follows the status bit of its pin i while that is routed to it. -/
def Dev.gpioIrq (d : Dev) (n : Nat) : Nat :=
  (List.range 240).foldl (fun m p =>
    if pinRegion p = n ∧ d.rbit (gpioStatus (p / 16)) (p % 16) ∧ d.fld (gpioRoute p) 30 2 = 2
    then natBit m (pinIndex p) true else m) 0

/-! ## Pin functions (R586 to R588) -/

/-- A write of PMUX_PIN by the hive: not accepted, refused by the pin's permit, or taken. -/
def Dev.pmuxWrite (d : Dev) (id : Fin 13) (p : Nat) (v : Word) : Dev :=
  let f := bits v 0 2
  if !pmuxOk p v then d
  else if decide (f ≠ d.pinFunc p) && !d.pinPermit p &&
      ((decide (f = fnDedicated) && peripheralDrives p) || (decide (f = fnGpio) && d.rbit (gpioOe (p / 16)) (p % 16))) then
    d.pinRefuse id p (pmuxPin p)
  else d.pmuxApply p v

def execPmuxPinWrite (id : Fin 13) (p : Fin 240) (v : Word) (s : State) : Host.Outcome State Fault Refusal :=
  finishBy id s (hiveWrite s.dev id (pmuxPin p) (fun d => d.pmuxWrite id p v))

def execPmuxAltSpi (id : Fin 13) (v : Word) (s : State) : Host.Outcome State Fault Refusal :=
  finishBy id s (hiveWrite s.dev id pmuxCtrl (fun d => d.setReg pmuxCtrl (v &&& 1)))

/-- The SPI target takes its signals from pins 220 to 223 (R588). -/
def Dev.altSpi (d : Dev) : Bool :=
  d.rbit pmuxCtrl 0 && [220, 221, 222, 223].all (fun p => decide (d.pinFunc p = fnDedicated))

/-- The pad of a pin may be driven by a hive-side function (R584, R585, R617). -/
def Dev.hivePad (d : Dev) (p : Nat) : Bool := !d.pinConfigured p && !d.pinUnpowered p && d.pinPermit p

/-- MISO of the SPI target reaches the host: on the management pins, or on pin 223 where its pad may be driven; never while
the boundary register has the pads (R678). -/
def Dev.misoDriven (d : Dev) : Bool := !d.padsTaken && (!d.altSpi || d.hivePad 223)

/-- What the function of a pin drives: its I/O cell through the freeze latches of its region (R74, R300), the GPIO
controller, or its peripheral: pin 216 shows PPS_OUT (R281). Between commands no module bus is pulled low and CS_N is high,
so the other peripherals drive nothing. -/
def Dev.functionDrive (d : Dev) (p : Nat) : Option Bool :=
  if d.pinFunc p = fnIocell then
    (if d.frozen (pinRegion p) then d.frozenPin (pinRegion p) (pinIndex p) else d.ioOut (pinRegion p) (pinIndex p))
  else if d.pinFunc p = fnGpio then (if d.gpioDrives p then some (d.rbit (gpioOut (p / 16)) (p % 16)) else none)
  else if p = 216 ∧ d.hivePad p = true then some d.ppsLevel
  else none

/-- What the boundary register drives on a pin: nothing under HIGHZ, else what the pin's cells hold (R676, R678). -/
def Dev.boundaryDrive (d : Dev) (p : Nat) : Option Bool :=
  let cell (i : Fin 896) : Bool := d.jtag.boundary.getLsbD i.val
  if d.jtag.ir ≠ irHighz ∧ cell (Config.boundaryEnable p).1 = (Config.boundaryEnable p).2 then
    some (cell (Config.boundaryOut p))
  else none

/-- What a pin drives, or high impedance: its function, or the boundary register while that has the pads (R678); an
open-drain pin drives only low (R579), and no pin of an unpowered bank drives (R617). -/
def Dev.padDrive (d : Dev) (p : Nat) : Option Bool :=
  if d.pinUnpowered p then none
  else if d.padsTaken then d.boundaryDrive p
  else if d.pinConfigured p then none
  else if d.rbit (pmuxPin p) 20 ∧ d.functionDrive p = some true then none
  else d.functionDrive p

/-- A write of GPIO_IRQ_MODE: whole or not at all, in the writer's own pins. -/
def Dev.modeWrite (d : Dev) (own first off : Nat) (v : Word) : Dev :=
  let mine (j : Nat) : Bool := own.testBit (first + j)
  if (List.range 8).any (fun j => mine j && decide (6 ≤ bits v (4 * j) 3)) then d
  else d.setReg off ((List.range 8).foldl (fun w j => if mine j then setBits w (4 * j) 3 (bits v (4 * j) 3) else w) (d.reg off))

/-- A plain write of the other GPIO_ and PMUX_ registers. -/
def Dev.gpioWrite (d : Dev) (id : Fin 13) (off : Nat) (v : Word) : Dev :=
  if off < 0x601000 then
    let q := (off - 0x600000) / 0x40
    gpioAccess d id q off (fun d =>
      let own := d.gpioOwn id q
      match (off - 0x600000) % 0x40 with
      | 0x04 => d.gpioOutTo id q 0xFFFF (bits v 0 16)
      | 0x08 => d.gpioOutTo id q (bits v 16 16) (bits v 0 16)
      | 0x0C => d.gpioOeTo id q 0xFFFF (bits v 0 16) off
      | 0x10 => d.gpioOeTo id q (bits v 16 16) (bits v 0 16) off
      | 0x1C => d.setReg off (d.reg off &&& ~~~(v &&& BitVec.ofNat 32 own))
      | 0x14 => d.modeWrite own 0 off v
      | 0x18 => d.modeWrite own 8 off v
      | _ => d)
  else if off < 0x602000 then hiveWrite d id off (fun d => d.pmuxWrite id ((off - 0x601000) / 4) v)
  else if off < 0x603000 then hiveWrite d id off (fun d => d.setReg pmuxCtrl (v &&& 1))
  else
    let p := (off - 0x603000) / 4
    if id = 0 || (d.granted id 6 && decide (portOf id = some (pinRegion p))) then
      if bits v 30 2 = 3 then d else d.setReg off (v &&& 0xE00001FF)
    else d.ctrlDecode id.val true false off
/-- Who may read a GPIO_ or PMUX_ register (R591, R605). -/
def Dev.gpioReadOk (d : Dev) (id : Fin 13) (off : Nat) : Bool :=
  if off < 0x601000 then d.gpioReach id ((off - 0x600000) / 0x40)
  else if off < 0x603000 then true
  else decide (id = 0) || (d.granted id 6 && decide (portOf id = some (pinRegion ((off - 0x603000) / 4))))

/-- GPIO_ registers as they read: GPIO_IN is sampled, and a region sees its own pins only. -/
def Dev.gpioView (d : Dev) (id : Fin 13) (off : Nat) : Option Word :=
  if off < 0x601000 then
    let q := (off - 0x600000) / 0x40
    let own := d.gpioOwn id q
    let narrow (w : Nat) (f : Nat → Nat) : Option Word := some (BitVec.ofNat 32 (bitsOf 32 (fun b => w.testBit b && own.testBit (f b))))
    match (off - 0x600000) % 0x40 with
    | 0x00 => narrow (bitsOf 16 (fun b => bit d.pins.level (16 * q + b) && !d.pinUnpowered (16 * q + b))) (fun b => b)
    | 0x04 => narrow (d.reg off).toNat (fun b => b)
    | 0x0C => narrow (d.reg off).toNat (fun b => b)
    | 0x14 => narrow (d.reg off).toNat (fun b => b / 4)
    | 0x18 => narrow (d.reg off).toNat (fun b => 8 + b / 4)
    | 0x1C => narrow (d.reg off).toNat (fun b => b)
    | _ => none
  else none

/-! ## Scans (R597 to R599) -/

/-- A write of MOD_CTRL. -/
def Dev.modCtrlWrite (d : Dev) (v : Word) : Dev :=
  let d := d.cond (bit v 31) Dev.scanAll
  let named := bitsOf 16 (fun n => bit v n && d.isLead n)
  { d with mods := { d.mods with queued := d.mods.queued ||| BitVec.ofNat 16 named } }

def execModScanAll (id : Fin 13) (v : Word) (s : State) : Host.Outcome State Fault Refusal :=
  finishBy id s (hiveWrite s.dev id 0x640004 (fun d => d.modCtrlWrite (setBit v 31 true)))

def execModScan (id : Fin 13) (v : Word) (s : State) : Host.Outcome State Fault Refusal :=
  finishBy id s (hiveWrite s.dev id 0x640004 (fun d => d.modCtrlWrite (setBit v 31 false)))

/-- PRESENCE_CHANGE: the presence pin of lead n has held a new level for 50 ms; its sampled level is the new one. -/
def Dev.presenceChange (d : Dev) (n : Nat) (present : Bool) : Dev :=
  if d.isLead n && decide (d.presentNow n = some present) && bit d.mods.presence n != present then
    let d := d.count (modLaneChanges n)
    let d := { d with mods := { d.mods with presence := setBit d.mods.presence n present,
                                            queued := setBit d.mods.queued n true } }
    d.cond (bit d.mods.running n) (fun d => { d with mods := { d.mods with again := setBit d.mods.again n true } })
  else d

def execPresenceChange (n : Fin 16) (present : Bool) (s : State) : Host.Outcome State Fault Refusal :=
  finish s (s.dev.presenceChange n present)

/-- The pins of bus b: SCL and SDA. -/
def busPins (b : Nat) : List Nat := [192 + 2 * b, 193 + 2 * b]

/-- The bus can make transfers (R595). -/
def Dev.busUsable (d : Dev) (b : Nat) : Bool :=
  (busPins b).all (fun p => decide (d.pinFunc p = fnDedicated) && d.pinPermit p)

/-- A lead of bus b is being scanned. -/
def Dev.busScans (d : Dev) (b : Nat) : Bool := (List.range 16).any (fun n => bit d.mods.running n && decide (d.busOf n = b))

/-- A transfer waits or is in progress on bus b. -/
def Dev.xferBusy (d : Dev) (b : Nat) : Bool := d.rbit (modXferCtrl b) 31

/-- The word with which the transfer of bus b began; a write while it waits or runs changes the register alone (R604, R612;
DESIGN CHOICE, log 59). -/
def Dev.xferWord (d : Dev) (b : Nat) : Word := mget (fun _ => 0) d.mods.xfers b

/-- A transfer asserts or releases the select pin that it names. -/
def Dev.xferSelect (d : Dev) (b : Nat) (active : Bool := true) : Dev :=
  let sel := bits (d.xferWord b) 16 5
  d.cond (decide (sel < 16)) (fun d => d.drivesSel sel active)

/-- Every MODULE_SCAN command ends with the scans (R541). -/
def Dev.moduleScanned (d : Dev) : Dev :=
  if d.mods.queued = 0 ∧ d.mods.running = 0 then
    d.endJobs (fun k => decide (k = .moduleScan)) (ansOk ((List.range 16).map (fun n =>
      let st := d.reg (modLaneStatus n)
      BitVec.ofNat 8 (b2n (bit st 30) + 2 * b2n (bit st 29) + 4 * b2n (bit st 28)))))
  else d

/-- A lead's result, as a scan ends: how it ended (0: it found all it read for), whether a module answered with its identifier,
its 48 identity bytes, its record where one was read, and whether it counts as completed. -/
structure ScanEnd where
  why : Nat
  present : Bool
  answered : Bool
  ident : Byte
  names : List Byte
  record : List Byte
  complete : Bool
  deriving DecidableEq, Repr

/-- The standard of an identifier (R599): 1 SFF-8472, 2 SFF-8636, 3 CMIS. -/
def standardOf (ident : Byte) : Nat :=
  match ident.toNat with
  | 0x03 => 1
  | 0x0C => 2
  | 0x0D => 2
  | 0x11 => 2
  | 0x18 => 3
  | 0x19 => 3
  | 0x1E => 3
  | _ => 0

/-- Where the identity fields of a standard start at address 0x50: vendor name, part number, serial (R599). -/
def identityOffsets : Nat → List Nat
  | 1 => [20, 40, 68]
  | 2 => [148, 168, 196]
  | 3 => [129, 148, 166]
  | _ => []

/-- The 48 identity bytes that a scan reads from the 256 bytes a module shows at address 0x50, page 00h; none where its
identifier names no standard. -/
def identityOf (page : List Byte) : List Byte :=
  (identityOffsets (standardOf (BitVec.ofNat 8 (getLE 1 page 0)))).flatMap (fun o => slice page o 16)

/-- CRC-16 of R600: polynomial 0x1021, most significant bit first. -/
def crc16 (bs : List Byte) : Nat :=
  bs.foldl (fun c b =>
    (List.range 8).foldl (fun c _ => if 0x8000 ≤ c then Nat.xor (c * 2 % 0x10000) 0x1021 else c * 2)
      (Nat.xor c (b.toNat * 256))) 0xFFFF

/-- A record is valid (R601). -/
def recordValid (r : List Byte) : Bool :=
  decide (r.length = 64) && decide (getLE 3 r 0 = 0x014D4C) && decide (0x40 ≤ getLE 1 r 3 ∧ getLE 1 r 3 ≤ 0xFE) &&
  decide (getLE 1 r 7 = 0) && decide (getLE 2 r 60 = 0) && decide (getLE 2 r 62 = crc16 (r.take 62))

/-- The class found (R602). -/
def classFound (x : ScanEnd) : Nat :=
  if !x.answered then 0
  else if recordValid x.record then getLE 1 x.record 3
  else if standardOf x.ident = 0 then 1 else 0xF + standardOf x.ident

/-- The result is written for one lane, and its check evaluated: MODULE_MISMATCH where it fails and is new. -/
def Dev.laneResult (d : Dev) (n : Nat) (x : ScanEnd) : Dev :=
  let old := d.reg (modLaneStatus n)
  let st := b2n (x.complete || bit old 31) * 2 ^ 31 + b2n x.present * 2 ^ 30 + b2n (recordValid x.record) * 2 ^ 28 +
    classFound x * 65536 + x.ident.toNat * 256 + standardOf x.ident
  let d := d.setReg (modLaneStatus n) (BitVec.ofNat 32 st)
  let d := d.forEach (List.range 16) (fun d i => d.setReg (modRec n i) (BitVec.ofNat 32 (getLE 4 x.record (4 * i))))
  let d := d.forEach (List.range 12) (fun d i => d.setReg (modId n i) (BitVec.ofNat 32 (getLE 4 x.names (4 * i))))
  let cause := d.checkCause n x.why
  let d := d.setCheck n cause
  if cause ≠ 0 ∧ d.reg (modLaneStatus n) ≠ old then
    d.logEntry 0x37 srcGpio Path.chip
      (putLE 1 n ++ putLE 1 (d.moduleClass n) ++ putLE 1 (classFound x) ++ putLE 1 cause ++ putLE 1 (standardOf x.ident) ++ [x.ident])
  else d

/-- A lead's scan ends: the select pin is released, and the result reaches every lane that it leads, unless a presence
change discards it. -/
def Dev.scanEnd (d : Dev) (l : Nat) (x : ScanEnd) : Dev :=
  let again := bit d.mods.again l
  let d := { d with mods := { d.mods with running := setBit d.mods.running l false, again := setBit d.mods.again l false } }
  let d := d.drivesSel l false
  let d := d.cond (d.xferBusy (d.busOf l)) (fun d => d.xferSelect (d.busOf l))
  let d := if again then d else
    let d := { d with mods := { d.mods with ended := mset (fun _ => none) d.mods.ended l (some x.why) } }
    ((d.forEach (d.ledBy l) (fun d n => d.laneResult n x)).cond x.complete (fun d => d.count (modLaneScans l))).permitsSet
  d.moduleScanned

/-- A scan that found nothing. -/
def ScanEnd.nothing (why : Nat) (present complete : Bool) : ScanEnd :=
  { why, present, answered := false, ident := 0, names := [], record := [], complete }

/-- Step 1 of a scan: the lanes show that the presence pin says present. Before the lead's first result, what the pin says is the
level from which a change is told (DESIGN CHOICE, log 59). -/
def Dev.readPresence (d : Dev) (l : Nat) : Dev :=
  match d.presentNow l with
  | none => d
  | some v =>
    let d := d.cond ((mget (fun _ => none) d.mods.ended l).isNone)
      (fun d => { d with mods := { d.mods with presence := setBit d.mods.presence l v } })
    d.cond v (fun d => d.forEach (d.ledBy l) (fun d n => d.setRbit (modLaneStatus n) 30 true))

/-- MODULE_LEAD_SCAN: a queued lead's scan begins on a free bus. -/
def Dev.leadScan (d : Dev) (l : Nat) : Dev :=
  if bit d.mods.queued l && d.isLead l && !d.busScans (d.busOf l) && !d.xferBusy (d.busOf l) then
    let d := { d with mods := { d.mods with queued := setBit d.mods.queued l false, running := setBit d.mods.running l true } }
    if d.presentNow l = some false then (d.readPresence l).scanEnd l (.nothing causeAbsent false true)
    else (d.readPresence l).drivesSel l true
  else d

def execModuleLeadScan (n : Fin 16) (s : State) : Host.Outcome State Fault Refusal := finish s (s.dev.leadScan n)

/-- MODULE_SCAN_RETRY: the select pin stays asserted and the step is sent again; nothing else changes. -/
def execModuleScanRetry (n : Fin 16) (s : State) : Host.Outcome State Fault Refusal :=
  finish s (s.dev.cond (bit s.dev.mods.running n.val) (fun d => d.drivesSel n true))

/-- Without a presence pin, presence is an acknowledge at 0x50. -/
def Dev.scanPresent (d : Dev) (l : Nat) (answered : Bool) : Bool := (d.presentNow l).getD answered

/-- A scan on a bus that can make no transfer ends as a bus fault (R595). -/
def Dev.scanFault (d : Dev) (l : Nat) : Dev :=
  (d.count (modBusFault (d.busOf l))).scanEnd l (.nothing causeBusFault (d.scanPresent l false) true)

/-- MODULE_SCAN_TIMEOUT: `read` is what the scan has read of address 0x50, none where not even the identifier. -/
def Dev.scanTimeout (d : Dev) (l : Nat) (read : Option (List Byte)) : Dev :=
  if bit d.mods.running l then
    if !d.busUsable (d.busOf l) then d.scanFault l
    else
      let bs := read.getD []
      d.scanEnd l { why := causeTimeout, present := d.scanPresent l read.isSome, answered := read.isSome,
                    ident := BitVec.ofNat 8 (getLE 1 bs 0), names := identityOf bs, record := [], complete := false }
  else d

def execModuleScanTimeout (n : Fin 16) (read : Option (List Byte)) (s : State) : Host.Outcome State Fault Refusal :=
  finish s (s.dev.scanTimeout n read)

/-- MODULE_SCAN_COMPLETE: `page` is what the module shows at address 0x50 and `record` its 64 bytes at 0x57, none where no
acknowledge came. -/
def Dev.scanComplete (d : Dev) (l : Nat) (page : Option (List Byte)) (record : Option (List Byte)) : Dev :=
  if bit d.mods.running l then
    if !d.busUsable (d.busOf l) then d.scanFault l
    else
      match page with
      | none => d.scanEnd l (.nothing causeNoIdentity (d.scanPresent l false) true)
      | some bs =>
        d.scanEnd l { why := 0, present := d.scanPresent l true, answered := true, ident := BitVec.ofNat 8 (getLE 1 bs 0), complete := true,
                      names := identityOf bs,
                      record := match record with
                        | some r => fit 64 r
                        | none => [] }
  else d

def execModuleScanComplete (n : Fin 16) (page record : Option (List Byte)) (s : State) : Host.Outcome State Fault Refusal :=
  finish s (s.dev.scanComplete n page record)

/-! ## Single transfers and bus faults (R595, R604) -/

/-- A write of MOD_XFER_CTRL. -/
def Dev.xferWrite (d : Dev) (b : Nat) (v : Word) : Dev :=
  let sel := bits v 16 5
  if 16 ≤ sel ∧ sel < 31 then d
  else if bit v 30 && d.xferBusy b then d
  else
    let d := d.setReg (modXferCtrl b) ((d.reg (modXferCtrl b) &&& 0xA0000000) ||| (v &&& 0x131FFF7F))
    if bit v 30 then
      let d := { d with mods := { d.mods with xfers := mset (fun _ => 0) d.mods.xfers b v } }
      (d.setRbit (modXferCtrl b) 31 true).cond (!d.busScans b) (fun d => d.xferSelect b)
    else d

def execModXferGo (id : Fin 13) (b : Fin 4) (v : Word) (s : State) : Host.Outcome State Fault Refusal :=
  finishBy id s (hiveWrite s.dev id (modXferCtrl b) (fun d => d.xferWrite b (setBit v 30 true)))

/-- The transfer of bus b ends, acknowledged or not. -/
def Dev.xferEnd (d : Dev) (b : Nat) (ack : Bool) (data : Word) : Dev :=
  let c := d.xferWord b
  let len := 8 * (bits c 24 2 + 1)
  let d := d.cond (ack && bit c 28) (fun d => d.setReg (modXferData b) (BitVec.ofNat 32 (bits data 0 len)))
  let d := d.xferSelect b false
  (d.setRbit (modXferCtrl b) 31 false).setRbit (modXferCtrl b) 29 (!ack)

/-- MOD_XFER_DONE: on a bus that cannot transfer it ends as a bus fault. -/
def execModXferDone (b : Fin 4) (ack : Bool) (data : Word) (s : State) : Host.Outcome State Fault Refusal :=
  let d := s.dev
  finish s (if d.xferBusy b && !d.busScans b then
    (if d.busUsable b then d.xferEnd b ack data else (d.count (modBusFault b)).xferEnd b false data)
  else d)

/-- MOD_BUS_FAULT: the fault is counted, and what the bus was doing ends. -/
def Dev.busFault (d : Dev) (b : Nat) : Dev :=
  let d := d.count (modBusFault b)
  match (List.range 16).find? (fun n => bit d.mods.running n && decide (d.busOf n = b)) with
  | some l => d.scanEnd l (.nothing causeBusFault (d.scanPresent l false) true)
  | none => d.cond (d.xferBusy b) (fun d => d.xferEnd b false 0)

def execModBusFault (b : Fin 4) (s : State) : Host.Outcome State Fault Refusal := finish s (s.dev.busFault b)

/-- A plain write of a MOD_ register by the hive. -/
def Dev.modWrite (d : Dev) (off : Nat) (v : Word) : Dev :=
  if off = 0x640004 then d.modCtrlWrite v
  else if 0x640010 ≤ off ∧ off < 0x640020 then d.setReg off (v &&& 1)
  else if 0x640040 ≤ off ∧ off < 0x640060 then
    (if off % 8 = 0 then d.xferWrite ((off - 0x640040) / 8) v else d.setReg off v)
  else d

/-- MOD_STATUS. -/
def Dev.modView (d : Dev) (off : Nat) : Option Word :=
  if off = 0x640000 then
    some (BitVec.ofNat 32 (b2n (decide (d.mods.queued ≠ 0 ∨ d.mods.running ≠ 0)) * 2 ^ 31 + d.mods.queued.toNat))
  else none

/-! ## Module commands (R541) -/

def cmdModuleScan : Command := checked 0 [] [] (fun d r =>
  if d.ticketsFull then (d, some (ansBusy detTicketsFull))
  else ((d.openJob r .moduleScan).scanAll.moduleScanned, none))

def execModuleScan (s : State) : Host.Outcome State Fault Refusal := finish s (s.dev.imfa 0x0802 cmdModuleScan)

/-- The bytes of a lane's register words. -/
def Dev.wordBytes (d : Dev) (n : Nat) (reg : Nat → Nat) : List Byte :=
  (List.range n).flatMap (fun i => putLE 4 (d.reg (reg i)).toNat)

def cmdModuleInfo : Command := checked 1 [] [(0, 1, 0, 15)] (fun d r =>
  let n := r.u 1 0
  let st := d.reg (modLaneStatus n)
  (d, some (ansOk (putLE 1 (b2n (bit st 30) + 2 * b2n (bit st 29)) ++ putLE 1 (bits st 16 8) ++ putLE 1 (bits st 0 2) ++ [0] ++
    d.wordBytes 12 (modId n) ++ zeros 12 ++ d.wordBytes 16 (modRec n)))))

def execModuleInfo (s : State) : Host.Outcome State Fault Refusal := finish s (s.dev.imfa 0x0803 cmdModuleInfo)

end Sys2Proof.Machine
end

