-- ==== Sys2Proof/Machine/Crypto.lean ====
section
/-! DEFINITION. The standards that the spec names for images and access: SHA-256 (FIPS 180-4), HMAC-SHA-256 (FIPS 198-1),
AES-256-GCM (FIPS 197, SP 800-38D) and ECDSA over P-256 (FIPS 186-5). PRESUMED: the spec names the standards and does
not repeat them (R307 to R311, R552). -/
namespace Sys2Proof.Machine

/-- The big-endian number in a list of bytes. -/
def getBig (bs : List Byte) : Nat := bs.foldl (fun a b => a * 256 + b.toNat) 0

/-- `v` as `n` bytes, most significant first. -/
def putBig (n v : Nat) : List Byte := (putLE n v).reverse

/-! ## SHA-256 -/

/-- `ps` and the primes among the `fuel` numbers from `k` on, where `ps` holds those below `k`. -/
def primesFrom : Nat → Nat → List Nat → List Nat
  | 0, _, ps => ps
  | fuel + 1, k, ps => primesFrom fuel (k + 1) (if ps.all (fun p => decide (k % p ≠ 0)) then ps ++ [k] else ps)

/-- The primes below 312: the standard takes its constants from the first 64. -/
def shaPrimes : List Nat := primesFrom 310 2 []

/-- The largest number whose `e`-th power is at most `x`, its bits below `n` found from the top. -/
def rootBits (e x : Nat) : Nat → Nat → Nat
  | 0, r => r
  | n + 1, r => rootBits e x n (if (r + 2 ^ n) ^ e ≤ x then r + 2 ^ n else r)

/-- The first 32 bits of the fraction of the `e`-th root of a number below 512. -/
def rootFraction (e p : Nat) : Word := BitVec.ofNat 32 (rootBits e (p * 2 ^ (32 * e)) 37 0)

/-- The round constants, from cube roots, and the initial hash value, from square roots. -/
def shaK : List Word := shaPrimes.map (rootFraction 3)
def shaInit : List Word := (shaPrimes.take 8).map (rootFraction 2)

/-- The sum, bit by bit, of a word rotated right by each of some distances. -/
def rotSum (x : Word) (ns : List Nat) : Word := ns.foldl (fun y n => y ^^^ x.rotateRight n) 0

/-- The message schedule: the sixteen latest words, newest first, and `n` more to make. -/
def shaSchedule : Nat → List Word → List Word
  | 0, _ => []
  | n + 1, w =>
    let late := w.getD 1 0
    let early := w.getD 14 0
    let x := w.getD 15 0 + w.getD 6 0 + (rotSum early [7, 18] ^^^ early >>> 3) + (rotSum late [17, 19] ^^^ late >>> 10)
    x :: shaSchedule n (x :: w.take 15)

/-- One round: the eight working variables pass down one place, and the first and the fifth are made anew. Each bit of `e`
chooses between `f` and `g`; `a`, `b` and `c` vote. -/
def shaRound (v : List Word) (kw : Word) : List Word :=
  match v with
  | [a, b, c, d, e, f, g, h] =>
    let mix := h + kw + rotSum e [6, 11, 25] + (g ^^^ (e &&& (f ^^^ g)))
    let vote := (a &&& (b ||| c)) ||| (b &&& c)
    [mix + rotSum a [2, 13, 22] + vote, a, b, c, d + mix, e, f, g]
  | _ => v

/-- The words of a block, most significant byte first. -/
def shaWords : Nat → List Byte → List Word
  | 0, _ => []
  | n + 1, bs => BitVec.ofNat 32 (getBig (bs.take 4)) :: shaWords n (bs.drop 4)

def shaBlock (h : List Word) (block : List Byte) : List Word :=
  let w := shaWords 16 block
  let ws := w ++ shaSchedule 48 w.reverse
  let v := (List.zip shaK ws).foldl (fun v kw => shaRound v (kw.1 + kw.2)) h
  (List.zip h v).map (fun p => p.1 + p.2)

/-- `n` blocks of 64 bytes. -/
def shaBlocks : Nat → List Word → List Byte → List Word
  | 0, h, _ => h
  | n + 1, h, bs => shaBlocks n (shaBlock h (bs.take 64)) (bs.drop 64)

/-- SHA-256 over bytes: 32 bytes. -/
def sha256 (bs : List Byte) : List Byte :=
  let m := bs ++ [0x80] ++ zeros ((119 - bs.length % 64) % 64) ++ putBig 8 (bs.length * 8)
  (shaBlocks (m.length / 64) shaInit m).flatMap (fun w => putBig 4 w.toNat)

/-- HMAC-SHA-256 under a 32-byte key. -/
def hmacSha256 (key msg : List Byte) : List Byte :=
  let k := fit 64 key
  sha256 (k.map (fun b => b ^^^ 0x5c) ++ sha256 (k.map (fun b => b ^^^ 0x36) ++ msg))

/-! ## AES-256 in counter mode with GHASH -/

/-- A product in the field of AES, over the `n` low bits of `b`. -/
def gfMulN : Nat → Nat → Nat → Nat
  | 0, _, _ => 0
  | n + 1, a, b =>
    let a2 := if a < 128 then 2 * a else Nat.xor (2 * a) 0x11B
    Nat.xor (if b % 2 = 1 then a else 0) (gfMulN n a2 (b / 2))

def gfMul (a b : Nat) : Nat := gfMulN 8 a b

/-- The inverse in the field of AES (a to the power 254); 0 for 0. -/
def gfInv (a : Nat) : Nat :=
  let a2 := gfMul a a
  let a4 := gfMul a2 a2
  let a8 := gfMul a4 a4
  let a16 := gfMul a8 a8
  let a32 := gfMul a16 a16
  let a64 := gfMul a32 a32
  let a128 := gfMul a64 a64
  gfMul a128 (gfMul a64 (gfMul a32 (gfMul a16 (gfMul a8 (gfMul a4 a2)))))

def aesSub (b : Nat) : Nat :=
  let i : Byte := BitVec.ofNat 8 (gfInv b)
  (i ^^^ i.rotateLeft 1 ^^^ i.rotateLeft 2 ^^^ i.rotateLeft 3 ^^^ i.rotateLeft 4 ^^^ 0x63).toNat

def xorBytes (a b : List Byte) : List Byte := List.zipWith (fun x y => x ^^^ y) a b

/-- The bytes of the key schedule in words of four, newest first; `n` words still to make, the next being word `i`. -/
def aesExpand : Nat → Nat → Nat → List (List Byte) → List (List Byte)
  | 0, _, _, ws => ws
  | n + 1, i, rcon, ws =>
    let t := ws.getD 0 []
    let sub (w : List Byte) : List Byte := w.map (fun b => BitVec.ofNat 8 (aesSub b.toNat))
    let t' :=
      if i % 8 = 0 then xorBytes (sub (t.drop 1 ++ t.take 1)) [BitVec.ofNat 8 rcon, 0, 0, 0]
      else if i % 8 = 4 then sub t
      else t
    let w := xorBytes (ws.getD 7 []) t'
    aesExpand n (i + 1) (if i % 8 = 0 then gfMul rcon 2 else rcon) (w :: ws)

/-- Bytes in groups of `k`. -/
def chunks (k : Nat) : Nat → List Byte → List (List Byte)
  | 0, _ => []
  | n + 1, bs => bs.take k :: chunks k n (bs.drop k)

/-- The fifteen round keys of a 32-byte key. -/
def aesKeys (key : List Byte) : List (List Byte) :=
  chunks 16 15 ((aesExpand 52 8 1 (chunks 4 8 key).reverse).reverse.flatten)

def aesShift (s : List Byte) : List Byte :=
  (List.range 16).map (fun i => s.getD ((i + 4 * (i % 4)) % 16) 0)

def aesMix (s : List Byte) : List Byte :=
  (List.range 16).map (fun i =>
    let g (j : Nat) : Nat := (s.getD (i / 4 * 4 + (i + j) % 4) 0).toNat
    BitVec.ofNat 8 (Nat.xor (Nat.xor (gfMul 2 (g 0)) (gfMul 3 (g 1))) (Nat.xor (g 2) (g 3))))

/-- AES-256 of one block of 16 bytes. -/
def aesBlock (keys : List (List Byte)) (b : List Byte) : List Byte :=
  let sub (s : List Byte) : List Byte := s.map (fun x => BitVec.ofNat 8 (aesSub x.toNat))
  let s := xorBytes b (keys.getD 0 [])
  let s := ((keys.drop 1).take 13).foldl (fun s k => xorBytes (aesMix (aesShift (sub s))) k) s
  xorBytes (aesShift (sub s)) (keys.getD 14 [])

/-- A product in the field of GHASH: bit 127 of a number is the first bit of the block. -/
def ghashMulN : Nat → Nat → Nat → Nat → Nat
  | 0, z, _, _ => z
  | n + 1, z, v, x =>
    let z := if x.testBit n then Nat.xor z v else z
    let v := if v % 2 = 1 then Nat.xor (v / 2) (0xE1 * 2 ^ 120) else v / 2
    ghashMulN n z v x

def ghashMul (x h : Nat) : Nat := ghashMulN 128 0 h x

/-- Counter mode from counter `c` over `n` blocks. -/
def gcmCtr (keys : List (List Byte)) (nonce : List Byte) : Nat → Nat → List Byte → List Byte
  | 0, _, _ => []
  | n + 1, c, bs =>
    xorBytes (bs.take 16) (aesBlock keys (nonce ++ putBig 4 c)) ++ gcmCtr keys nonce n (c + 1) (bs.drop 16)

/-- GHASH over `n` blocks. -/
def ghash (h : Nat) : Nat → Nat → List Byte → Nat
  | 0, y, _ => y
  | n + 1, y, bs => ghash h n (ghashMul (Nat.xor y (getBig (fit 16 (bs.take 16)))) h) (bs.drop 16)

/-- The plaintext and the tag of a ciphertext, without additional data (R311). -/
def gcmOpen (key nonce ct : List Byte) : List Byte × List Byte :=
  let keys := aesKeys key
  let n := (ct.length + 15) / 16
  let h := getBig (aesBlock keys (zeros 16))
  let y := ghash h n 0 ct
  let y := ghashMul (Nat.xor y (ct.length * 8)) h
  let tag := xorBytes (putBig 16 y) (aesBlock keys (nonce ++ putBig 4 1))
  (gcmCtr keys nonce n 2 ct, tag)

/-! ## ECDSA over P-256 -/

def ecP : Nat := 0xFFFFFFFF00000001000000000000000000000000FFFFFFFFFFFFFFFFFFFFFFFF
def ecN : Nat := 0xFFFFFFFF00000000FFFFFFFFFFFFFFFFBCE6FAADA7179E84F3B9CAC2FC632551
def ecB : Nat := 0x5AC635D8AA3A93E7B3EBBD55769886BC651D06B0CC53B0F63BCE3C3E27D2604B
def ecG : Nat × Nat :=
  (0x6B17D1F2E12C4247F8BCE6E563A440F277037D812DEB33A0F4A13945D898C296,
   0x4FE342E2FE1A7F9B8EE7EB4A7C0F9E162BCE33576B315ECECBB6406837BF51F5)

/-- a to the power e modulo m, over the `n` low bits of e. -/
def powMod (m : Nat) : Nat → Nat → Nat → Nat
  | 0, _, _ => 1
  | n + 1, a, e => (if e % 2 = 1 then a else 1) * powMod m n (a * a % m) (e / 2) % m

/-- The inverse modulo a 256-bit prime. -/
def invMod (m a : Nat) : Nat := powMod m 256 (a % m) (m - 2)

/-- A point of the curve; none is the point at infinity. -/
abbrev EcPoint : Type := Option (Nat × Nat)

def ecAdd (p q : EcPoint) : EcPoint :=
  match p, q with
  | none, q => q
  | p, none => p
  | some (x1, y1), some (x2, y2) =>
    if x1 = x2 ∧ (y1 + y2) % ecP = 0 then none
    else
      let l := if x1 = x2 then (3 * x1 * x1 + ecP - 3) * invMod ecP (2 * y1) % ecP
        else (y2 + ecP - y1) * invMod ecP (x2 + ecP - x1) % ecP
      let x3 := (l * l + 2 * ecP - x1 - x2) % ecP
      some (x3, (l * (x1 + ecP - x3) + ecP - y1) % ecP)

/-- k times a point, over the `n` low bits of k. -/
def ecMul : Nat → Nat → EcPoint → EcPoint
  | 0, _, _ => none
  | n + 1, k, p => ecAdd (if k % 2 = 1 then p else none) (ecMul n (k / 2) (ecAdd p p))

/-- ECDSA P-256 verification with SHA-256 (R307, R309): 64 bytes of key, 64 bytes of signature. -/
def ecdsaVerify (pub sig msg : List Byte) : Bool :=
  let x := getBig (slice pub 0 32)
  let y := getBig (slice pub 32 32)
  let r := getBig (slice sig 0 32)
  let s := getBig (slice sig 32 32)
  let onCurve := decide (x < ecP ∧ y < ecP ∧ y * y % ecP = (x * x * x + (ecP - 3) * x + ecB) % ecP)
  if onCurve && decide (1 ≤ r ∧ r < ecN ∧ 1 ≤ s ∧ s < ecN) then
    let e := getBig (sha256 msg)
    let w := invMod ecN s
    match ecAdd (ecMul 256 (e * w % ecN) (some ecG)) (ecMul 256 (r * w % ecN) (some (x, y))) with
    | some (px, _) => decide (px % ecN = r)
    | none => false
  else false

end Sys2Proof.Machine
end

