-- ==== Sys2Proof/Machine/Store.lean ====
section
/-! DEFINITION. The non-volatile store at work (chapter 07): plane operations, the store commands, gap moves, patrol,
refresh, recovery, the user-data read engine and the NVS_ registers. -/
namespace Sys2Proof.Machine

/-! ## Answers of store jobs -/

/-- The job of a program (R374). -/
def isProgram (p off : Nat) (k : JobKind) : Bool :=
  match k with
  | .program p' o' _ => decide (p' = p ∧ o' = off)
  | _ => false

/-- PROG_NOT_BLANK: the log entry and the answer (R373). -/
def Dev.progRefused (d : Dev) (p off : Nat) : Dev × Answer :=
  (d.logEntry 0x26 srcStore Path.chip (putLE 1 p ++ zeros 3 ++ putLE 4 off), ansErr stProgNotBlank 0 off)

/-- The first of the words of a program that is not blank. -/
def StoreState.firstUsed (s : StoreState) (l : Nat) (ws : List (Nat × BitVec 256)) : Option Nat :=
  (ws.find? (fun w => !(s.word (s.phys l) w.1).isBlank)).map (·.1)

/-- Byte offset in its partition of word w of logical sector l. -/
def partOffset (l w : Nat) : Nat := (l - partBase (partOf l)) * sectorBytes + w * 32

/-! ## Starting plane operations (R378, R379) -/

/-- The plane of an operation as the mapping stands. -/
def Dev.opPlane (d : Dev) : NvOp → Nat
  | .program l _ _ => d.store.phys l % 16
  | .erase (some l) _ _ _ => d.store.phys l % 16
  | .erase none _ _ _ => d.store.physAt d.store.gap % 16

/-- An operation begins on an idle plane, or a program while the erase is suspended. A program whose words are no longer
blank is refused; an erase is journaled first. -/
def Dev.beginOp (d : Dev) (j : Nat) (op : NvOp) : Dev :=
  match op with
  | .program l off ws =>
    match d.store.firstUsed l ws with
    | some w =>
      let (d, a) := d.progRefused (partOf l) (partOffset l w)
      d.endJob (isProgram (partOf l) off) a
    | none =>
      let p := d.nvPlane j
      if p.op.isNone then d.setNvPlane j { p with op := some op } else d.setNvPlane j { p with inner := some op }
  | .erase l _ cause _ =>
    let ph := match l with
      | some l => d.store.phys l
      | none => d.store.physAt d.store.gap
    let d := d.journal jEraseBegin cause [ph, lsecArg l, 0, 0] id
    d.setNvPlane j { d.nvPlane j with op := some (.erase l ph cause 0), command := false, shed := d.nvHold, read := false }

/-- The operations that wait begin while the plane is free for them. A copy of a gap move that runs in the plane comes first
(DESIGN CHOICE, log 59: its words and what waits have no stated order). -/
def Dev.nextOps (d : Dev) (j : Nat) : Nat → Dev
  | 0 => d
  | n + 1 =>
    let p := d.nvPlane j
    if d.copyingAt j then d
    else match p.op with
    | none =>
      match p.queue with
      | [] => d
      | x :: rest => ((d.setNvPlane j { p with queue := rest }).beginOp j x).nextOps j n
    | some (.erase _ _ _ _) =>
      if p.inner.isNone then
        match p.innerQueue with
        | [] => d
        | x :: rest => ((d.setNvPlane j { p with innerQueue := rest }).beginOp j x).nextOps j n
      else d
    | some (.program _ _ _) => d

/-- A new operation: held while its sector moves (R384), or by the state of its plane (R379). -/
def Dev.dispatchOp (d : Dev) (op : NvOp) : Dev :=
  let l := match op with
    | .program l _ _ => some l
    | .erase l _ _ _ => l
  if l.isSome && decide (d.movingSector = l) then d.setStore { d.store with held := d.store.held ++ [op] }
  else
    let j := d.opPlane op
    let p := d.nvPlane j
    match op, d.planeCode j with
    | _, 0 => d.beginOp j op
    | .program _ _ _, 3 => d.beginOp j op
    | .program _ _ _, 4 => d.setNvPlane j { p with innerQueue := p.innerQueue ++ [op] }
    | _, _ => d.setNvPlane j { p with queue := p.queue ++ [op] }

/-! ## Erases that commands cause (R375, R376, R563) -/

def isEraseJob (k : JobKind) : Bool :=
  match k with
  | .erases _ _ _ _ _ => true
  | _ => false

/-- What an erase run answers when all its sectors are blank. -/
def Dev.erasesOk (_d : Dev) (why : EraseFor) (done : Nat) : Answer :=
  match why with
  | .nvs _ _ => ansOk (putLE 2 done ++ zeros 2)
  | .stream _ len => ansOk (putLE 4 len)
  | .lib _ => ansOk

/-- The sector index that ERASE_UNFINISHED names. -/
def eraseIndex (why : EraseFor) (l : Nat) : Nat :=
  match why with
  | .nvs p _ => l - partBase p
  | .stream (.slot t) _ => l - partBase ([1, 2, 0].getD t 0)
  | .stream _ _ => l - partBase 3
  | .lib _ => l - partBase 3

/-- The job ends; a staging whose erase fails ends its session, where a hive reset has not ended it before. -/
def Dev.erasesEnd (d : Dev) (k : JobKind) (a : Answer) : Dev :=
  let mine (x : JobKind) : Bool := decide (x = k)
  let d := match k with
    | .erases (.stream _ _) _ _ _ _ =>
      if a.1 = stOk ∨ (d.jobOf mine).any Job.gone = true then d else d.dropSession.cfgEnd a.1
    | _ => d
  d.endJob mine a

/-- A job goes on as another kind. -/
def Dev.jobTo (d : Dev) (k k' : JobKind) : Dev := d.jobBecome (fun x => decide (x = k)) k'

/-- The erase run of a job takes its next sector: a token of the erase bucket, or it waits, counted once, and its command
answers PENDING. -/
def Dev.erasesStep (d : Dev) (k : JobKind) : Dev :=
  match k with
  | .erases why (l :: rest) false waits done =>
    if d.fld fenceErase 0 7 = 0 then
      if waits then d
      else
        let d := (d.count fenceEraseWaits).jobTo k (.erases why (l :: rest) false true done)
        match d.currentJob with
        | some c => d.cond (decide (c.kind = .erases why (l :: rest) false true done) && !d.ticketsFull) Dev.ticketCurrent
        | none => d
    else if 3 ≤ d.planeCode (d.store.phys l % 16) then d.erasesEnd k (ansErr stEraseSuspended 0)
    else
      let d := d.setFld fenceErase 0 7 (d.fld fenceErase 0 7 - 1)
      let d := d.jobTo k (.erases why (l :: rest) true false done)
      d.dispatchOp (.erase (some l) 0 (match why with | .nvs _ _ => erCommand | _ => erStaging) 0)
  | .erases why [] _ _ done => d.erasesEnd k (d.erasesOk why done)
  | _ => d

/-- Every erase run that has not started its sector tries again, in the order of the jobs. -/
def Dev.erasesRetry (d : Dev) : Dev :=
  d.forEach ((d.hive.jobs.filter (fun j => j.final.isNone && isEraseJob j.kind)).map (·.kind)) Dev.erasesStep

/-- A sector of an erase run has ended, blank or suspect. -/
def Dev.erasesDone (d : Dev) (l : Nat) (okay : Bool) : Dev :=
  match d.jobOf (fun k => match k with
    | .erases _ (x :: _) true _ _ => decide (x = l)
    | _ => false) with
  | none => d
  | some j =>
    match j.kind with
    | .erases why (_ :: rest) _ _ done =>
      if okay then
        let k' : JobKind := .erases why rest false false (done + 1)
        (d.jobTo j.kind k').erasesStep k'
      else d.erasesEnd j.kind (ansErr stEraseUnfinished 0 (eraseIndex why l))
    | _ => d

/-- The store controller takes part: nothing moves while VCC_NV is below 2.20 V, in reset, or before power-good. -/
def Dev.nvAwake (d : Dev) : Bool := !d.nvHalt && !d.power.por && !d.power.resetN

/-- NVS_ERASE_DONE: the erase of plane j and its verification end. A sector that fails is erased again, at most three
times, and then retired or left suspect; `failing` names spares whose erases fail verification to the end. -/
def Dev.eraseDone (d : Dev) (j : Nat) (verified : Bool) (failing : List Nat) : Dev :=
  let p := d.nvPlane j
  match p.op with
  | some (.erase l ph cause tries) =>
    if d.nvAwake && decide (p.code = 2) then
      let d := d.eraseOnce ph
      if !verified && decide (tries < 3) then d.setNvPlane j { p with op := some (.erase l ph cause (tries + 1)) }
      else
        let d := d.setNvPlane j { p with op := none, command := false, shed := false, read := false }
        let (d, okay) := d.eraseEnds l ph cause verified failing
        let d := match l with
          | some l => d.erasesDone l okay
          | none => (d.setStore { d.store with move := .none }).setRbit nvsStatus 29 false
        d.nextOps j ((d.nvPlane j).queue.length + 1)
    else d
  | _ => d

def execNvsEraseDone (plane : Fin 16) (verified : Bool) (failing : List Nat) (s : State) :
    Host.Outcome State Fault Refusal :=
  finish s (s.dev.eraseDone plane.val verified failing)

/-- ERASE_TOKEN: the bucket gains a token, up to 64, and an erase that waits takes it. -/
def execEraseToken (s : State) : Host.Outcome State Fault Refusal :=
  let d := s.dev
  finish s (d.setFld fenceErase 0 7 (min 64 (d.fld fenceErase 0 7 + 1))).erasesRetry

/-! ## Programs -/

/-- NVS_PROGRAM_DONE: the program of plane j completes, and its command answers (R374). -/
def Dev.programDone (d : Dev) (j : Nat) : Dev :=
  let p := d.nvPlane j
  let op := if p.inner.isSome then p.inner else p.op
  match op with
  | some (.program l off ws) =>
    if d.nvAwake then
      let ph := d.store.phys l
      let d := d.programWords ph ws
      let d := d.setNvPlane j (if p.inner.isSome then { p with inner := none } else { p with op := none })
      let len := ((d.jobOf (isProgram (partOf l) off)).map (fun x => match x.kind with
        | .program _ _ n => n
        | _ => 0)).getD 0
      let d := d.endJob (isProgram (partOf l) off) (ansOk (putLE 4 off ++ putLE 4 len))
      d.nextOps j (p.queue.length + p.innerQueue.length + 1)
    else d
  | _ => d

def execNvsProgramDone (plane : Fin 16) (s : State) : Host.Outcome State Fault Refusal :=
  finish s (s.dev.programDone plane.val)

/-- The words of 32 bytes that data makes. -/
def wordsOfData (w : Nat) (data : List Byte) : List (Nat × BitVec 256) :=
  (List.range (data.length / 32)).map (fun i => (w + i, BitVec.ofNat 256 (getLE 32 data (32 * i))))

/-! ## Partition rules (R372) -/

/-- An image partition: firn slot, slot A, slot B, library. -/
def imagePart (p : Nat) : Bool := decide (p < 4)

/-- NVS_READ of a partition in the present state. -/
def Dev.readDenied (d : Dev) (p : Nat) : Option Answer :=
  if imagePart p then (if d.served 2 then none else some ansLife)
  else if p = 4 then none else some ansFence

/-- A command that the fence refuses as the erase of a protected slot (R339, R562). -/
def Dev.protectedSlot (d : Dev) (p : Nat) : Bool :=
  decide (p = 0 ∧ d.inDeployed = true) || decide (d.store.active = some 0 ∧ p = 1) || decide (d.store.active = some 1 ∧ p = 2)

/-- NVS_PROGRAM and NVS_ERASE of a partition in the present state. -/
def Dev.writeDenied (d : Dev) (p : Nat) : Option Answer :=
  if p = 4 then (if d.inRetired then some ansLife else none) else some ansFence

/-- BUSY until recovery is done, and while every store operation has stopped. -/
def Dev.nvBusy (d : Dev) : Option Answer := if d.nvReady && !d.nvHalt then none else some (ansBusy 0)

/-- The first refusal of a list. -/
def firstOf (xs : List (Option Answer)) : Option Answer := xs.findSome? (fun x => x)

/-- An offset and a length within a partition, both multiples of 32. -/
def rangeCheck (p off len maxLen : Nat) : Option Answer :=
  let size := partCount p * sectorBytes
  if off % 32 ≠ 0 ∨ size ≤ off then some (ansBad detRange 4)
  else if len % 32 ≠ 0 ∨ len < 32 ∨ maxLen < len ∨ size < off + len then some (ansBad detRange 8)
  else none

/-- An error where one of the words' sectors has an erase in progress, suspended or unfinished (R380). -/
def Dev.unfinishedIn (d : Dev) (ws : List (Nat × Nat)) : Option Answer :=
  if ws.any (fun w => d.unfinished w.1) then some (ansErr stEraseUnfinished 0) else none

/-- Every plane that the words lie in and that is erasing is suspended for the read. -/
def Dev.suspendFor (d : Dev) (ws : List (Nat × Nat)) : Dev :=
  d.forEach (ws.map (fun w => d.store.phys w.1 % 16)) Dev.readSuspend

/-- Two counts to a byte (R534). -/
def countBytes (cs : List Nat) : List Byte :=
  (List.range ((cs.length + 1) / 2)).map (fun i => BitVec.ofNat 8 (cs.getD (2 * i) 0 + 16 * cs.getD (2 * i + 1) 0))

/-- Runs a command unless one of its refusals holds. -/
def gated (x : Option Answer) (d : Dev) (f : Unit → Dev × Option Answer) : Dev × Option Answer :=
  match x with
  | some a => (d, some a)
  | none => f ()

/-! ## The store commands (R534) -/

/-- NVS_READ. `drift` gives bits that have flipped in words since they were last read. -/
def cmdNvsRead (drift : List (Nat × Nat)) : Command :=
  checked 12 (zb [1, 2, 3]) [(0, 1, 0, 6)] (fun d r =>
    let p := r.u 1 0
    let off := r.u 4 4
    let len := r.u 4 8
    let ws := partWords p off len
    gated (firstOf [rangeCheck p off len 16384,
        (if replyFits r (8 + len + (len + 63) / 64) then none else some (ansBad detTransport)),
        d.readDenied p, d.nvBusy, d.unfinishedIn ws]) d (fun _ =>
      let d := (d.setStore (d.store.upset drift)).suspendFor ws
      let (d, xs, warn) := d.readWords ws
      let (d, bs) := d.wordsBytes xs
      (d, some (if warn then stWarnEcc else stOk,
        putLE 4 off ++ putLE 4 len ++ bs ++ countBytes (xs.map NvWord.count)))))

def execNvsRead (drift : List (Nat × Nat)) (s : State) : Host.Outcome State Fault Refusal :=
  finish s (s.dev.imfa 0x0201 (cmdNvsRead drift))

/-- The first word of some programs that is not blank: logical sector and word. -/
def Dev.usedIn (d : Dev) (ops : List NvOp) : Option (Nat × Nat) :=
  ops.findSome? (fun op => match op with
    | .program l _ ws => (d.store.firstUsed l ws).map (fun w => (l, w))
    | .erase _ _ _ _ => none)

/-- A program whose words are all blank is handed to its plane; the check has read the plane (R373, R378). -/
def Dev.submitOp (d : Dev) (op : NvOp) : Dev :=
  let j := d.opPlane op
  let suspended := decide (3 ≤ d.planeCode j)
  (d.dispatchOp op).cond (!suspended) (fun d => d.readSuspend j)

/-- The refusal of programs that name a word that is not blank (R373). -/
def Dev.usedRefused (d : Dev) (l w : Nat) : Dev × Answer :=
  (d.readSuspend (d.store.phys l % 16)).progRefused (partOf l) (partOffset l w)

/-- The checks of R373 and R380 and the program itself. -/
def cmdNvsProgram : Command := fun d r =>
  let p := r.u 1 0
  let off := r.u 4 4
  let data := r.params.drop 8
  if r.len < 40 ∨ 8 + 16384 < r.len ∨ r.len % 32 ≠ 8 then (d, some (ansBad detLength))
  else gated (firstOf [checkParams r r.len (zb [1, 2, 3]) [(0, 1, 0, 6)], rangeCheck p off data.length 16384,
      (if off / sectorBytes = (off + data.length - 1) / sectorBytes then none else some (ansBad detRange 4)),
      d.writeDenied p, d.nvBusy, d.needTicket, (if d.nvHold then some (ansBusy 0) else none),
      d.unfinishedIn (partWords p off data.length)]) d (fun _ =>
    let l := partBase p + off / sectorBytes
    let ws := wordsOfData (off % sectorBytes / 32) data
    match d.usedIn [.program l off ws] with
    | some (l, w) =>
      let (d, a) := d.usedRefused l w
      (d, some a)
    | none => ((d.openJob r (.program p off data.length)).submitOp (.program l off ws), none))

def execNvsProgram (s : State) : Host.Outcome State Fault Refusal := finish s (s.dev.imfa 0x0202 cmdNvsProgram)

/-- A run of erases opens as the current command, where a ticket is free for it (R521). -/
def Dev.openErases (d : Dev) (r : Req) (why : EraseFor) (todo : List Nat) (ticket : Bool) : Dev × Option Answer :=
  gated d.needTicket d (fun _ =>
    let k : JobKind := .erases why todo false false 0
    let d := d.openJob r k
    (Dev.erasesStep (d.cond ticket Dev.ticketCurrent) k, none))

def cmdNvsErase : Command :=
  checked 8 (zb [1]) [(0, 1, 0, 6), (2, 2, 1, 256)] (fun d r =>
    let p := r.u 1 0
    let n := r.u 2 2
    let first := r.u 4 4
    let range := if partCount p < first + n then some (ansBad detRange 4) else none
    let (d, fenced) := if range.isNone && d.protectedSlot p then (d.fenceRefuse 5 p 0, some ansFence) else (d, none)
    gated (firstOf [range, fenced, d.writeDenied p, d.nvBusy]) d (fun _ =>
      d.openErases r (.nvs p first) ((List.range n).map (fun i => partBase p + first + i)) false))

def execNvsErase (s : State) : Host.Outcome State Fault Refusal := finish s (s.dev.imfa 0x0203 cmdNvsErase)

/-- The plane that NVS_SUSPEND and NVS_RESUME name, and the answer with its state. -/
def suspendArgs (d : Dev) (r : Req) (f : Nat → Dev × Option Answer) : Dev × Option Answer :=
  gated (firstOf [checkParams r 8 (zb [1, 2, 3]) [(0, 1, 0, 6), (4, 4, 0, partCount (r.u 1 0) - 1)], d.nvBusy]) d
    (fun _ => f (d.store.phys (partBase (r.u 1 0) + r.u 4 4) % 16))

def Dev.planeAnswer (d : Dev) (j : Nat) : Dev × Option Answer :=
  (d, some (ansOk (putLE 1 j ++ putLE 1 (d.planeCode j))))

def cmdNvsSuspend : Command := fun d r => suspendArgs d r (fun j =>
  match d.planeCode j with
  | 0 => (d, some (ansBad detState))
  | 1 => (d, some (ansBad detState))
  | 2 => (d.setNvPlane j { d.nvPlane j with command := true }).planeAnswer j
  | _ => d.planeAnswer j)

def execNvsSuspend (s : State) : Host.Outcome State Fault Refusal := finish s (s.dev.imfa 0x0204 cmdNvsSuspend)

def cmdNvsResume : Command := fun d r => suspendArgs d r (fun j =>
  (d.setNvPlane j { d.nvPlane j with command := false }).planeAnswer j)

def execNvsResume (s : State) : Host.Outcome State Fault Refusal := finish s (s.dev.imfa 0x0205 cmdNvsResume)

/-- ERASE_READ_RESUME: no read of the plane has waited for 2 µs (R378). -/
def execEraseReadResume (plane : Fin 16) (s : State) : Host.Outcome State Fault Refusal :=
  finish s (s.dev.setNvPlane plane.val { s.dev.nvPlane plane.val with read := false })

/-- SUSPEND_COMMAND_TIMEOUT: a COMMAND source held for 10 s clears itself (R379). -/
def execSuspendCommandTimeout (plane : Fin 16) (s : State) : Host.Outcome State Fault Refusal :=
  finish s (s.dev.setNvPlane plane.val { s.dev.nvPlane plane.val with command := false })

/-- NVS_DIGEST: SHA-256 over the bytes read back (R371, R372). -/
def cmdNvsDigest (drift : List (Nat × Nat)) : Command :=
  checked 12 (zb [1, 2, 3]) [(0, 1, 0, 6)] (fun d r =>
    let p := r.u 1 0
    let off := r.u 4 4
    let len := r.u 4 8
    let ws := partWords p off len
    gated (firstOf [rangeCheck p off len (partCount p * sectorBytes),
        (if 5 ≤ p then some ansFence else none), (if d.inRetired then some ansLife else none), d.nvBusy,
        d.unfinishedIn ws]) d (fun _ =>
      let d := (d.setStore (d.store.upset drift)).suspendFor ws
      let (d, xs, warn) := d.readWords ws
      let (d, bs) := d.wordsBytes xs
      (d, some (if warn then stWarnEcc else stOk, sha256 bs))))

def execNvsDigest (drift : List (Nat × Nat)) (s : State) : Host.Outcome State Fault Refusal :=
  finish s (s.dev.imfa 0x0206 (cmdNvsDigest drift))

/-- NVS_PATROL starts an extra pass at the first sector (R394). -/
def cmdNvsPatrol : Command := checked 0 [] [] (fun d _ =>
  gated d.nvBusy d (fun _ => (d.setStore { d.store with extraPass := some 0 }, some ansOk)))

def execNvsPatrol (s : State) : Host.Outcome State Fault Refusal := finish s (s.dev.imfa 0x0207 cmdNvsPatrol)

/-! ## The NVS_ registers (R401 to R406) -/

/-- CFG_SLOTs (R359): slot s is 0 A, 1 B, 2 firn. -/
def Dev.slotWord (d : Dev) (s : Nat) : Word :=
  let a := (d.dirOf s).1
  BitVec.ofNat 32 (b2n (bit a 31) * 2 ^ 31 + b2n (decide (d.store.active = some s ∧ s < 2)) * 2 ^ 30 +
    b2n (d.protectedSlot ([1, 2, 0].getD s 0)) * 2 ^ 29 + bits a 0 16)

/-- CFG_LIBe (R359). -/
def Dev.libWord (d : Dev) (e : Nat) : Word :=
  let a := (d.dirOf (16 + e)).1
  BitVec.ofNat 32 (b2n (bit a 31) * 2 ^ 31 + bits a 16 4 * 65536 + bits a 0 16)

/-- NVS_WEAR_MAX: the most erased physical sector, the lowest number among equals. -/
def Dev.wearMax (d : Dev) : Word :=
  let m := d.store.erases.foldl (fun (m : Nat × Nat) x => if m.2 < x.2 then x else m) (0, 0)
  BitVec.ofNat 32 (m.1 * 2 ^ 20 + min m.2 0xFFFFF)

/-- NVS_SECTOR_INFO of a physical sector. The gap is suspect where its erase has failed or was cut short. -/
def Dev.sectorInfo (d : Dev) (ph : Nat) : Word :=
  let s := d.store
  let age := (s.patrolEp.toNat + 65536 - mget (fun _ => 0) s.epochs ph) % 65536
  let (role, pos) := match s.holds ph with
    | some p =>
      match s.logical p with
      | none => (if s.gapDirty && decide (s.move = .none) then 4 else 1, p)
      | some l => (if s.suspect.contains l then 4 else 0, p)
    | none => (if 3041 ≤ ph ∧ ph < 3072 ∧ s.usedSpares.contains ph = false then 2 else 3, 0xFFF)
  BitVec.ofNat 32 (role * 2 ^ 28 + pos * 65536 + age)

def Dev.nvWindow (d : Dev) : Word := BitVec.ofNat 32 (d.store.gap * 65536 + d.store.start)
def Dev.nvSpares (d : Dev) : Word := BitVec.ofNat 32 (d.store.retired.length * 256 + d.store.freeSpares)
def Dev.nvPatrol (d : Dev) : Word := BitVec.ofNat 32 (d.store.patrolPos * 65536 + d.store.patrolEp.toNat)
def Dev.planeWord (d : Dev) (i : Nat) : Word :=
  BitVec.ofNat 32 ((List.range 8).foldl (fun a j => a + d.planeCode (8 * i + j) * 16 ^ j) 0)

/-- The journal has been read: step 2 of the start has run (R391). -/
def Dev.nvLoaded (d : Dev) : Bool := d.store.loaded

/-- A store register that is computed. PATROL_ACTIVE shows an extra pass, whose reads follow one another; a read of the regular
pass begins and ends in one command (DESIGN CHOICE, log 59). -/
def Dev.nvsView (d : Dev) (off : Nat) : Option Word :=
  let o := off - 0x030000
  if off < 0x030000 ∨ 0x032000 ≤ off then none
  else if 0x1000 ≤ o then some (BitVec.ofNat 32 (getLE 4 ((List.range 4).map (fun i => Config.calRow (o - 0x1000 + i))) 0))
  else if d.nvLoaded = false then none
  else match o with
    | 0x00 => some (setBit (d.reg nvsStatus) 27 d.store.extraPass.isSome)
    | 0x50 => some (d.sectorInfo (d.fld nvsSectorSel 0 12))
    | 0x54 => some (BitVec.ofNat 32 (mget (fun _ => 0) d.store.erases (d.fld nvsSectorSel 0 12)))
    | 0x04 => some d.nvWindow
    | 0x08 => some (BitVec.ofNat 32 d.store.tally)
    | 0x0C => some d.nvSpares
    | 0x10 => some (d.planeWord 0)
    | 0x14 => some (d.planeWord 1)
    | 0x20 => some d.nvPatrol
    | 0x24 => some (BitVec.ofNat 32 d.store.refresh.length)
    | 0x48 => some d.wearMax
    | _ => none

/-- A store register as it reads. -/
def Dev.nvsReg (d : Dev) (off : Nat) : Word := (d.nvsView off).getD (d.reg off)

def cmdNvsInfo : Command := checked 0 [] [] (fun d _ =>
  (d, some (ansOk (
    putLE 4 (d.nvsReg 0x030000).toNat ++ putLE 4 (d.nvsReg 0x030004).toNat ++ putLE 4 (d.nvsReg 0x03000C).toNat ++
    putLE 4 (d.nvsReg 0x030048).toNat ++ putLE 4 (d.nvsReg 0x03001C).toNat ++ putLE 4 (d.nvsReg 0x030020).toNat ++
    putLE 4 (d.nvsReg 0x030010).toNat ++ putLE 4 (d.nvsReg 0x030014).toNat ++
    (List.range 3).flatMap (fun s => putLE 4 (d.slotWord s).toNat) ++
    (List.range 16).flatMap (fun e => putLE 4 (d.libWord e).toNat) ++
    (List.range 7).flatMap (fun p => putLE 2 (partBase p) ++ putLE 2 (partCount p))))))

def execNvsInfo (s : State) : Host.Outcome State Fault Refusal := finish s (s.dev.imfa 0x0200 cmdNvsInfo)

/-- NVS_CLEAR.ALL (R401). -/
def Dev.nvsClear (d : Dev) (v : Word) : Dev := d.cond (bit v 0) (fun d => (d.statClear nvsCorrBits).statClear nvsErases)

def execNvsClear (id : Fin 13) (v : Word) (s : State) : Host.Outcome State Fault Refusal :=
  finishBy id s (hiveWrite s.dev id 0x030058 (fun d => d.nvsClear v))

/-! ## Gap moves, patrol and refresh (R383, R384, R394, R395) -/

/-- A move can begin: recovery is done, nothing holds the store's copies, no move runs, the gap is blank, and the source
has no operation in progress. -/
def Dev.moveReady (d : Dev) : Bool :=
  let src := d.store.logical d.store.moveSource
  d.nvAwake && d.nvReady && !d.nvHold && decide (d.store.move = .none) && !d.store.gapDirty &&
  !(List.range 16).any (fun j =>
    let p := d.nvPlane j
    (p.op.toList ++ p.inner.toList).any (fun x => match x with
      | .erase (some l) _ _ _ => decide (some l = src)
      | .erase none _ _ _ => true
      | .program l _ _ => decide (some l = src)))

/-- The queued operations of a logical sector, taken out of every plane's queues. -/
def Dev.pullOps (d : Dev) (l : Option Nat) : Dev :=
  let mine (x : NvOp) : Bool := match x with
    | .erase (some k) _ _ _ => decide (some k = l)
    | .erase none _ _ _ => false
    | .program k _ _ => decide (some k = l)
  d.forEach (List.range 16) (fun d j =>
    let p := d.nvPlane j
    let d := d.setNvPlane j { p with queue := p.queue.filter (fun x => !mine x),
                                     innerQueue := p.innerQueue.filter (fun x => !mine x) }
    d.setStore { d.store with held := d.store.held ++ (p.queue ++ p.innerQueue).filter mine })

/-- Step 1 of a move: MOVE_BEGIN, and operations on the moving sector wait. -/
def Dev.moveBegin (d : Dev) (extra : Bool) : Dev :=
  let d := d.journal jMoveBegin 0 [d.store.start, d.store.gap, 0, 0] (fun s => { s with move := .copying extra })
  (d.setRbit nvsStatus 29 true).pullOps (d.store.logical d.store.moveSource)

/-- GAP_MOVE_START: a move that is due begins. -/
def execGapMoveStart (s : State) : Host.Outcome State Fault Refusal :=
  let d := s.dev
  finish s (if d.moveReady && decide (0 < d.store.movesDue) then
    (d.setStore { d.store with movesDue := d.store.movesDue - 1 }).moveBegin false else d)

/-- REFRESH_MOVE: an extra move while the refresh queue is not empty. -/
def execRefreshMove (s : State) : Host.Outcome State Fault Refusal :=
  let d := s.dev
  finish s (if d.moveReady && decide (d.store.refresh ≠ []) then d.moveBegin true else d)

/-- Step 2 of a move: every word of the source is read, corrected and programmed into the gap; an uncorrectable word
becomes one that always reads so. -/
def Dev.copyGap (d : Dev) (l : Nat) : Dev :=
  let src := d.store.phys l
  let dst := d.store.physAt d.store.gap
  let ws := (List.range sectorWords).map (fun w => (l, w))
  let (d, _, _) := (d.suspendFor ws).readWords ws
  d.forEach (List.range sectorWords) (fun d w =>
    let x := d.store.word src w
    match x.count, x.data with
    | 4, _ => d
    | 0xF, _ => d.setStore (d.store.setWord dst w { x with errs := 4 })
    | _, some v => d.programWord (nvKey dst w) v
    | _, none => d)

/-- Steps 2 to 4: the copy, MOVE_END with the new mapping, and the old source as the new gap, still to be erased. -/
def Dev.moveMap (d : Dev) : Dev :=
  let s := d.store
  let src := s.moveSource
  let l := (s.logical src).getD 0
  let d := d.copyGap l
  let start := if s.gap = 0 then (s.start + 1) % 3040 else s.start
  let d := d.journal jMoveEnd 0 [start, src, 0, 0] (fun s =>
    { s with start := start, gap := src, gapDirty := true, refresh := s.refresh.filter (fun x => decide (x ≠ l)) })
  d.count nvsMoves

/-- GAP_MOVE_COPY_DONE: the copy has had the plane of the gap, which nothing else programs or erases meanwhile (R378). The
mapping changes, the operations that waited for the plane or for the sector go on, and the erase of the old source begins. -/
def Dev.moveCopied (d : Dev) (drift : List (Nat × Nat)) : Dev :=
  match d.store.move with
  | .copying extra =>
    let j := d.store.physAt d.store.gap % 16
    let p := d.nvPlane j
    if d.nvAwake && !d.nvHold && d.nvReady && (decide (p.code = 0) || decide (p.code = 3)) then
      let d := (d.setStore (d.store.upset drift)).moveMap
      let held := d.store.held
      let d := d.setStore { d.store with move := .erasing extra, held := [] }
      let d := d.nextOps j (p.queue.length + p.innerQueue.length + 1)
      let d := d.dispatchOp (.erase none 0 (if extra then erRefresh else erGap) 0)
      d.forEach held Dev.dispatchOp
    else d
  | _ => d

def execGapMoveCopyDone (drift : List (Nat × Nat)) (s : State) : Host.Outcome State Fault Refusal :=
  finish s (s.dev.moveCopied drift)

/-- One physical sector read by the patrol: it is queued for refresh when it is worn or has aged. -/
def Dev.patrolRead (d : Dev) (ph : Nat) : Dev :=
  match (d.store.holds ph).bind d.store.logical with
  | none =>
    let cs := (List.range sectorWords).map (fun w => (w, (d.store.word ph w).count))
    let n := ((cs.map (·.2)).filter (fun c => decide (c ≤ 3))).sum
    let d := if n = 0 then d else d.statUp nvsCorrBits n
    d.forEach (cs.filter (fun c => decide (c.2 = 0xF))) (fun d c => d.noteUncorr none ph c.1)
  | some l =>
    if d.unfinished l then d
    else
      let ws := (List.range sectorWords).map (fun w => (l, w))
      let (d, xs, _) := d.readWords ws
      let full := xs.any (fun x => !x.isBlank)
      let worn := xs.any (fun x => d.warns l x)
      let age := (d.store.patrolEp.toNat + 65536 - mget (fun _ => 0) d.store.epochs ph) % 65536
      d.cond (full && (worn || decide (61 ≤ age))) (fun d => d.queueRefresh l)

/-- PATROL_SECTOR: the next sector of the regular pass, or of an extra one. A PATROL entry follows every 64 sectors of the
regular pass; its end advances the epoch. -/
def Dev.patrol (d : Dev) (extra : Bool) (drift : List (Nat × Nat)) : Dev :=
  if d.nvAwake && d.nvReady then
    let d := d.setStore (d.store.upset drift)
    if extra then
      match d.store.extraPass with
      | none => d
      | some ph =>
        let d := d.patrolRead ph
        d.setStore { d.store with extraPass := if ph + 1 = 3072 then none else some (ph + 1) }
    else
      let ph := d.store.patrolPos
      let d := d.patrolRead ph
      let last := decide (ph + 1 = 3072)
      let next := if last then 0 else ph + 1
      let ep := if last then d.store.patrolEp + 1 else d.store.patrolEp
      let d := d.setStore { d.store with patrolPos := next, patrolEp := ep }
      d.cond (decide (next % 64 = 0)) (fun d =>
        d.journal jPatrol 0 [next, ep.toNat, 0, 0] (fun s => { s with patrolNext := next, patrolEpoch := ep }))
  else d

def execPatrolSector (extra : Bool) (drift : List (Nat × Nat)) (s : State) : Host.Outcome State Fault Refusal :=
  finish s (s.dev.patrol extra drift)

/-! ## Recovery (R392, R393) -/

/-- NVS_RECOVERED: the action (1 the erase of a sector, 2 the erase of the gap, 3 the copy of a move, 4 the switch of
journal rows) and the sector. -/
def Dev.recovered (d : Dev) (action sector : Nat) : Dev :=
  d.logEntry 0x28 srcStore Path.chip (putLE 1 action ++ zeros 1 ++ putLE 2 sector)

/-- The gap is erased, whole. -/
def Dev.recoverGap (d : Dev) (failing : List Nat) : Dev :=
  let ph := d.store.physAt d.store.gap
  (d.erasePass none ph erRecovery failing).recovered 2 ph

/-- A move cut short in its copy is repeated; a gap that is not blank is erased. -/
def Dev.recoverMove (d : Dev) (failing : List Nat) : Dev :=
  match d.store.move with
  | .copying _ =>
    let d := d.recoverGap failing
    let d := d.moveMap
    let d := d.recovered 3 d.store.gap
    let d := d.recoverGap failing
    d.setStore { d.store with move := .none }
  | .erasing _ =>
    let d := d.recoverGap failing
    d.setStore { d.store with move := .none }
  | .none => if d.store.gapDirty then d.recoverGap failing else d

/-- NVS_RECOVERY: every unfinished operation that the journal shows is recovered; READY follows where no lifecycle wipe
waits (R550). `failing` names physical sectors whose erases fail verification to the end. -/
def Dev.recovery (d : Dev) (failing : List Nat) : Dev :=
  if d.rbit nvsStatus 30 && d.nvAwake && !d.nvHold then
    let d := d.cond d.store.switching (fun d => d.switchRows.recovered 4 d.store.curRow)
    let d := d.recoverMove failing
    let d := d.forEach d.store.suspect (fun d l =>
      (d.eraseWhole l erRecovery failing).recovered 1 l)
    let d := (d.setRbit nvsStatus 30 false).setRbit nvsStatus 29 false
    d.setRbit nvsStatus 31 (!d.keys.wipePending)
  else d

def execNvsRecovery (failing : List Nat) (s : State) : Host.Outcome State Fault Refusal := finish s (s.dev.recovery failing)

/-! ## The user-data read engine (R50, R141 to R144) -/

def userBase : Nat := 0x0200000000

/-- The REASON of a request that the engine cannot execute, 0 where it can. -/
def userReason (bs : List Byte) : Nat :=
  let t := getLE 1 bs 0
  let len := getLE 2 bs 2
  let a := getLE 5 bs 8
  if t = 4 then (if len ≠ 0 then 1 else 0)
  else if len = 0 ∨ 4096 < len ∨ (t = 1 ∧ bs.length ≠ 16 + len) then 1
  else if 4096 < a % 4096 + len then 2
  else if a < userBase ∨ userBase + partCount 4 * sectorBytes < a + len then 3
  else if t = 1 then 6
  else 0

/-- USER_DATA_READ: the engine serves the oldest memory message of a flow; one
delivered with ERR = 1 is left for EP48_MESSAGE to discard (R529). A read waits while the store is not ready, has
stopped, or erases the sector. -/
def Dev.userRead (d : Dev) (f : BitVec 12) (drift : List (Nat × Nat)) : Dev :=
  match takeMessage f (d.rxCells 48) with
  | none => d
  | some (m, rest) =>
    let bs := messageBytes m
    let t := getLE 1 bs 0
    if t < 1 ∨ 4 < t ∨ m.any (fun c => c.err) then d
    else
      let off := getLE 5 bs 8 - userBase
      let len := getLE 2 bs 2
      let ws := partWords 4 off len
      let reason := userReason bs
      if t = 2 ∧ reason = 0 ∧ (d.nvReady = false ∨ d.nvHalt = true ∨ ws.any (fun w => d.unfinished w.1) = true) then d
      else
        let d := d.setRx 48 rest
        if t = 3 then d
        else if reason ≠ 0 then d.answerFail 48 0 0 bs reason stBadParam
        else if t = 4 then d.answer 48 0 0 bs 2 0 stOk []
        else
          let d := (d.setStore (d.store.upset drift)).suspendFor ws
          let (d, xs, _) := d.readWords ws
          if xs.any (fun x => decide (x.count = 0xF)) then d.answerFail 48 0 0 bs 7 stBadParam
          else d.answer 48 0 0 bs 0 0 stOk (((xs.flatMap NvWord.bytes).drop (off % 32)).take len)

def execUserDataRead (f : BitVec 12) (drift : List (Nat × Nat)) (s : State) : Host.Outcome State Fault Refusal :=
  finish s (s.dev.userRead f drift)

end Sys2Proof.Machine
end

