-- ==== Sys2Proof/Machine/Loader.lean ====
section
/-! DEFINITION. The loader (chapter 06): the checks of an image, frames, direct and staged loads, reloads from the library,
scrubbing and readback. -/
namespace Sys2Proof.Machine

/-! ## Frames (R303) -/

def frameRegion (a : Nat) : Nat := a / 0x100000
def frameColumn (a : Nat) : Nat := a / 0x100 % 0x1000
def frameMinor (a : Nat) : Nat := a % 0x100

def isBramFrame (a : Nat) : Bool := decide (frameRegion a < 12 ∧ 0x800 ≤ frameColumn a ∧ frameColumn a < 0x8F0 ∧ frameMinor a < 0x12)
def isLogicFrame (a : Nat) : Bool := decide (frameRegion a < 12 ∧ frameColumn a < 0x320 ∧ frameMinor a < 8)
def isChipFrame (a : Nat) : Bool := decide (frameRegion a = 15 ∧ frameColumn a < 0x100 ∧ frameMinor a = 0)

/-- The address is in the table of R303. -/
def frameInScope (a : Nat) : Bool := isLogicFrame a || isBramFrame a || isChipFrame a

def blankFrame : Nat → List Byte := fun _ => zeros 256

/-- A logic or chip-global frame as the loader wrote it. -/
def Dev.frame (d : Dev) (a : Nat) : List Byte := mget blankFrame d.cfg.frames a

/-- The bits of a frame that have flipped since it was written. -/
def Dev.frameUpsets (d : Dev) (a : Nat) : List Nat := mget (fun _ => []) d.cfg.upsets a

def Dev.setFrameUpsets (d : Dev) (a : Nat) (bs : List Nat) : Dev :=
  { d with cfg := { d.cfg with upsets := mset (fun _ => []) d.cfg.upsets a bs } }

/-- Memory bits 2,048m to 2,048m + 2,047 of a block memory (R303). -/
def Dev.writeMemFrame (d : Dev) (n mem m : Nat) (bs : List Byte) : Dev :=
  let v : BitVec 2048 := BitVec.ofNat 2048 (getLE 256 bs 0)
  d.forEach (List.range' (2048 * m / 72) ((2048 * m + 2047) / 72 + 1 - 2048 * m / 72)) (fun d r =>
    let lo := max (2048 * m) (72 * r)
    let hi := min (2048 * m + 2048) (72 * r + 72)
    (d.setBramRow n mem r (setBits (d.bramRow n mem r) (lo - 72 * r) (hi - lo) (bits v (lo - 2048 * m) (hi - lo)))).setBramErr
      n mem r 0)

/-- Writes a frame. -/
def Dev.writeFrame (d : Dev) (a : Nat) (bs : List Byte) : Dev :=
  if isBramFrame a then d.writeMemFrame (frameRegion a) (frameColumn a - 0x800) (frameMinor a) bs
  else { d with cfg := { d.cfg with frames := mset blankFrame d.cfg.frames a bs, upsets := mdel d.cfg.upsets a } }

/-- Every frame of a region, as a load has written it: what the group does not carry is zero (R305). -/
def Dev.regionWritten (d : Dev) (n : Nat) (written : List (Nat × List Byte)) : Dev :=
  let d := { d with
    cfg := { d.cfg with frames := mdrop (fun k => decide (frameRegion k = n)) d.cfg.frames,
                        upsets := mdrop (fun k => decide (frameRegion k = n)) d.cfg.upsets } }
  (d.zeroBram n).forEach (written.filter (fun w => decide (frameRegion w.1 = n))) (fun d w => d.writeFrame w.1 w.2)

/-! ## Checks of the header (R341, orders 1 to 4) -/

/-- What a load is for, as check 3 sees it. -/
inductive LoadFor where
  | any
  | full
  | region
  deriving DecidableEq, Repr

def allZero (bs : List Byte) : Bool := bs.all (fun b => decide (b = 0))

/-- Fields of the fixed part (R298, R306). -/
def fixedOk (h : List Byte) (t : LoadFor) (len : Option Nat) : Bool :=
  let region := decide (imgClass h = 2)
  (decide (imgClass h = 1) || region) &&
  (match t with | .any => true | .full => !region | .region => region) &&
  decide (getLE 1 h 7 < 4) && decide (imgMask h < 4096) && decide (imgFlows h ≤ 4095) &&
  decide (imgHeaderLen h = (0x800 + 32 * imgFlows h + 63) / 64 * 64) &&
  (if region then decide ((bitList 12 (imgMask h)).length = 1 ∧ imgFlows h = 0 ∧ imgFrames h ≤ 10720)
   else decide (imgFrames h ≤ 128896)) &&
  decide (getLE 1 h 0x27 = 0) && allZero (slice h 0x28 0x18) &&
  (match len with | none => true | some n => decide (n = imgLen h))

/-- The chip record of a full image (R299). -/
def chipRecOk (h : List Byte) : Bool :=
  decide (getLE 4 h 0x40 ≤ 256) && (imgEnc h || allZero (slice h 0x68 16)) && decide (getLE 1 h 0x9A < 2) &&
  allZero (slice h 0x9B 5) && allZero (slice h 0xB0 0x150) &&
  (List.range 16).all (fun n => classListed (getLE 1 h (0xA0 + n)))

/-- The dispatch ports of a region record. -/
def recPorts (r : List Byte) : List Nat :=
  ((List.range 8).map (fun i => getLE 1 r (0x40 + i))).filterMap (fun b => if 128 ≤ b then some (b % 32) else none)

/-- A region record of R300. -/
def regionRecOk (h r : List Byte) : Bool :=
  decide (getLE 4 r 0 ≤ 10720) && (imgEnc h || allZero (slice r 0x28 16)) &&
  decide (Nat.land (getLE 1 r 0x38) 0x8C = 0) && decide (Nat.land (getLE 1 r 0x39) 0x88 = 0) && decide (getLE 1 r 0x3A < 4) &&
  decide (getLE 1 r 0x3B ≤ 0x10) && decide (getLE 1 r 0x3C ≤ 0x10) && allZero (slice r 0x3D 3) &&
  (List.range 8).all (fun i => decide (Nat.land (getLE 1 r (0x40 + i)) 0x60 = 0)) &&
  decide (getLE 4 r 0x48 < 512) && allZero (slice r 0x6F 17)

/-- The groups stand in the body one behind the other, in their order, and fill it (R304). -/
def groupsOk (h : List Byte) : Bool :=
  let (at_, good) := (imgGroups h).foldl
    (fun (x : Nat × Bool) k => (x.1 + 260 * grpFrames h k, x.2 && decide (grpOffset h k = x.1))) (0, true)
  good && decide (at_ = 260 * imgFrames h)

/-- A dispatch port that another region holds. -/
def Dev.portsFree (d : Dev) (h : List Byte) : Bool :=
  let ks := bitList 12 (imgMask h)
  ks.all (fun k => (recPorts (imgRec h k)).all (fun p =>
    (if imgClass h = 2 then (match d.portRegion p with | some m => decide (m = k) | none => true) else true) &&
    ks.all (fun m => decide (m = k) || !(recPorts (imgRec h m)).contains p)))

/-- The chip record, the region records and the end of the header. -/
def Dev.recordsOk (d : Dev) (h : List Byte) : Bool :=
  (if imgClass h = 2 then allZero (slice h 0x40 0x1C0) else chipRecOk h) &&
  (List.range 12).all (fun k => if (imgMask h).testBit k then regionRecOk h (imgRec h k) else allZero (imgRec h k)) &&
  decide (((List.range 12).filter (fun k => (getLE 1 (imgRec h k) 0x38).testBit 5)).length ≤ 2) &&
  groupsOk h && d.portsFree h && allZero ((h.take (imgHeaderLen h)).drop (0x800 + 32 * imgFlows h))

/-- R310 and R311: the lifecycle and the keys let an image of these FLAGS be loaded. -/
def Dev.flagsAllowed (d : Dev) (h : List Byte) : Bool :=
  (!imgUnsigned h || d.inManufacture || (d.inOpen && decide (d.keys.userKeyHash = noKey))) &&
  (!imgEnc h || decide (d.keys.userKey ≠ noKey))

/-- Checks 1 to 4 on as many bytes as have arrived: the status of the first that fails. -/
def Dev.headerCheck (d : Dev) (bs : List Byte) (t : LoadFor) (len : Option Nat) : Option Nat :=
  let n := bs.length
  if 6 ≤ n ∧ getLE 6 bs 0 ≠ 0x00014C52494A then some stBadParam
  else if 12 ≤ n ∧ getLE 4 bs 8 ≠ Config.idcode.toNat then some stCfgWrongDevice
  else if 64 ≤ n ∧ fixedOk bs t len = false then some stBadParam
  else if 64 ≤ n ∧ imgHeaderLen bs ≤ n then
    (if !d.recordsOk bs then some stBadParam else if !d.flagsAllowed bs then some stCfgAuth else none)
  else none

/-! ## The body and the trailer (R308, R309, R341, orders 5 to 8) -/

/-- The plaintext of a group, and whether its tag verifies (R308, R311). -/
def Dev.groupPlain (d : Dev) (h bs : List Byte) (k : Nat) : List Byte × Bool :=
  let ct := slice bs (imgHeaderLen h + grpOffset h k) (260 * grpFrames h k)
  if imgEnc h then
    let (pt, tag) := gcmOpen d.keys.userKey (slice h 0x1C 11 ++ [BitVec.ofNat 8 k]) ct
    (pt, decide (tag = grpTag h k))
  else (ct, true)

/-- A group checks. -/
def Dev.groupChecks (d : Dev) (h bs : List Byte) (k : Nat) : Bool :=
  let (pt, good) := d.groupPlain h bs k
  good && decide (sha256 pt = grpDigest h k)

/-- The group of a frame record of the body, and the record's place in it. -/
def recordAt (h : List Byte) (r : Nat) : Option (Nat × Nat) :=
  ((imgGroups h).foldl (fun (x : Nat × Option (Nat × Nat)) k =>
    (x.1 + grpFrames h k, if x.2.isNone ∧ x.1 ≤ r ∧ r < x.1 + grpFrames h k then some (k, r - x.1) else x.2)) (0, none)).2

/-- The groups that are complete once `r` records are in, and were not with fewer. -/
def groupsEndingAt (h : List Byte) (r : Nat) : List Nat :=
  ((imgGroups h).foldl (fun (x : Nat × List Nat) k =>
    let e := x.1 + grpFrames h k
    (e, if e = r then x.2 ++ [k] else x.2)) (0, [])).2

/-- Order 6: the taps of a frame, added one by one to those of the load's other frames, break R63. -/
def contends (taken new : List (Nat × Fin 16 × Bool)) : Bool :=
  (new.foldl (fun (x : List (Nat × Fin 16 × Bool) × Bool) t =>
    let bad := x.1.any (fun u => decide (u.1 = t.1) && (!t.2.2 || !u.2.2))
    (t :: x.1, x.2 || bad)) (taken, false)).2

/-- The image is authentic (R309, R310). -/
def Dev.authentic (d : Dev) (h bs : List Byte) : Bool :=
  let head := h.take (imgHeaderLen h)
  let t := slice bs (imgLen h - 160) 160
  decide (slice t 64 32 = sha256 head) &&
  (if imgUnsigned h then allZero (slice t 0 64) && allZero (slice t 96 64)
   else decide (sha256 (slice t 0 64) = d.keys.userKeyHash) && ecdsaVerify (slice t 0 64) (slice t 96 64) head)

/-- What a part of a load ends with: going on, or refused with a status and a CFG_FAIL_ADDR. What is written by then
stays in place (R343). -/
abbrev LoadStep : Type := Except (Dev × Nat × Word) (Dev × Load)

/-- No code word of bytes `a` to `b` read uncorrectable. -/
def goodIn (bad : List Nat) (a b : Nat) : Bool := !bad.any (fun e => decide (a < e ∧ e < b + 32))

/-- One group checks (order 7): its code words decoded, and in a REGION_LOAD every code word of the entry (R340); its digest
and tag agree; a region's other frames are zero. USER_KEY becomes the working key that decrypts it (R311, R547). -/
def groupStep (h bs : List Byte) (x : LoadStep) (k : Nat) : LoadStep :=
  match x with
  | .error e => .error e
  | .ok (d, l) =>
    let at_ := imgHeaderLen h + grpOffset h k
    let d := d.cond (imgEnc h) (fun d => { d with lcy := { d.lcy with working := some d.keys.userKey } })
    if (if l.entry then decide (l.bad = []) else goodIn l.bad at_ (at_ + 260 * grpFrames h k)) && d.groupChecks h bs k then
      .ok (if k = 15 then d else d.regionWritten k l.written, l)
    else .error (d, stCfgAuth, noFrame k)

/-- The groups that have just ended. -/
def Dev.loadGroups (d : Dev) (h bs : List Byte) (l : Load) : LoadStep :=
  (groupsEndingAt h l.recs).foldl (groupStep h bs) (.ok (d, l))

/-- A tap that frames of a region (15: the chip) may configure: the region's own lines, or a chip-wide line's 12 positions
(R62, R64). -/
def tapInScope (k : Nat) (t : Nat × Fin 16 × Bool) : Bool :=
  if k = 15 then decide (65536 ≤ t.1) && decide (t.1 < 65664) && decide (t.2.1.val < 12) else decide (t.1 / 4096 = k)

/-- One frame record: checks 5 and 6, with the taps that R64 leaves to another kind of frame (R65), then the write; chip-global frames stay in the loader's buffer (R313). -/
def Dev.loadRecord (d : Dev) (h bs : List Byte) (l : Load) : LoadStep :=
  match recordAt h l.recs with
  | none => .ok (d, l)
  | some (k, i) =>
    let rec_ := slice (d.groupPlain h bs k).1 (260 * i) 260
    let a := getLE 3 rec_ 0
    let f := slice rec_ 4 256
    if !frameInScope a || decide (frameRegion a ≠ k) || !(Config.frameTaps a f).all (tapInScope k) then
      .error (d, stCfgScope, badFrame a)
    else if contends ((l.written.filter (fun w => decide (w.1 ≠ a))).flatMap (fun w => Config.frameTaps w.1 w.2)) (Config.frameTaps a f)
    then .error (d, stCfgContention, badFrame a)
    else
      let d := if k = 15 then d else d.writeFrame a f
      d.loadGroups h bs { l with recs := l.recs + 1, written := mput a f l.written }

/-- Every frame record whose bytes are all in; `n` bounds them. -/
def Dev.loadBody (h bs : List Byte) : Nat → Dev × Load → LoadStep
  | 0, x => .ok x
  | n + 1, (d, l) =>
    if l.recs < imgFrames h ∧ imgHeaderLen h + 260 * (l.recs + 1) ≤ bs.length then
      match d.loadRecord h bs l with
      | .error e => .error e
      | .ok x => loadBody h bs n x
    else .ok (d, l)

/-! ## What a load does to its regions (R343, R344, R347) -/

/-- Step 2: RECONFIG, frozen, IMAGE_VALID 0 and with it RGN_CONFIG. -/
def Dev.loadBegins (d : Dev) (rs : List Nat) : Dev :=
  let d := d.forEach rs (fun d n =>
    let d := d.setRbit (rgnStatus n) 9 true
    let d := d.setReason n rsnReconfig
    (d.setRbit (rgnStatus n) 8 false).setReg (rgnConfig n) 0)
  d.pairsChanged

/-- RGN_CONFIG of a record (R112). -/
def configOf (r : List Byte) : Word :=
  BitVec.ofNat 32 (getLE 1 r 0x38 + 256 * bitsOf 8 (fun i => decide (128 ≤ getLE 1 r (0x40 + i))))

/-- The taps that the frames of a region (15: the chip) configure. -/
def Dev.framesTaps (d : Dev) (k : Nat) : List (Nat × Fin 16 × Bool) :=
  ((d.cfg.frames.filter (fun e => decide (frameRegion e.1 = k))).flatMap (fun e => Config.frameTaps e.1 e.2)).filter
    (tapInScope k)

/-- A tap takes its mode, and the drivers of its data and enable from the logic of region n (R63, R64). -/
def Dev.setTap (d : Dev) (n : Nat) (t : Nat × Fin 16 × Bool) : Dev :=
  let s := Config.tapSignals (mget blankFrame d.cfg.frames) t.1 t.2.1
  let v : TapCfg := { mode := if t.2.2 then .dynamic else .steady, data := s.1, enable := s.2 }
  let h := if t.1 < 65536 then Hold.last else Config.tapHold n (mget blankFrame d.cfg.frames) t.1
  { d with logic := { d.logic with
    taps := mset (fun _ => TapCfg.off) d.logic.taps (t.1 * 16 + t.2.1.val) v,
    tapHolds := mset (fun _ => Hold.last) d.logic.tapHolds (t.1 * 16 + t.2.1.val) h } }

/-- The taps of a region's own lines, and what drives its taps of chip-wide lines. -/
def Dev.regionTaps (d : Dev) (n : Nat) : Dev :=
  let d := { d with logic := { d.logic with taps := mdrop (ofRegion 65536 n) d.logic.taps } }
  let d := d.forEach (d.framesTaps n) (fun d t => d.setTap n t)
  d.forEach ((d.framesTaps 15).filter (fun t => decide (t.2.1.val = n))) (fun d t => d.setTap n t)

/-- The settings that the frames of a region make (R55 to R63, R82, R99, R103, R104). -/
def Dev.regionSettings (d : Dev) (n : Nat) : Dev :=
  let f (a : Nat) : List Byte := mget blankFrame d.cfg.frames a
  let l := d.logic
  let d := { d with logic := { l with
    cells := mfill (fun _ => CellCfg.plain) l.cells (n * 80000) 80000 (Config.cellSetting n f),
    chains := mfill (fun _ => ChainIn.driven (.const false)) l.chains (n * 5000) 5000 (Config.chainSetting n f),
    ios := mfill (fun _ => IoCfg.plain) l.ios (n * 20) 20 (Config.ioSetting n f),
    rgns := mset (fun _ => RgnCfg.plain) l.rgns n (Config.regionSetting n f),
    bramCfg := mfill (fun _ => BramCfg.plain) l.bramCfg (n * 240) 240 (Config.bramSetting n f),
    arithCfg := mfill (fun _ => ArithCfg.plain) l.arithCfg (n * 320) 320 (Config.arithSetting n f) } }
  let first (t : Fin 512) : DelayLine := { goal := t, cur := t }
  let d := d.forEach (List.range 16) (fun d i =>
    let g := Config.ioSetting n f i
    let m := mset (fun _ => DelayLine.zero) d.logic.delays (pinOf n i * 2) (first g.delayIn)
    { d with logic := { d.logic with delays := mset (fun _ => DelayLine.zero) m (pinOf n i * 2 + 1) (first g.delayOut) } })
  d.regionTaps n

/-- CLASSES of a region's two endpoints, as a record sets them (R184, R300). -/
def Dev.setClasses (d : Dev) (n : Nat) (r : List Byte) : Dev :=
  let b := getLE 1 r 0x39
  (d.setFld (fabEpCfg (16 + 2 * n)) 16 3 b).setFld (fabEpCfg (17 + 2 * n)) 16 3 (b / 16)

/-- Step 5: what the new region record sets, and IMAGE_VALID. -/
def Dev.commitRegion (d : Dev) (n : Nat) (r : List Byte) : Dev :=
  let d := { d with cfg := { d.cfg with recs := mset (fun _ => []) d.cfg.recs n r, scrub := mdel d.cfg.scrub n } }
  let d := (d.setReg (rgnConfig n) (configOf r)).setClasses n r
  let d := d.forEach (List.range 8) (fun d i => d.setReg (rgnDigest n i) (BitVec.ofNat 32 (getLE 4 r (8 + 4 * i))))
  let d := d.forEach (List.range 8) (fun d i =>
    d.setReg (rgnWinMask n i) (BitVec.ofNat 32 (getLE (if i = 7 then 2 else 4) r (0x4C + 4 * i))))
  let d := d.regionSettings n
  let others := d.sched.assign.filter (fun e => decide (e.2 ≠ n + 1))
  let d := { d with sched := { d.sched with
    assign := (recPorts r).foldl (fun m p => mset (fun _ => 0) m p (n + 1)) others } }
  ((d.setRbit (rgnStatus n) 8 true).setRbit (rgnStatus n) 9 false).pairsChanged.recheckSecure

/-- The region's release: the reasons that the loader's release and a load's completion clear (R75). Its pins leave
configuration state when it thaws (R331). -/
def Dev.releaseRegion (d : Dev) (n : Nat) : Dev :=
  d.clearReasons n ([rsnReconfig, rsnPolicy, rsnLogicFail, rsnStart] ++
    (if d.rbit pwrStatus 31 then [] else [rsnCommand]))

/-- The regions of a load that has failed after it began. -/
def Dev.loadDies (d : Dev) (rs : List Nat) (status : Nat) (addr : Word) : Dev := (d.loadFail status addr).loadAborted rs

/-! ### The flows of a full image (R232, R347) -/

/-- One entry of the initial flow table, against the port permits of the image; a refused one is skipped. -/
def Dev.tableEntry (d : Dev) (e : List Byte) : Dev :=
  let force := d.reg fencePort
  let d := d.setFld fencePort 0 16 (bits force 16 16)
  let (d, status, p) := d.flowAdmit e
  let d := d.setReg fencePort force
  if status = stOk then d
  else d.logEntry 0x23 srcLoader Path.chip (putLE 2 (getLE 2 e 0) ++ putLE 2 status ++ putLE 1 (getLE 1 p 0x34))

/-- The initial flow table, in order. -/
def Dev.flowTable (d : Dev) (h : List Byte) : Dev :=
  d.forEach (List.range (imgFlows h)) (fun d i => d.tableEntry (slice h (0x800 + 32 * i) 32))

/-- The old flows go: every reservation, every descriptor but flow 0's, and every cell still held, which is counted. What
crosses the core of an accepted cell goes with it, and so do its acknowledgement and its credit (R197, R347). -/
def Dev.dropFlows (d : Dev) : Dev :=
  let d := d.copiedAll
  let d := d.forEach (List.range 52) (fun d e =>
    let olds := (d.pool e).filter (fun p => decide (p.cell.flow ≠ 0))
    let d := (d.setPool e ((d.pool e).filter (fun p => decide (p.cell.flow = 0)))).count (admEpFrozenDrop e) olds.length
    let i := d.ing e
    let lost := i.replay.filter (fun x => decide (x.cell.flow ≠ 0))
    let d := d.setIng e { i with replay := i.replay.filter (fun x => decide (x.cell.flow = 0)) }
    d.forEach (lost.filter (fun x => !x.arrived)) (fun d x => d.count (admEpFrozenDrop x.cell.dest.toNat)))
  let d := { d with adm := { d.adm with flows := mdrop (fun f => decide (f ≠ 0)) d.adm.flows,
                                        pairs := d.adm.pairs.map (fun (x : Nat × PairState) => (x.1, { x.2 with flows := [], slotsOut := false })) },
                    fab := { d.fab with calStaged := [], acks := [], credits := [],
                                        flight := d.fab.flight.filter (fun x => !x.cell.acc) } }
  d.forEach (List.range 52) Dev.reqSwap

/-! ### The end of a load -/

/-- A region load is complete: steps 5 and 6 of R344. -/
def Dev.regionLoaded (d : Dev) (h : List Byte) : Dev :=
  ((d.commitRegion (imgRegion h) (imgRec h (imgRegion h))).releaseRegion (imgRegion h)).count cfgLoadCount

/-- What the chip-global frames make: the sources of clock trees and reset nets, and the taps of chip-wide lines
(R64, R69, R72). -/
def Dev.chipSettings (d : Dev) : Dev :=
  let f (a : Nat) : List Byte := mget blankFrame d.cfg.frames a
  let d := { d with logic := { d.logic with
    clineLatched := [],
    trees := mfill (fun _ => TreeSrc.none) [] 0 16 (Config.treeSource f),
    nets := mfill (fun _ => NetSrc.none) [] 0 4 (Config.netSource f),
    taps := mdrop (fun k => decide (1048576 ≤ k)) d.logic.taps } }
  d.forEach (d.framesTaps 15) (fun d t => d.setTap t.2.1.val t)

/-- Chip-global frames, permits, pin and lane defaults of a full image (steps 6 of R328, R347, R582, R596). -/
def Dev.chipLoaded (d : Dev) (h bs : List Byte) (written : List (Nat × List Byte)) : Dev :=
  let d := { d with
    cfg := { d.cfg with
      chip := imgChip h,
      frames := mdrop (fun k => decide (frameRegion k = 15)) d.cfg.frames,
      upsets := mdrop (fun k => decide (frameRegion k = 15)) d.cfg.upsets,
      scrub := mdel d.cfg.scrub 15 } }
  let d := d.forEach (written.filter (fun w => decide (frameRegion w.1 = 15))) (fun d w => d.writeFrame w.1 w.2)
  let d := d.chipSettings
  let d := d.setReg cfgVersion (BitVec.ofNat 32 (imgVersion h))
  let dig := slice bs (imgLen h - 96) 32
  let d := d.forEach (List.range 8) (fun d i => d.setReg (cfgDigest i) (BitVec.ofNat 32 (getLE 4 dig (4 * i))))
  d.pinDefaults.laneDefaults

/-- Step 8: the regions of REGION_MASK hold their images; the others hold none. -/
def Dev.commitRegions (d : Dev) (h : List Byte) : Dev :=
  let d := d.forEach (List.range 12) (fun d n =>
    if (imgMask h).testBit n then d.commitRegion n (imgRec h n)
    else
      let d := { d with cfg := { d.cfg with recs := mdel d.cfg.recs n, pinsOut := setBit d.cfg.pinsOut n false },
                        sched := { d.sched with assign := d.sched.assign.filter (fun e => decide (e.2 ≠ n + 1)) } }
      (d.setClasses n []).setRbit (rgnStatus n) 9 false)
  d.recheckSecure

/-- Steps 7 and 10: the regions of REGION_MASK are released, and then CFG_DONE (R332). -/
def Dev.releaseRegions (d : Dev) (h : List Byte) : Dev :=
  let d := d.forEach (bitList 12 (imgMask h)) Dev.releaseRegion
  { d with cfg := { d.cfg with done := true } }

/-- A region of the image is EARLY. -/
def usesEarly (h : List Byte) : Bool :=
  (bitList 12 (imgMask h)).any (fun k => (getLE 1 (imgRec h k) 0x38).testBit 5)

/-- The old flows go and the new flow table comes, the regions are released, and the load ends; a load by JTAG ends its
session with it, and so does one whose session ended while it waited (R347, R356). -/
def Dev.flowsLoaded (d : Dev) (h : List Byte) : Dev :=
  let d := { d with adm := { d.adm with loadWaits := none, loadBehind := false } }
  let d := ((d.dropFlows.flowTable h).releaseRegions h).count cfgLoadCount
  match d.cfg.session with
  | some s => if s.target = .direct true then d.dropSession.cfgEnd stOk else d
  | none => d.cfgEnd stOk

/-- A load that waits for the engine goes on once the window of R211 is open and no earlier request waits. -/
def Dev.flowsDue (d : Dev) : Dev :=
  match d.adm.loadWaits with
  | some h => if d.stagingShut || d.adm.loadBehind then d else d.flowsLoaded h
  | none => d

/-- What has waited for the window: a request of a hive that has been reset since, and the flows of a load, in their order. -/
def Dev.engineDue (d : Dev) : Dev := (d.cond d.adm.loadBehind Dev.handedDue).flowsDue.handedDue

/-- Every owner goes (R410): a bank with SECURE = 1 is left without a secure master, and its partition is wiped (R416); with
RETAIN clear, a rung that holds takes it (R435). -/
def Dev.ownersGo (d : Dev) : Dev :=
  let d := d.forEach (List.range 16) (fun d k => d.cond (d.rbit (bankCtrl k) 1) (fun d => d.startWipe k))
  d.clearOwners.forEach (List.range 16) Dev.bankRung

/-- A direct full-image load is authentic and every group checks (R347, R410, R448): what follows in order. Its flows wait for
the window of R211, and for a request that waits there already. -/
def Dev.fullLoaded (d : Dev) (h bs : List Byte) (written : List (Nat × List Byte)) (source : Nat) : Dev :=
  let d := (d.chipLoaded h bs written).ownersGo.schedClear
  let d := (d.setFld cfgBoot 28 4 source).setRbit cfgBoot 22 (usesEarly h)
  let d := d.commitRegions h
  ({ d with adm := { d.adm with loadWaits := some h, loadBehind := d.requestWaits || d.adm.handed.isSome } }).flowsDue

def execPeriodBoundary (skew : BitVec 31) (s : State) : Host.Outcome State Fault Refusal :=
  finish s (s.dev.cond s.dev.fab.slotSet (fun d => (d.periodBoundary skew).engineDue))

def execCalCopyDone (s : State) : Host.Outcome State Fault Refusal := finish s s.dev.copiedAll.engineDue

/-! ## A direct session's bytes (R337, R341) -/

/-- A region that the image would write is under self-test (R335). -/
def Dev.testing (d : Dev) (rs : List Nat) : Bool := rs.any (fun n => d.rbit (rgnStatus n) rsnSelftest)

/-- How far a direct session has come after more bytes. -/
inductive DirectEnd where
  | goes
  | refused (status : Nat)
  | busy
  deriving DecidableEq, Repr

/-- The load goes on with every byte that has arrived: the header, then the records, then the trailer. -/
def Dev.directRun (d : Dev) (s : Session) (jtag : Bool) : Dev × DirectEnd :=
  let put (d : Dev) (l : Load) : Dev := { d with cfg := { d.cfg with session := some { s with load := l } } }
  let body (d : Dev) (h : List Byte) (l : Load) : Dev × DirectEnd :=
    match Dev.loadBody h s.bytes (imgFrames h) (d, l) with
    | .error (d, st, addr) => ((d.dropSession.loadDies (imgRegions h) st addr), .refused st)
    | .ok (d, l) =>
      if l.finished then (put d l, .goes)
      else if imgLen h ≤ s.bytes.length then
        (if d.authentic h s.bytes then
          let d := put d { l with finished := true }
          (if imgClass h = 2 then d.regionLoaded h else d.fullLoaded h s.bytes l.written (if jtag then 7 else 6), .goes)
         else (d.dropSession.loadDies (imgRegions h) stCfgAuth (noFrame (imgTarget h)), .refused stCfgAuth))
      else (put d l, .goes)
  match s.load.hdr with
  | some h => body d h s.load
  | none =>
    match d.headerCheck s.bytes .any (if jtag then none else some s.length) with
    | some st => (d.dropSession.loadCounted st (noFrame (d.fld cfgStatus 24 4)), .refused st)
    | none =>
      if 64 ≤ s.bytes.length ∧ imgHeaderLen s.bytes ≤ s.bytes.length then
        let h := s.bytes.take (imgHeaderLen s.bytes)
        if d.testing (imgRegions h) then (d, .busy)
        else
          let d := (d.setFld cfgStatus 24 4 (imgTarget h)).loadBegins (imgRegions h)
          let d := if imgClass h = 1 then { d with cfg := { d.cfg with done := false } } else d
          let l := { s.load with hdr := some h }
          match d.loadGroups h s.bytes l with
          | .error (d, st, addr) => (d.dropSession.loadDies (imgRegions h) st addr, .refused st)
          | .ok (d, l) => body d h l
      else (put d s.load, .goes)

/-- CFG_LOAD_UPDATE: four bytes of the test port; the first ones open the session, and its end closes it. While another
session is open or a load runs, the load is refused with BUSY, which CFG_STATUS shows (R335, R336). -/
def Dev.jtagLoad (d : Dev) (v : Word) : Dev :=
  let d := { d with jtag := { d.jtag with out := d.reg cfgStatus } }
  if d.inRetired then d
  else
    let s? : Option Session := match d.cfg.session with
      | none => if d.adm.loadWaits.isSome then none else some { target := .direct true, length := 0, bytes := [], load := .fresh }
      | some s => if s.target = .direct true && !s.load.finished then some s else none
    match s? with
    | none => d.setFld cfgStatus 0 16 stBusy
    | some s =>
      let d := if d.cfg.session.isNone then d.cfgBegin opDirect 0xF else d
      let s := { s with bytes := s.bytes ++ putLE 4 v.toNat }
      match d.directRun s true with
      | (d, .busy) => (d.dropSession).cfgEnd stBusy
      | (d, .refused _) => d
      | (d, .goes) =>
        match d.cfg.session with
        | some s => if s.load.finished && d.adm.loadWaits.isNone then d.dropSession.cfgEnd stOk else d
        | none => d

def execCfgLoadUpdate (v : Word) (s : State) : Host.Outcome State Fault Refusal :=
  let d := s.dev
  finish s (if d.jtag.ir = 0x020 ∧ d.power.por = false ∧ d.power.resetN = false then d.jtagLoad v else d)

/-! ## The stream session (R334 to R336, R536) -/

/-- The partition, the byte offset in it and the directory's entry of a store target. -/
def targetPart : StreamTarget → Nat
  | .direct _ => 0
  | .slot t => [1, 2, 0].getD t 0
  | .lib _ => 3
def targetOffset : StreamTarget → Nat
  | .lib e => 48 * sectorBytes * e
  | _ => 0
def targetDir : StreamTarget → Nat
  | .direct _ => 0
  | .slot t => t
  | .lib e => 16 + e
def targetSize : StreamTarget → Nat
  | .direct _ => 0xFFFFFFFF
  | .slot _ => 640 * sectorBytes
  | .lib _ => 48 * sectorBytes

/-- TARGET codes (R535). -/
def targetOf (c : Nat) : Option StreamTarget :=
  match c with
  | 0 => some (.direct false)
  | 1 => some (.slot 0)
  | 2 => some (.slot 1)
  | 3 => some (.slot 2)
  | _ => if 0x10 ≤ c ∧ c < 0x20 then some (.lib (c - 0x10)) else none

def isDirect : StreamTarget → Bool
  | .direct _ => true
  | _ => false

/-- CFG_ commands in RETIRED (R339). -/
def Dev.cfgDenied (d : Dev) : Option Answer := if d.inRetired then some ansLife else none

def busyNow (b : Bool) : Option Answer := if b then some (ansBusy detInProgress) else none

/-- A session is open or a load is running (R335). -/
def Dev.loading (d : Dev) : Bool := d.cfg.session.isSome || d.adm.loadWaits.isSome

/-- The session of a target is still erasing. -/
def Dev.sessionErasing (d : Dev) : Bool :=
  d.hive.jobs.any (fun j => j.final.isNone && !j.gone && (match j.kind with | .erases (.stream _ _) _ _ _ _ => true | _ => false))

def cmdStreamOpen : Command := checked 8 (zb [1, 2, 3]) [] (fun d r =>
  match targetOf (r.u 1 0) with
  | none => (d, some (ansBad detRange 0))
  | some t =>
    let len := r.u 4 4
    let p := targetPart t
    let range := if len = 0 ∨ targetSize t < len then some (ansBad detRange 4) else none
    let shut := firstOf [range, d.cfgDenied,
      (if t = .slot 2 && !d.inDeployed && !d.served 2 then some ansLife else none)]
    let (d, fenced) := if shut.isNone && !isDirect t && d.protectedSlot p then (d.fenceRefuse 5 p 0, some ansFence) else (d, none)
    gated (firstOf [shut, fenced, busyNow d.loading,
        (if isDirect t then none else d.nvBusy),
        (if !isDirect t && d.ticketsFull then some (ansBusy detTicketsFull) else none)]) d (fun _ =>
      let d := { d with cfg := { d.cfg with session := some { target := t, length := len, bytes := [], load := .fresh } } }
      let d := d.cfgBegin (if isDirect t then opDirect else opStaging) 0xF
      if isDirect t then (d, some (ansOk (putLE 4 len)))
      else
        let d := d.setDir (targetDir t) 0 0
        let first := partBase p + targetOffset t / sectorBytes
        d.openErases r (.stream t len) ((List.range ((len + sectorBytes - 1) / sectorBytes)).map (fun i => first + i)) true))

def execCfgStreamOpen (s : State) : Host.Outcome State Fault Refusal := finish s (s.dev.imfa 0x0301 cmdStreamOpen)

/-- The programs of a staged stream for the code words that lie between two byte counts: one for each sector. -/
def stageOps (t : StreamTarget) (data : List Byte) (lo hi : Nat) : List NvOp :=
  let off := targetOffset t
  let a := off + lo / 32 * 32
  let b := off + hi / 32 * 32
  if b ≤ a then []
  else (List.range' (a / sectorBytes) ((b + sectorBytes - 1) / sectorBytes - a / sectorBytes)).map (fun k =>
    let o := max a (k * sectorBytes)
    let e := min b ((k + 1) * sectorBytes)
    .program (partBase (targetPart t) + k) o (wordsOfData (o % sectorBytes / 32) (slice data (o - off) (e - o))))

/-- The programs of a session's new bytes. The last word of the stream is filled up with free bytes. -/
def Dev.stageNew (d : Dev) (s : Session) (level : Nat) : Dev × List NvOp :=
  let rest := s.length % 32
  if s.bytes.length = s.length ∧ rest ≠ 0 then
    let pad : BitVec 256 := d.freeVal 256
    (d.freeNext, stageOps s.target (s.bytes ++ (putLE 32 pad.toNat).take (32 - rest)) level (s.length + 32 - rest))
  else (d, stageOps s.target s.bytes level s.bytes.length)

/-- Programs of a store target's sectors are in progress or wait. -/
def Dev.stagePending (d : Dev) : Bool :=
  match d.cfg.session with
  | some s =>
    let first := partBase (targetPart s.target) + targetOffset s.target / sectorBytes
    let mine (x : NvOp) : Bool := match x with
      | .program l _ _ => decide (first ≤ l ∧ l < first + targetSize s.target / sectorBytes)
      | .erase _ _ _ _ => false
    !isDirect s.target && (d.store.held ++ (List.range 16).flatMap (fun j =>
      let p := d.nvPlane j
      p.op.toList ++ p.inner.toList ++ p.queue ++ p.innerQueue)).any mine
  | none => false

/-- The refusal of a check in a session (R536). -/
def Dev.cfgRefused (d : Dev) (status : Nat) : Answer := (status, putLE 4 (d.reg cfgFailAddr).toNat)

/-- The session that the hive's commands act on. -/
def Dev.hiveSession (d : Dev) : Option Session :=
  match d.cfg.session with
  | some s => if s.target = .direct true then none else some s
  | none => none

def cmdStreamData : Command := fun d r =>
  if r.len < 5 ∨ 16388 < r.len then (d, some (ansBad detLength))
  else gated d.cfgDenied d (fun _ =>
    match d.hiveSession with
    | none => (d, some (ansBad detNoSession))
    | some s =>
      let data := r.params.drop 4
      let level := s.bytes.length
      gated (firstOf [busyNow d.sessionErasing,
          (if r.u 4 0 ≠ level then some (ansBad detRange 0) else none),
          (if s.length < level + data.length then some (ansBad detRange 4) else none),
          busyNow (!isDirect s.target && d.nvHold),
          (if isDirect s.target then none
           else d.unfinishedIn (partWords (targetPart s.target) (targetOffset s.target + level) data.length))]) d (fun _ =>
        let s' := { s with bytes := s.bytes ++ data }
        let okay : Answer := ansOk (putLE 4 s'.bytes.length)
        if isDirect s.target then
          match d.directRun s' false with
          | (d, .goes) => (d, some okay)
          | (_, .busy) => (d, some (ansBusy detInProgress))
          | (d, .refused st) => (d, some (d.cfgRefused st))
        else
          let (d', ops) := d.stageNew s' level
          match d.usedIn ops with
          | some (l, w) =>
            let (d, a) := d.usedRefused l w
            (d, some a)
          | none => (({ d' with cfg := { d'.cfg with session := some s' } }).forEach ops Dev.submitOp, some okay)))

def execCfgStreamData (s : State) : Host.Outcome State Fault Refusal := finish s (s.dev.imfa 0x0302 cmdStreamData)

/-! ### Staging (R338) -/

/-- Bytes of a partition as the loader reads them, with what the read records and suspends (R369, R370, R378), and the words that read
uncorrectable, each by the offset of the byte behind it, counted from `off`. -/
def Dev.loaderRead (d : Dev) (p off len : Nat) : Dev × List Byte × List Nat :=
  let ws := partWords p off len
  let (d, xs, _) := (d.suspendFor ws).readWords ws
  let bad := ((List.range xs.length).zip xs).filterMap (fun x => if x.2.count = 0xF then some (32 * (x.1 + 1) - off % 32) else none)
  let (d, bs) := d.wordsBytes xs
  (d, (bs.drop (off % 32)).take len, bad)

/-- The image is authentic, and no code word of its header or trailer read uncorrectable. -/
def Dev.authenticRead (d : Dev) (bs : List Byte) (bad : List Nat) : Bool :=
  goodIn bad 0 (imgHeaderLen bs) && goodIn bad (imgLen bs - 160) (imgLen bs) && d.authentic bs bs

/-- Every check of R341 on stored bytes, without an effect: the status and address of the first that fails. -/
def Dev.dryRun (d : Dev) (bs : List Byte) (bad : List Nat) (t : LoadFor) (len : Nat) : Option (Nat × Word × Bool) :=
  let target := if imgClass bs = 2 then imgRegion bs else 0xF
  match d.headerCheck bs t (some len) with
  | some st => some (st, noFrame 0xF, false)
  | none =>
    if bs.length < 64 then some (stCfgTruncated, noFrame 0xF, true)
    else
      let h := bs.take (imgHeaderLen bs)
      let l := { Load.fresh with hdr := some h, bad := bad }
      match (match d.loadGroups h bs l with
        | .error e => .error e
        | .ok x => Dev.loadBody h bs (imgFrames h) x : LoadStep) with
      | .error (_, st, addr) => some (st, addr, true)
      | .ok _ => if d.authenticRead bs bad then none else some (stCfgAuth, noFrame target, true)

/-- CFG_STREAM_CLOSE of a store target: the image is read back and checked, and the directory marks it VALID. -/
def Dev.stageClose (d : Dev) (s : Session) : Dev × Answer :=
  let (d, bs, bad) := d.loaderRead (targetPart s.target) (targetOffset s.target) s.length
  let d := d.dropSession
  let lib := match s.target with | .lib _ => true | _ => false
  match d.dryRun bs bad (if lib then .region else .full) s.length with
  | some (st, addr, logged) =>
    let d := if lib && logged then d.setFld cfgStatus 24 4 (imgTarget bs) else d
    let d := if logged then d.loadFail st addr else d.loadCounted st addr
    (d, d.cfgRefused st)
  | none =>
    let dig := slice bs (imgLen bs - 96) 32
    let region := if lib then imgRegion bs else 0
    let d := d.setDir (targetDir s.target) (BitVec.ofNat 32 (2 ^ 31 + region * 65536 + imgVersion bs % 65536))
      (BitVec.ofNat 64 (getLE 8 dig 0))
    let d := if lib then d.setFld cfgStatus 24 4 region else d
    ((d.count cfgLoadCount).cfgEnd stOk, ansOk (putLE 4 s.length ++ dig))

def cmdStreamClose : Command := checked 0 [] [] (fun d _ =>
  gated d.cfgDenied d (fun _ =>
    match d.hiveSession with
    | none => (d, some (ansBad detNoSession))
    | some s =>
      gated (busyNow d.sessionErasing) d (fun _ =>
        if s.bytes.length < s.length || (isDirect s.target && !s.load.finished) then
          let d := d.truncateSession
          (d, some (d.cfgRefused stCfgTruncated))
        else if isDirect s.target then
          (d.dropSession.cfgEnd stOk, some (ansOk (putLE 4 s.length ++ slice s.bytes (s.length - 96) 32)))
        else gated (d.unfinishedIn (partWords (targetPart s.target) (targetOffset s.target) s.length)) d (fun _ =>
          let (d, a) := d.stageClose s
          (d, some a)))))

/-- The command answers once the load's flows are in, and once the words of a store target are programmed. -/
def execCfgStreamClose (s : State) : Host.Outcome State Fault Refusal :=
  finish s (if s.dev.adm.loadWaits.isSome || s.dev.stagePending then s.dev else s.dev.imfa 0x0303 cmdStreamClose)

def cmdStreamAbort : Command := checked 0 [] [] (fun d _ =>
  gated d.cfgDenied d (fun _ =>
    match d.hiveSession with
    | none => (d, some (ansBad detNoSession))
    | some _ => gated (busyNow d.sessionErasing) d (fun _ => (d.truncateSession, some (ansOk)))))

def execCfgStreamAbort (s : State) : Host.Outcome State Fault Refusal := finish s (s.dev.imfa 0x0304 cmdStreamAbort)

/-- STREAM_IDLE_TIMEOUT: 10 s without a CFG_STREAM_DATA. -/
def execStreamIdleTimeout (s : State) : Host.Outcome State Fault Refusal :=
  finish s (if s.dev.sessionErasing then s.dev else s.dev.truncateSession)

/-! ## Commits, reloads, freezes and information (R334, R339, R340, R535) -/

def cmdCfgCommit : Command := checked 4 [(1, 0xFE), (2, 0xFF), (3, 0xFF)] [(0, 1, 0, 1)] (fun d r =>
  let slot := r.u 1 0
  gated (firstOf [d.cfgDenied, (if d.dirValid slot then none else some (ansBad detState)), d.nvBusy]) d (fun _ =>
    let d := d.setActive slot
    let d := d.cond (decide (r.u 1 1 = 1)) (fun d => { d with hive := { d.hive with due := d.hive.due ++ [.commit] } })
    (d, some (ansOk))))

def execCfgCommit (s : State) : Host.Outcome State Fault Refusal := finish s (s.dev.imfa 0x0305 cmdCfgCommit)

/-- The comparison of R340 has failed: a region that held an image goes back to it. -/
def Dev.reloadRefused (d : Dev) (n : Nat) (wasValid : Bool) : Dev :=
  let d := d.loadFail stCfgAuth (noFrame n)
  if wasValid then
    let d := (d.setRbit (rgnStatus n) 9 false).setRbit (rgnStatus n) 8 true
    (d.setReg (rgnConfig n) (configOf (d.recOf n))).clearReason n rsnReconfig |>.pairsChanged
  else d.loadAborted [n]

/-- A load from a library entry into its region (R340, R346). -/
def Dev.regionReload (d : Dev) (e : Nat) : Dev × Answer :=
  let (arg, dig) := d.dirOf (16 + e)
  let n := bits arg 16 4
  let wasValid := d.imageValid n
  let off := targetOffset (.lib e)
  let d := (d.cfgBegin opReload n).loadBegins [n]
  let (d, head, bad) := d.loaderRead 3 off 0x800
  let len := imgLen head
  let (d, trailer, bad') := d.loaderRead 3 (off + len - 96) 32
  let sum := sha256 head
  if decide (bad ++ bad' ≠ []) || decide (getLE 8 sum 0 ≠ dig.toNat) || decide (sum ≠ trailer) then
    let d := d.reloadRefused n wasValid
    (d, d.cfgRefused stCfgAuth)
  else
    let (d, body, bad) := d.loaderRead 3 (off + 0x800) (len - 0x800)
    let bs := head ++ body
    let l := { Load.fresh with hdr := some head, bad := bad.map (· + 0x800), entry := true }
    match (match d.loadGroups head bs l with
      | .error e => .error e
      | .ok x => Dev.loadBody head bs (imgFrames head) x : LoadStep) with
    | .error (d, st, addr) =>
      let d := d.loadDies [n] st addr
      (d, d.cfgRefused st)
    | .ok (d, _) => ((d.regionLoaded head).cfgEnd stOk, ansOk ([BitVec.ofNat 8 n, 0, 0, 0] ++ putLE 4 (imgVersion head)))

/-- The code words of an entry's stored image: those of its header, and of the length that it gives. -/
def Dev.entryWords (d : Dev) (e : Nat) : List (Nat × Nat) :=
  let head := (partWords 3 (targetOffset (.lib e)) 0x800).flatMap (fun w => (d.store.word (d.store.phys w.1) w.2).bytes)
  partWords 3 (targetOffset (.lib e)) (imgLen head)

def cmdRegionLoad : Command := checked 1 [] [(0, 1, 0, 15)] (fun d r =>
  let e := r.u 1 0
  let n := bits (d.dirOf (16 + e)).1 16 4
  gated (firstOf [d.cfgDenied, (if d.rbit pwrStatus 31 then some (ansBad detState) else none),
      busyNow d.loading, (if d.dirValid (16 + e) then none else some (ansBad detState)),
      busyNow (d.testing [n]), d.nvBusy, d.unfinishedIn (d.entryWords e)]) d (fun _ =>
    let (d, a) := d.regionReload e
    (d, some a)))

def execRegionLoad (s : State) : Host.Outcome State Fault Refusal := finish s (s.dev.imfa 0x0306 cmdRegionLoad)

def cmdRegionFreeze : Command := checked 1 [] [(0, 1, 0, 11)] (fun d r =>
  let d := d.rgnCtrl (r.u 1 0) 1
  (d, some (ansOk (putLE 4 (d.reg (rgnStatus (r.u 1 0))).toNat))))

def execRegionFreeze (s : State) : Host.Outcome State Fault Refusal := finish s (s.dev.imfa 0x0307 cmdRegionFreeze)

def cmdRegionThaw : Command := checked 1 [] [(0, 1, 0, 11)] (fun d r =>
  if d.rbit pwrStatus 31 then (d, some (ansBad detState))
  else
    let d := d.rgnCtrl (r.u 1 0) 2
    (d, some (ansOk (putLE 4 (d.reg (rgnStatus (r.u 1 0))).toNat))))

def execRegionThaw (s : State) : Host.Outcome State Fault Refusal := finish s (s.dev.imfa 0x0308 cmdRegionThaw)

def cmdLibErase : Command := checked 1 [] [(0, 1, 0, 15)] (fun d r =>
  let e := r.u 1 0
  let mine := match d.cfg.session with | some s => decide (s.target = .lib e) | none => false
  gated (firstOf [d.cfgDenied, busyNow mine, d.nvBusy, d.needTicket]) d (fun _ =>
    let d' := d.setDir (16 + e) 0 0
    d'.openErases r (.lib e) ((List.range 48).map (fun i => partBase 3 + 48 * e + i)) false))

def execCfgLibErase (s : State) : Host.Outcome State Fault Refusal := finish s (s.dev.imfa 0x0309 cmdLibErase)

def cmdCfgInfo : Command := checked 0 [] [] (fun d _ =>
  gated d.cfgDenied d (fun _ =>
    let w (off : Nat) : List Byte := putLE 4 (d.reg off).toNat
    (d, some (ansOk (w cfgBoot ++ w cfgStatus ++ w cfgVersion ++ (List.range 8).flatMap (fun i => w (cfgDigest i)) ++
      (List.range 3).flatMap (fun s => putLE 4 (d.slotWord s).toNat) ++
      (List.range 16).flatMap (fun e => putLE 4 (d.libWord e).toNat) ++ w cfgStartTime ++ w cfgChainStatus)))))

def execCfgInfo (s : State) : Host.Outcome State Fault Refusal := finish s (s.dev.imfa 0x0300 cmdCfgInfo)

/-- The computed registers of the configuration controller. -/
def Dev.cfgView (d : Dev) (off : Nat) : Option Word :=
  let o := off - 0x040000
  if 0x30 ≤ o ∧ o < 0x3C then some (d.slotWord ((o - 0x30) / 4))
  else if 0x40 ≤ o ∧ o < 0x80 then some (d.libWord ((o - 0x40) / 4))
  else if o = 0x90 then some (BitVec.ofNat 32 (match d.cfg.session with
    | some s => if isDirect s.target ∧ s.length = 0 then s.bytes.length else min s.bytes.length s.length
    | none => 0))
  else none

/-! ## Readback (R353) -/

/-- A frame's bytes with bits flipped. -/
def flipBits (f : List Byte) (bs : List Nat) : List Byte :=
  putLE 256 (bs.foldl (fun w b => natBit w b (!w.testBit b)) (getLE 256 f 0))

/-- A frame as it is held now, its masked bits 0. -/
def Dev.frameHeld (d : Dev) (a : Nat) : List Byte :=
  let f := d.frame a
  let v := getLE 256 (flipBits f (d.frameUpsets a)) 0
  let masked := if isLogicFrame a then Config.maskedBits a f else []
  putLE 256 (masked.foldl (fun w b => natBit w b false) v)

/-- The next frame address of a column-ordered pass. -/
def nextFrame (a : Nat) : Nat :=
  if frameRegion a = 15 ∨ frameMinor a = 7 then (a / 0x100 + 1) * 0x100 else a + 1

def frameRun : Nat → Nat → List Nat
  | 0, _ => []
  | n + 1, a => a :: frameRun n (nextFrame a)

def cmdReadback : Command := checked 6 (zb [3]) [(4, 2, 1, 64)] (fun d r =>
  let as_ := frameRun (r.u 2 4) (r.u 3 0)
  gated (firstOf [(if as_.all (fun a => isLogicFrame a || isChipFrame a) then none else some (ansBad detRange 0)),
      (if replyFits r (260 * as_.length) then none else some (ansBad detTransport)),
      (if d.served 0 then none else some ansLife)]) d (fun _ =>
    let d' := if d.cfg.session.isNone then (d.cfgBegin 5 (frameRegion (r.u 3 0))).cfgEnd stOk else d
    (d', some (ansOk (as_.flatMap (fun a => putLE 4 a ++ d.frameHeld a))))))

def execCfgReadback (s : State) : Host.Outcome State Fault Refusal := finish s (s.dev.imfa 0x030A cmdReadback)

/-! ## Scrubbing (R348 to R352) -/

/-- Frame `i` of a pass. -/
def scrubAddr (k i : Nat) : Nat := if k = 15 then 0xF00000 + i * 0x100 else k * 0x100000 + i / 8 * 0x100 + i % 8

/-- Bits that have flipped, with more flips: a bit flipped twice is as it was. -/
def mergeFlips (old new : List Nat) : List Nat :=
  let new := (List.range 2048).filter (fun b => (new.filter (fun x => decide (x = b))).length % 2 = 1)
  (List.range 2048).filter (fun b => old.contains b != new.contains b)

/-- One frame is checked: `okay`, rewritten, or beyond correction. `flips` are the bits that have flipped in it since. A
frame with cells in shift-register mode yields to a user shift in the same cycle, and waits for the next pass (R25, R350). -/
def Dev.scrubOne (d : Dev) (k : Nat) (flips : List Nat) (shift : Bool) : Dev × Nat × Nat :=
  let i := mget (fun _ => 0) d.cfg.scrub k
  let a := scrubAddr k i
  let all := mergeFlips (d.frameUpsets a) flips
  let masked := if k = 15 then [] else Config.maskedBits a (d.frame a)
  let seen := if shift && decide (masked ≠ []) then [] else all.filter (fun b => !masked.contains b)
  let d := d.setFrameUpsets a (if seen.length = 1 then all.filter (fun b => masked.contains b) else all)
  let last := if k = 15 then 255 else 6399
  let d := { d with cfg := { d.cfg with scrub := mset (fun _ => 0) d.cfg.scrub k (if i = last then 0 else i + 1) } }
  (d, seen.length, a)

def Dev.scrubRegion (d : Dev) (n : Nat) (flips : List Nat) (shift : Bool) : Dev :=
  if d.imageValid n then
    let pass := decide (mget (fun _ => 0) d.cfg.scrub n = 6399)
    let (d, errs, a) := d.scrubOne n flips shift
    let d := d.cond pass (fun d => d.seqUp (rgnScrubPass n))
    if errs = 0 then d
    else if errs = 1 then d.count (rgnScrubCorr n)
    else ((d.count (rgnScrubUncorr n)).setRbit (rgnFault n) 0 true).escalate clsScrub srcRegion (Path.rgn n) (putLE 4 a)
  else d

def execScrubFrame (n : Fin 12) (flips : List Nat) (shift : Bool) (s : State) : Host.Outcome State Fault Refusal :=
  finish s (s.dev.scrubRegion n flips shift)

/-- The configuration controller finds an uncorrectable chip-global frame (R352). R569 gives it no SOURCE code of its own:
the entry carries the loader's (DESIGN CHOICE, log 59). -/
def execScrubChipFrame (flips : List Nat) (s : State) : Host.Outcome State Fault Refusal :=
  let d := s.dev
  finish s (if d.cfg.chip = [] then d else
    match d.scrubOne 15 flips false with
    | (d, errs, a) => if errs < 2 then d else d.escalate clsScrub srcLoader Path.chip (putLE 4 a))

end Sys2Proof.Machine
end

