-- ==== Sys2Proof/Machine/Lifecycle.lean ====
section
/-! DEFINITION. The lifecycle machine, tamper, the hive watchdog and the trouble log (chapter 12). -/
namespace Sys2Proof.Machine

/-! ## Attempts (R552 to R556) -/

/-- Milliseconds that remain of the attempt delay: 2^(min(n, 17) − 1) s from the latest failure or start. -/
def Dev.delayMs (d : Dev) : Nat :=
  let n := d.keys.attempts.toNat
  if n = 0 then 0
  else
    let whole := 2 ^ (min n 17 - 1) * 1000000000
    let gone := (d.time.uptime.toNat - d.lcy.delayFrom.toNat) / 2 ^ 32
    (whole - gone + 999999) / 1000000

/-- The 16 serial bytes of the calibration row (R398). -/
def serialBytes : List Byte := (List.range 16).map (fun i => Config.calRow (0x10 + i))

/-- What a new session area means for the banks, the nonce and the working key (R549): all of it is wiped. -/
def Dev.wipeSession (d : Dev) : Dev :=
  let d := d.wipeAllSecure
  { d with lcy := { d.lcy with nonce := none, working := none } }

/-- The failed-attempt counter and the state, programmed into both copies (R547, R550, R556). -/
def KeyStore.count (k : KeyStore) (n : Byte) : KeyStore := { k with attempts := n, attempts2 := n }
def KeyStore.enter (k : KeyStore) (s : LcState) : KeyStore := { k with state := s, state2 := s }

/-- An attempt by a method: counted before it is compared; a match opens SERVICE, a failure starts the delay. -/
def Dev.attempt (d : Dev) (method : Nat) (scope : Word) (good : Bool) : Dev × Answer :=
  let n := min 255 (d.keys.attempts.toNat + 1)
  let d := { d with keys := d.keys.count (BitVec.ofNat 8 n) }
  if good then
    let d := { d with keys := d.keys.count 0 }
    let d := d.wipeSession
    let d := { d with lcy := { d.lcy with scope := some scope } }
    (d.logEntry 0x31 srcLifecycle Path.chip (putLE 1 method ++ zeros 3 ++ putLE 4 scope.toNat), ansOk (putLE 4 scope.toNat))
  else
    let d := { d with lcy := { d.lcy with delayFrom := d.time.uptime } }
    (d.escalate clsAuth srcLifecycle Path.chip ([BitVec.ofNat 8 method, BitVec.ofNat 8 n, 0, 0] ++ putLE 4 d.delayMs),
     ansErr stDeniedAuth 0 d.delayMs)

/-- An attempt is refused while the delay runs. -/
def Dev.delayed (d : Dev) : Option Answer := if d.delayMs = 0 then none else some (ansErr stBusy 0 d.delayMs)

/-- Reserved bits of SCOPE. -/
def scopeBytes (o : Nat) : List (Nat × Nat) := [(o, 0xF8), (o + 1, 0xFF), (o + 2, 0xFF), (o + 3, 0xFF)]

/-- DEPLOYED, with no session open. -/
def Dev.onlyDeployed (d : Dev) : Option Answer := if d.inDeployed then none else some ansLife

def cmdChallenge : Command := checked 4 (scopeBytes 0) [] (fun d r =>
  gated (firstOf [d.onlyDeployed, (if d.keys.serviceKey = noKey then some (ansBad detState) else none)]) d (fun _ =>
    let v : BitVec 256 := d.freeVal 256
    let bs := putLE 32 v.toNat
    ({ d.freeNext with lcy := { d.lcy with nonce := some { bytes := bs, scope := BitVec.ofNat 32 (r.u 4 0) } } },
     some (ansOk bs))))

def execServiceChallenge (s : State) : Host.Outcome State Fault Refusal := finish s (s.dev.imfa 0x0601 cmdChallenge)

/-- The delay is checked before the nonce, which the attempt before has used up (DEDUCED, log 59: the worked example of the
rule's chapter). -/
def cmdResponse : Command := checked 32 [] [] (fun d r =>
  gated d.delayed d (fun _ =>
    match d.lcy.nonce with
    | none => (d, some (ansBad detState))
    | some n =>
      let want := hmacSha256 d.keys.serviceKey (n.bytes ++ serialBytes ++ putLE 4 n.scope.toNat)
      let d := { d with lcy := { d.lcy with nonce := none } }
      let (d, a) := d.attempt 1 n.scope (decide (want = r.params))
      (d, some a)))

def execServiceResponse (s : State) : Host.Outcome State Fault Refusal := finish s (s.dev.imfa 0x0602 cmdResponse)

def cmdPassword : Command := checked 20 (scopeBytes 16) [] (fun d r =>
  gated (firstOf [(if (r.u 1 16).testBit 2 then some (ansBad detRange 16) else none), d.onlyDeployed,
      (if d.keys.passwordHash = noKey then some (ansBad detState) else none), d.delayed]) d (fun _ =>
    let (d, a) := d.attempt 2 (BitVec.ofNat 32 (r.u 4 16))
      (decide (sha256 (slice r.params 0 16 ++ serialBytes) = d.keys.passwordHash))
    (d, some a)))

def execServicePassword (s : State) : Host.Outcome State Fault Refusal := finish s (s.dev.imfa 0x0603 cmdPassword)

def cmdServiceClose : Command := checked 0 [] [] (fun d _ => (d.endSession 1, some (ansOk)))

def execServiceClose (s : State) : Host.Outcome State Fault Refusal := finish s (s.dev.imfa 0x0604 cmdServiceClose)

/-- NONCE_EXPIRY: 60 s after its challenge. -/
def execNonceExpiry (s : State) : Host.Outcome State Fault Refusal :=
  finish s { s.dev with lcy := { s.dev.lcy with nonce := none } }

/-- The provisioned entries, a bit each. -/
def KeyStore.provisioned (k : KeyStore) : Nat :=
  b2n (k.userKeyHash ≠ noKey) + 2 * b2n (k.userKey ≠ noKey) + 4 * b2n (k.serviceKey ≠ noKey) + 8 * b2n (k.passwordHash ≠ noKey)

/-- SCOPE of the open session, else 0. -/
def Dev.scopeNow (d : Dev) : Word := d.lcy.scope.getD 0

def cmdLcyInfo : Command := checked 0 [] [] (fun d _ =>
  (d, some (ansOk ([BitVec.ofNat 8 d.lcCode, d.keys.attempts, BitVec.ofNat 8 d.keys.provisioned, 0] ++ putLE 4 d.delayMs ++
    putLE 4 d.scopeNow.toNat))))

def execLcyInfo (s : State) : Host.Outcome State Fault Refusal := finish s (s.dev.imfa 0x0600 cmdLcyInfo)

/-! ## Transitions (R548 to R550) -/

def lcOf : Nat → LcState
  | 0 => .manufacture
  | 1 => .opened
  | 4 => .retired
  | _ => .deployed

/-- Why a transition is refused, none where it may be made. -/
def Dev.transitionRefused (d : Dev) (target confirm : Nat) : Option Answer :=
  if target = 3 ∨ target = d.lcCode then some (ansBad detRange 0)
  else if confirm ≠ (if target = 4 then 0x54455254 else 0) then some (ansBad detRange 4)
  else match d.lcCode, target with
    | 0, 1 => none
    | 1, 2 => if d.keys.userKeyHash = noKey then some (ansBad detState) else none
    | 1, 4 => none
    | 3, 4 => if d.served 2 then none else some ansLife
    | _, _ => some ansLife

/-- The columns of R549 that a transition wipes or erases, from left to right. -/
def wipeColumns (target : Nat) : Nat := if target = 2 then 1 else 0xF

/-- The keys as the wipes leave them. -/
def KeyStore.wiped (k : KeyStore) (hash : Bool) : KeyStore :=
  { k with userKey := noKey, serviceKey := noKey, passwordHash := noKey,
           userKeyHash := if hash then noKey else k.userKeyHash }

/-- A transition: the state, the wipes, the log entry, and the reset where an erase follows. -/
def Dev.transition (d : Dev) (target : Nat) : Dev :=
  let old := d.lcCode
  let erase := decide (target ≠ 2)
  let k := if erase then d.keys.wiped true else d.keys
  let k := (if target = 1 then k.count 0 else k).enter (lcOf target)
  let d := { d with keys := { k with wipePending := k.wipePending || erase },
                    lcy := { d.lcy with scope := none } }
  let d := d.wipeSession
  let d := d.logEntry 0x30 srcLifecycle Path.chip [BitVec.ofNat 8 old, BitVec.ofNat 8 target, BitVec.ofNat 8 (wipeColumns target)]
  let d := d.cond erase (fun d => { d with hive := { d.hive with due := d.hive.due ++ [.lifecycle] } })
  d.permitsSet

def cmdTransition : Command := checked 8 (zb [1, 2, 3]) [(0, 1, 0, 4)] (fun d r =>
  let target := r.u 1 0
  gated (d.transitionRefused target (r.u 4 4)) d (fun _ => (d.transition target, some (ansOk [BitVec.ofNat 8 target]))))

def execLcyTransition (s : State) : Host.Outcome State Fault Refusal := finish s (s.dev.imfa 0x0605 cmdTransition)

/-- LIFECYCLE_WIPE_DONE: the firn slot, the slots, the library and the user data are erased; `failing` names physical
sectors whose erases fail verification to the end. -/
def Dev.wipeStore (d : Dev) (failing : List Nat) : Dev :=
  if d.keys.wipePending && d.lcy.wiping && !d.rbit nvsStatus 30 && d.nvAwake && !d.nvHold then
    let d := d.forEach ([0, 1, 2] ++ List.range' 16 16) (fun d t => d.cond (d.dirValid t) (fun d => d.setDir t 0 0))
    let d := d.forEach (List.range 2944) (fun d l => d.eraseWhole l erWipe failing)
    let d := { d with keys := { d.keys with wipePending := false }, lcy := { d.lcy with wiping := false } }
    d.setRbit nvsStatus 31 true
  else d

def execLifecycleWipeDone (failing : List Nat) (s : State) : Host.Outcome State Fault Refusal :=
  finish s (s.dev.wipeStore failing)

/-! ## Keys and tamper (R557 to R560) -/

/-- The sources tripped at present: those that are enabled and whose condition holds (R558). -/
def Dev.tripped (d : Dev) : BitVec 4 := d.lcy.tamperNow &&& d.keys.tamperCfg

/-- The wipe of a tamper event. -/
def Dev.tamperWipe (d : Dev) : Dev :=
  let d := (d.endSession 4).wipeSession
  { d with keys := d.keys.wiped false }

def KeyStore.put (k : KeyStore) (kind : Nat) (v : List Byte) : KeyStore :=
  match kind with
  | 1 => { k with userKeyHash := v }
  | 2 => { k with userKey := v }
  | 3 => { k with serviceKey := v }
  | _ => { k with passwordHash := v }

def cmdKeyProvision : Command := checked 36 (zb [1, 2, 3]) [(0, 1, 1, 4)] (fun d r =>
  let kind := r.u 1 0
  let v := slice r.params 4 32
  gated (firstOf [(if d.inManufacture || d.inOpen then none else some ansLife),
      (if bit d.lcy.tamperNow 0 then some (ansBusy 0) else none)]) d (fun _ =>
    let d := { d with keys := d.keys.put kind v }
    let d := d.logEntry 0x33 srcLifecycle Path.chip [BitVec.ofNat 8 kind, BitVec.ofNat 8 (b2n (v ≠ noKey))]
    (d.cond (decide (d.tripped ≠ 0)) Dev.tamperWipe, some (ansOk))))

def execKeyProvision (s : State) : Host.Outcome State Fault Refusal := finish s (s.dev.imfa 0x0606 cmdKeyProvision)

/-- The record of trips and their escalation (R560). -/
def Dev.recordTrip (d : Dev) (sources : List Nat) : Dev :=
  let d := (d.forEach sources (fun d x => d.setRbit lcyTamperStatus x true)).count lcyTamperCount
  d.escalate clsTamper srcLifecycle Path.chip (putLE 2 (d.reg lcyTamperStatus).toNat)

/-- TAMPER_TRIP: the condition of source 0 TAMPER_N, 1 supply, 2 clock, 3 temperature comes, while VCC_AUX feeds the sensors; it
trips where it is enabled. `lost`: a loss of power cuts the wipe short, and the power-on reset holds (R559). -/
def Dev.tamperTrip (d : Dev) (source : Nat) (lost : Bool) : Dev :=
  if d.power.por then d
  else
    let d := { d with lcy := { d.lcy with tamperNow := setBit d.lcy.tamperNow source true } }
    if !bit d.keys.tamperCfg source then d
    else if lost then ({ d with keys := { d.keys with cut := setBit d.keys.cut source true } }).powerOnReset
    else d.tamperWipe.recordTrip [source]

/-- At power-good the lifecycle machine completes a wipe that a loss of power has cut short, and records its trip (R559). The
secure partitions and the session area have gone with the power. -/
def Dev.completeWipe (d : Dev) : Dev :=
  if d.keys.cut = 0 then d
  else
    let trips := (List.range 4).filter (fun x => bit d.keys.cut x)
    ({ d with keys := { d.keys.wiped false with cut := 0 } }).recordTrip trips

def execTamperTrip (source : Fin 4) (lost : Bool) (s : State) : Host.Outcome State Fault Refusal :=
  finish s (s.dev.tamperTrip source.val lost)

def execTamperSourceClear (source : Fin 4) (s : State) : Host.Outcome State Fault Refusal :=
  finish s { s.dev with lcy := { s.dev.lcy with tamperNow := setBit s.dev.lcy.tamperNow source.val false } }

/-! ## The watchdog (R564, R565) -/

/-- A heartbeat restarts the count, and says that the hive is out of reset; other values are ignored. -/
def Dev.wdogWrite (d : Dev) (v : Word) : Dev :=
  if v = 0xA5 then ({ d with hive := { d.hive with wdogFrom := d.time.uptime } }).hiveResetEnds else d

def execWatchdogKick (id : Fin 13) (v : Word) (s : State) : Host.Outcome State Fault Refusal :=
  finishBy id s (hiveWrite s.dev id lcyWdog (fun d => d.wdogWrite v))

/-- A watchdog reset: the hive is reset alone; after the third before READY the other firmware slot starts, and after three of
that one the hive stays held. -/
def Dev.watchdogReset (d : Dev) : Dev :=
  let early := d.hive.wdogEarly + b2n (!d.hive.ready)
  let switch := decide (early = 3 ∧ d.hive.wdogEarly = 2)
  let row := min 255 (d.hive.wdogRow.toNat + 1)
  let d := d.hiveReset causeHiveWdog
  let d := { d with hive := { d.hive with wdogRow := BitVec.ofNat 8 row, wdogEarly := early, failed := decide (6 ≤ early),
                                          fwSlot := if switch then !d.hive.fwSlot else d.hive.fwSlot } }
  let d := d.escalate clsWatchdog srcWatchdog Path.chip (putLE 1 row)
  d.cond switch (fun d => d.logEntry 0x35 srcHive Path.chip [BitVec.ofNat 8 (b2n d.hive.fwSlot)])

/-- The least time from a heartbeat to the watchdog's limit, 1.90 s (R564), in units of 2⁻³² ns. -/
def wdogLeast : Nat := 1900000000 * 2 ^ 32

/-- The limit can have passed: the latest heartbeat, or the end of the latest reset, lies that far back. -/
def Dev.wdogOver (d : Dev) : Bool := decide (wdogLeast ≤ d.time.uptime.toNat - d.hive.wdogFrom.toNat)

/-- WATCHDOG_EXPIRY: the hive has not written its heartbeat for the limit. -/
def Dev.watchdog (d : Dev) : Dev := if d.hiveRuns && d.wdogOver then d.watchdogReset else d

def execWatchdogExpiry (s : State) : Host.Outcome State Fault Refusal := finish s s.dev.watchdog

/-! ## The log (R540, R566 to R572) -/

/-- The log is cleared: every entry goes, LOG_LOST is 0, and one LOG_CLEARED entry is written. -/
def Dev.logClear (d : Dev) (by_ : Nat) : Dev :=
  let n := d.log.entries.length
  let lost := d.log.lost.toNat
  let d := { d with log := { d.log with entries := [], lost := 0, wrapped := false } }
  d.logNow 0x36 srcLog Path.chip (putLE 4 n ++ putLE 4 lost ++ [BitVec.ofNat 8 by_])

def Dev.logOldest (d : Dev) : Word := (d.log.entries.head?.map (fun e => e.seq)).getD 0
def Dev.logNewest (d : Dev) : Word := (d.log.entries.getLast?.map (fun e => e.seq)).getD 0

def cmdLogInfo : Command := checked 0 [] [] (fun d _ =>
  (d, some (ansOk (putLE 4 d.log.entries.length ++ putLE 4 d.log.lost.toNat ++ putLE 4 d.logOldest.toNat ++
    putLE 4 d.logNewest.toNat))))

def execLogInfo (s : State) : Host.Outcome State Fault Refusal := finish s (s.dev.imfa 0x0700 cmdLogInfo)

/-- Entries from a sequence number on: from the oldest where FIRST is not later than it under R15. -/
def LogState.fromSeq (l : LogState) (first : Word) : List LogEntry :=
  l.entries.dropWhile (fun e => laterSeq 32 first.toNat e.seq.toNat)

def cmdLogRead : Command := checked 8 (zb [6, 7]) [(4, 2, 1, 512)] (fun d r =>
  let es := (d.log.fromSeq (BitVec.ofNat 32 (r.u 4 0))).take (r.u 2 4)
  let seq := (es.head?.map (fun e => e.seq.toNat)).getD (r.u 4 0)
  if !replyFits r (8 + 32 * es.length) then (d, some (ansBad detTransport))
  else (d, some (ansOk (putLE 4 seq ++ putLE 2 es.length ++ zeros 2 ++ es.flatMap LogEntry.bytes))))

def execLogRead (s : State) : Host.Outcome State Fault Refusal := finish s (s.dev.imfa 0x0701 cmdLogRead)

def cmdLogClear : Command := checked 0 [] [] (fun d r =>
  let d := d.logClear (viaNum r.via)
  (d, some (ansOk (putLE 4 d.logNewest.toNat))))

def execLogClear (s : State) : Host.Outcome State Fault Refusal := finish s (s.dev.imfa 0x0702 cmdLogClear)

/-- A write of LOG_CTRL by the hive. -/
def Dev.logCtrlWrite (d : Dev) (v : Word) : Dev := d.cond (bit v 0) (fun d => d.logClear 0xFF)

def execLogCtrlClear (id : Fin 13) (v : Word) (s : State) : Host.Outcome State Fault Refusal :=
  finishBy id s (hiveWrite s.dev id 0x700018 (fun d => d.logCtrlWrite v))

/-- A write of LOG_SEL takes the writer's snapshot. -/
def Dev.logSelWrite (d : Dev) (id : Fin 13) (v : Word) : Dev :=
  if d.granted id 8 then
    let e := d.log.entries.find? (fun e => decide (e.seq = v))
    let d := d.setIdReg id.val logSel v
    { d with log := { d.log with snaps := mset (fun _ => none) d.log.snaps id.val e } }
  else d.ctrlDecode id.val true false logSel

def execLogSelWrite (id : Fin 13) (v : Word) (s : State) : Host.Outcome State Fault Refusal := finishBy id s (s.dev.logSelWrite id v)

/-- TELEMETRY. -/
def cmdTelemetry : Command := checked 0 [] [] (fun d _ =>
  let rungs := bits (d.reg pwrStatus) 0 4
  (d, some (ansOk ((List.range 8).flatMap (fun s => putLE 2 (d.reg (pwrTemp s)).toNat) ++
    (List.range 11).flatMap (fun r => putLE 2 (d.reg (pwrRail r)).toNat) ++ zeros 2 ++ putLE 4 (d.reg chipErrPending).toNat ++
    putLE 1 rungs ++ zeros 3))))

def execTelemetry (s : State) : Host.Outcome State Fault Refusal := finish s (s.dev.imfa 0x0703 cmdTelemetry)

/-! ## LCY_ and LOG_ registers -/

/-- LCY_WDOG_STATUS: resets before READY of the running slot. -/
def Dev.wdogStatus (d : Dev) : Word :=
  let e := d.hive.wdogEarly
  BitVec.ofNat 32 (b2n d.hive.failed * 2 ^ 31 + (if e < 3 then e else if e < 6 then e - 3 else 3))

/-- LCY_STATUS (R575). -/
def Dev.lcyStatusWord (d : Dev) : Word :=
  BitVec.ofNat 32 (b2n d.lcy.wiping * 2 ^ 31 + b2n (d.tripped ≠ 0) * 2 ^ 30 + d.keys.attempts.toNat * 256 +
    bits d.scopeNow 0 3 * 16 + d.lcCode)

/-- A write by the hive of an LCY_ or LOG_ register that has its own meaning. A source whose condition holds trips as it is
enabled (R558). -/
def Dev.lcyWrite (d : Dev) (off : Nat) (v : Word) : Dev :=
  if off = lcyWdog then d.wdogWrite v
  else if off = lcyTamperCfg then
    (if d.inManufacture || d.inOpen then
      let now := (List.range 4).filter (fun x => bit v x && !bit d.keys.tamperCfg x && bit d.lcy.tamperNow x)
      ({ d with keys := { d.keys with tamperCfg := v.setWidth 4 } }).forEach now (fun d x => d.tamperTrip x false)
     else d.ctrlDecode 0 true false off)
  else if off = lcyTamperStatus then d.setReg off (d.reg off &&& ~~~v)
  else if off = 0x700018 then d.logCtrlWrite v
  else d

/-- The computed LCY_ and LOG_ registers. -/
def Dev.lcyView (d : Dev) (id : Fin 13) (off : Nat) : Option Word :=
  let snap := mget (fun _ => none) d.log.snaps id.val
  if off = lcyStatus then some d.lcyStatusWord
  else if off = lcyDelay then some (BitVec.ofNat 32 d.delayMs)
  else if off = lcyTamperCfg then some (d.keys.tamperCfg.setWidth 32)
  else if off = lcyWdogStatus then some d.wdogStatus
  else if off = 0x700000 then some (BitVec.ofNat 32 (b2n d.log.wrapped * 2 ^ 31 + b2n snap.isSome * 2 ^ 30))
  else if off = 0x700004 then some (BitVec.ofNat 32 d.log.entries.length)
  else if off = 0x700008 then some d.log.lost
  else if off = 0x70000C then some d.logOldest
  else if off = 0x700010 then some d.logNewest
  else if 0x700020 ≤ off ∧ off < 0x700040 then
    some (match snap with
      | some e => BitVec.ofNat 32 (getLE 4 e.bytes (off - 0x700020))
      | none => 0)
  else none

end Sys2Proof.Machine
end

