-- ==== Sys2Proof/Machine/Dma.lean ====
section
/-! DEFINITION. The DMA engines and the translation unit at work, and their registers (R478 to R509). -/
namespace Sys2Proof.Machine

/-! ## Groups of transfer cells (R483, R484) -/

def Dev.setGroup (d : Dev) (e c : Nat) (g : DmaGroup) : Dev :=
  d.updChan e c (fun x => { x with groups := x.groups.map (fun h => if h.off = g.off then g else h) })

/-- Groups at the front whose cells are all done leave; the offset of the next one is the bytes done. -/
def Dev.dropDone (d : Dev) (e c : Nat) : Dev :=
  d.updChan e c (fun x => { x with groups := x.groups.dropWhile (fun g => decide (g.st = .done)) })

/-- The virtual destination of a group. -/
def DmaChan.dstOf (x : DmaChan) (g : DmaGroup) : Nat := (dDst x.desc + g.off) % 2 ^ 40

/-- A request of a group to a virtual address: it is issued under the translation that holds now, so that none is issued
under one that an invalidation has removed (R494); a suspended server is waited for. -/
def Dev.sendTo (d : Dev) (e c : Nat) (g : DmaGroup) (write : Bool) (len va : Nat) : Option Dev :=
  let x := d.dmaChan e c
  let phase := if write then 2 else 1
  match d.xlate e c va phase (some g.off) with
  | .miss => d.startWalk e c va phase
  | .fault f => some (d.faultFound e c f)
  | .hit pa =>
    let s := (d.serverOf pa).getD 20
    if d.serverSuspended s then (if x.state = .waitTest then none else some (d.enterWait e c s))
    else if d.canSend e s (if write then 1 else (79 + len) / 64) then
      let d := d.touch e c va
      some (if write then
          (d.setGroup e c { g with st := .writing }).sendReq e c s (.write g.off) (dClass x.desc) 1 len pa g.data
        else (d.setGroup e c { g with st := .reading }).sendReq e c s (.read g.off) (dClass x.desc) 2 len pa [])
    else none

/-- The next message of a group. -/
def Dev.sendGroup (d : Dev) (e c : Nat) (g : DmaGroup) : Option Dev :=
  match g.st, g.parts with
  | .toRead, (va, len) :: _ => d.sendTo e c g false len va
  | .toWrite, _ =>
    if isM2F (d.dmaChan e c).desc then none else d.sendTo e c g true g.len ((d.dmaChan e c).dstOf g)
  | _, _ => none

/-- A group that has a message to send. -/
def DmaChan.unsent (x : DmaChan) (g : DmaGroup) : Bool :=
  decide (g.st = .toRead) || (decide (g.st = .toWrite) && !isM2F x.desc)

/-- The groups that may still send: before the resume point of a fault that is pending. -/
def DmaChan.sendable (x : DmaChan) : List DmaGroup :=
  x.groups.filter (fun g => x.unsent g && (match x.fault with
    | some f => decide (g.off < f.off.getD 0)
    | none => true))

/-- Translations of a group's addresses, in transfer order. -/
inductive XlateAll where
  | hit
  | miss (va phase : Nat)
  | fault (f : FaultInfo)
  deriving DecidableEq, Repr

def Dev.xlateAll (d : Dev) (e c off : Nat) : List (Nat × Nat) → XlateAll
  | [] => .hit
  | (va, phase) :: rest =>
    match d.xlate e c va phase (some off) with
    | .miss => .miss va phase
    | .fault f => .fault f
    | .hit _ => d.xlateAll e c off rest

/-- The entries that translate addresses, up to the first that none translates, become the latest used ones. -/
def Dev.touchAll (d : Dev) (e c : Nat) : List (Nat × Nat) → Dev
  | [] => d
  | (va, phase) :: rest =>
    match d.xlate e c va phase none with
    | .hit _ => (d.touch e c va).touchAll e c rest
    | _ => d

/-- A new group at `next`: its source pieces, its destination, and its data where they are known. -/
def Dev.openGroup (d : Dev) (e c len : Nat) (srcs : List (Nat × Nat)) (dst : Option Nat) (data : Option (List Byte)) :
    Option Dev :=
  let x := d.dmaChan e c
  let vas := srcs.map (fun s => (s.1, 1)) ++ dst.toList.map (fun t => (t, 2))
  match d.xlateAll e c x.next vas with
  | .miss va phase => (d.touchAll e c vas).startWalk e c va phase
  | .fault f => some ((d.touchAll e c vas).faultFound e c f)
  | .hit =>
    let d := d.touchAll e c vas
    let g : DmaGroup := { off := x.next, len, parts := if data.isSome then [] else srcs, data := data.getD [],
                          st := if data.isSome then .toWrite else .toRead }
    let d := d.updChan e c (fun x => { x with groups := x.groups ++ [g], next := x.next + len,
                                              kept := x.kept.filter (fun k => decide (k.1 ≠ g.off)) })
    some ((d.sendGroup e c g).getD d)

/-- The length and the source pieces of an M2M group at an offset: whole transfer cells in one page of both sides, or one
transfer cell whose source lies in two pages. -/
def m2mSpan (b : List Byte) (o : Nat) : Nat × List (Nat × Nat) :=
  let s := (dSrc b + o) % 2 ^ 40
  let t := (dDst b + o) % 2 ^ 40
  let rem := dLen b - o
  let roomS := 4096 - s % 4096
  let n := min rem (min roomS (4096 - t % 4096))
  if n = rem ∨ n = 4096 - t % 4096 then (n, [(s, n)])
  else if (t + n) % 64 < n then (n - (t + n) % 64, [(s, n - (t + n) % 64)])
  else
    let m := min rem (64 - t % 64)
    (m, [(s, roomS), ((s + roomS) % 2 ^ 40, m - roomS)])

def Dev.newM2M (d : Dev) (e c : Nat) : Option Dev :=
  let x := d.dmaChan e c
  let dst := some ((dDst x.desc + x.next) % 2 ^ 40)
  let span := m2mSpan x.desc x.next
  let data := (x.kept.find? (fun k => decide (k.1 = x.next))).map (·.2)
  d.openGroup e c span.1 span.2 dst data

def Dev.newM2F (d : Dev) (e c : Nat) : Option Dev :=
  let x := d.dmaChan e c
  let s := (dSrc x.desc + x.next) % 2 ^ 40
  let n := min (dLen x.desc - x.next) (4096 - s % 4096)
  d.openGroup e c n [(s, n)] none none

/-! ## M2F cells (R482) -/

/-- A cell of a flow at the engine's ingress. -/
def Dev.presentCell (d : Dev) (e c f : Nat) (som eom err : Bool) (bs : List Byte) : Dev :=
  let cell : Cell :=
    { flow := BitVec.ofNat 12 f, som, eom, err, acc := false, cls := 0, aspace := BitVec.ofNat 6 (d.chSpace e c), src := 0,
      dest := BitVec.ofNat 6 (d.flow f).dest.toNat, bytes := if eom then BitVec.ofNat 6 (bs.length % 64) else 0,
      astamp := 0, payload := fit 64 bs, num := 0 }
  ((d.takeCell (49 + e) cell).statUp (dmaBytes e) bs.length).statUp (dmaChBytes e c) bs.length

/-- The next cell of the open message, where its bytes are there and the flow can take it; a partly filled cell at the
end of a descriptor waits for the next one. -/
def Dev.sendCell (d : Dev) (e c : Nat) : Option Dev :=
  let x := d.dmaChan e c
  let f := dFlow x.desc
  let n := x.cellTakes
  if n = 0 ∨ x.ready.length < n then none
  else
    let bs := x.part ++ x.ready.take n
    let sent := x.sent + n
    let eom := decide (sent = dLen x.desc) && dEom x.desc
    let x' : DmaChan := { x with sent, groups := x.groups.filter (fun g => decide (sent < g.off + g.len)) }
    if bs.length < 64 ∧ eom = false then some ((d.setDmaChan e c { x' with part := bs, msgOpen := true }).faultDue e c)
    else if !d.txQready (49 + e) f || decide (ingressDepth ≤ (d.ing (49 + e)).queue.length) then none
    else if (d.flow f).m.toNat < x.msgCells + 1 then
      some ((d.presentCell e c f x.somNext true true bs).endChain e c resMsgLen)
    else
      some (((d.presentCell e c f x.somNext eom false bs).setDmaChan e c
        { x' with part := [], somNext := false, msgOpen := !eom, msgCells := if eom then 0 else x.msgCells + 1 }).faultDue e c)

/-! ## F2M (R482, R486) -/

/-- The valid bytes of a cell. -/
def cellData (c : Cell) : List Byte := c.payload.take (cellBytes c)

/-- The cells of a flow in the store with the first `skip` bytes taken: the bytes, and where the first EOM cell ends. -/
def f2mStream (cs : List Cell) (skip : Nat) : List Byte × Option Nat :=
  let bs := (cs.flatMap cellData).drop skip
  let upTo := cs.takeWhile (fun c => !c.eom)
  (bs, if upTo.length < cs.length then
    some ((upTo.map cellBytes).sum + ((cs.drop upTo.length).head?.map cellBytes).getD 0 - skip) else none)

/-- Cells whose bytes have all been taken leave the store. -/
def f2mTake : List Cell → Nat → List Cell × Nat
  | [], _ => ([], 0)
  | c :: rest, n => if cellBytes c ≤ n then f2mTake rest (n - cellBytes c) else (c :: rest, n)

/-- The next group of an F2M descriptor: whole transfer cells, or what ends the descriptor. -/
def Dev.newF2M (d : Dev) (e c : Nat) : Option Dev :=
  let x := d.dmaChan e c
  let f := dFlow x.desc
  let t := (dDst x.desc + x.next) % 2 ^ 40
  match x.kept.find? (fun k => decide (k.1 = x.next)) with
  | some k => d.openGroup e c k.2.length [] (some t) (some k.2)
  | none =>
    let (bs, eomAt) := f2mStream (d.flowCells e f) x.skip
    let top := min (x.stop - x.next) (4096 - t % 4096)
    let closes : Bool := match eomAt with
      | some a => dEom x.desc && decide (a ≤ min bs.length top)
      | none => false
    let n := if closes then eomAt.getD 0 else min bs.length top
    let n := if closes ∨ n = top then n else n - (t + n) % 64
    if n = 0 ∨ bs.length < n then none
    else
      match d.xlate e c t 2 (some x.next) with
      | .hit _ =>
        let (cs, skip) := f2mTake (d.flowCells e f) (x.skip + n)
        let d := d.setRx (49 + e) ((d.rxCells (49 + e)).filter (fun c => decide (c.flow.toNat ≠ f)) ++ cs)
        let d := d.updChan e c (fun x => { x with skip, stop := if closes then x.next + n else x.stop })
        d.openGroup e c n [] (some t) (some (bs.take n))
      | _ => d.openGroup e c n [] (some t) (some (bs.take n))

/-! ## Binding (R486) -/

/-- Flows of channels whose chain has ended. -/
def Dev.unbindEnded (d : Dev) (e : Nat) : Dev :=
  d.forEach (List.range 16) (fun d c =>
    d.cond (decide ((d.dmaChan e c).state = .idle ∨ (d.dmaChan e c).state = .aborting)) (fun d => d.unbind e c))

/-! ## A channel's next action -/

/-- The descriptor's read. -/
def Dev.fetchDesc (d : Dev) (e c : Nat) : Option Dev :=
  let va := d.chDesc e c
  if (d.dmaChan e c).asked then none
  else if va % 32 ≠ 0 then some (d.endChain e c resBadDesc)
  else
    match d.xlate e c va 0 none with
    | .miss => d.startWalk e c va 0
    | .fault f => some (d.faultFound e c f)
    | .hit pa =>
      let s := (d.serverOf pa).getD 20
      if d.serverSuspended s then
        (if (d.dmaChan e c).state = .waitTest then none else some (d.enterWait e c s))
      else if d.canSend e s 1 then
        let d := d.touch e c va
        some ((d.updChan e c (fun x => { x with asked := true })).sendReq e c s .desc 1 2 32 pa [])
      else none

/-- The descriptor has been done in full. -/
def Dev.descDone (d : Dev) (e : Nat) (x : DmaChan) : Bool :=
  if isM2F x.desc then decide (x.sent = dLen x.desc) && !((d.ing (49 + e)).queue.any (fun c => decide (c.flow.toNat = dFlow x.desc)))
  else decide (x.next = x.stop) && decide (x.groups = [])

/-- The read of the channel's own walk. -/
def Dev.ownWalk (d : Dev) (e c : Nat) : Option Dev :=
  match (d.dmaEng e).walk with
  | some w => if w.chan.val = c ∧ w.asked = false ∧ w.stale = false then d.walkRead e w else none
  | none => none

/-- What the channel does next, where it can: its messages to send, its walk, its descriptor's read, the end of the
descriptor, or a new group. -/
def Dev.chanAct (d : Dev) (e c : Nat) : Option Dev :=
  let x := d.dmaChan e c
  match (x.sendable.findSome? (fun g => d.sendGroup e c g)), (if isM2F x.desc then d.sendCell e c else none) with
  | some d', _ => some d'
  | none, some d' => some d'
  | none, none =>
    if x.fault.isSome then none
    else if (d.dmaEng e).walk.any (fun w => decide (w.chan.val = c)) then d.ownWalk e c
    else if x.desc = [] then d.fetchDesc e c
    else if d.descDone e x then some (d.descEnds e c)
    else if x.groups.any x.unsent then none
    else if isM2M x.desc then (if x.next < x.stop then d.newM2M e c else none)
    else if isM2F x.desc then (if x.next < x.stop then d.newM2F e c else none)
    else if x.next < x.stop then d.newF2M e c
    else none

/-! ## Dead flows (R501) -/

/-- FLOW of a descriptor has stopped being LIVE. -/
def Dev.flowsGone (d : Dev) (e : Nat) : Dev :=
  d.forEach (List.range 16) (fun d c =>
    let x := d.dmaChan e c
    let runs := decide (x.state = .active) || decide (x.state = .preempted) || decide (x.state = .waitTest)
    d.cond (runs && decide (x.desc ≠ []) && !d.flowOk e x.desc) (fun d => d.endChain e c resFlow))

/-! ## DMA_ISSUE (R488) -/

/-- The channels that may be served, by priority and then in turn. -/
def Dev.dmaOrder (d : Dev) (e : Nat) : List Nat :=
  (List.range 8).flatMap (fun p =>
    let t := mget (fun _ => 0) (d.dmaEng e).turn p
    ((List.range 16).map (fun i => (t + i) % 16)).filter (fun c =>
      decide ((d.dmaChan e c).state = .active ∨ (d.dmaChan e c).state = .preempted) && decide (d.chPriority e c = p)))

/-- The channels that are ready while a channel of higher priority holds the engine are PREEMPTED (R479, R488). -/
def Dev.dmaPreempt (d : Dev) (e : Nat) : Dev :=
  match (d.dmaEng e).holder with
  | none => d
  | some h =>
    let below := (List.range 16).filter (fun c => decide ((d.dmaChan e c).state = .active) &&
      decide (d.chPriority e h.val < d.chPriority e c) && (d.chanAct e c).isSome)
    d.forEach below (fun d c => d.updChan e c (fun x => { x with state := .preempted }))

/-- The round of a priority after a channel of it has issued `n` bytes: the channel keeps its turn up to 4 KiB, or its
descriptor's end (R488). -/
def DmaEngine.issued (x : DmaEngine) (p c n : Nat) (ends : Bool) : DmaEngine :=
  let old := if mget (fun _ => 0) x.turn p = c then mget (fun _ => 0) x.burst p else 0
  let turns := ends || decide (4096 ≤ old + n)
  { x with turn := mset (fun _ => 0) x.turn p (if turns then (c + 1) % 16 else c),
           burst := mset (fun _ => 0) x.burst p (if turns then 0 else old + n) }

/-- Bytes of the descriptor that a channel has issued: for which groups were opened, or of an M2F descriptor sent. -/
def DmaChan.doneIssued (x : DmaChan) : Nat := if isM2F x.desc then x.sent else x.next

/-- DMA_ISSUE: the channel that goes next issues one message or cell, or takes its next step. -/
def Dev.dmaIssue (d : Dev) (e : Nat) : Dev :=
  let d := (d.dmaSuspend e).flowsGone e
  match (d.dmaOrder e).findSome? (fun c => (d.chanAct e c).map (fun d' => (c, d'))) with
  | none => (d.updEng e (fun x => { x with holder := none })).unbindEnded e
  | some (c, d') =>
    let x := d.dmaChan e c
    let y := d'.dmaChan e c
    let same := decide (y.desc = x.desc)
    let n := if same then y.doneIssued - x.doneIssued else 0
    let ends := (!same && decide (x.desc ≠ [])) || decide (y.state = .idle)
    let d' := d'.updChan e c (fun z => if z.state = .preempted then { z with state := .active } else z)
    let holds := decide ((d'.dmaChan e c).state = .active)
    let d' := d'.updEng e (fun z => { z.issued (d.chPriority e c) c n ends with
      holder := if holds then some (Fin.ofNat 16 c) else none })
    ((d'.dmaPreempt e).unbindEnded e)

def execDmaIssue (e : Fin 2) (s : State) : Host.Outcome State Fault Refusal := finish s (s.dev.dmaIssue e.val)

/-! ## Answers (R487, R495 to R497, R501) -/

/-- What an answer says. -/
inductive AnsKind where
  | ok
  | inTest
  | uncorrectable
  | fault (kind detail : Nat)
  | unstated
  deriving DecidableEq, Repr

/-- `want` is the number of data bytes that a good answer carries. -/
def ansKind (h : List Byte) (err : Bool) (len want : Nat) : AnsKind :=
  let status := getLE 2 h 14
  let reason := getLE 1 h 13
  if err then .unstated
  else if status = stOk then (if len = want then .ok else .unstated)
  else if status = stInTest then .inTest
  else if status = stBadParam ∧ reason = 4 then .fault 3 0x20
  else if status = stBadParam ∧ reason = 9 then .fault 3 0x21
  else if status = stBadParam ∧ reason = 5 then .fault 5 0x40
  else if status = stBadParam ∧ reason = 7 then .uncorrectable
  else .unstated

/-- A descriptor has arrived. -/
def Dev.descArrived (d : Dev) (e c : Nat) (b : List Byte) : Dev :=
  let x := d.dmaChan e c
  if d.descOk e b x.msgOpen then
    let f : BitVec 12 := BitVec.ofNat 12 (dFlow b)
    let d := if isF2M b ∧ x.bound = some f then d else d.unbind e c
    d.updChan e c (fun x => { x with
      desc := b, asked := false, next := 0, stop := dLen b, groups := [], kept := [], sent := 0,
      somNext := if isM2F b then x.somNext || dSom b else x.somNext, msgOpen := x.msgOpen || (isM2F b && dSom b),
      msgCells := if isM2F b && dSom b then 0 else x.msgCells, bound := if isF2M b then some f else none })
  else d.endChain e c resBadDesc

/-- A group's data or acknowledgement has arrived. -/
def Dev.readArrived (d : Dev) (e c off : Nat) (data : List Byte) : Dev :=
  d.updChan e c (fun x => { x with groups := x.groups.map (fun g =>
    if g.off = off then
      { g with data := g.data ++ data, parts := g.parts.tail, st := if g.parts.tail = [] then .toWrite else .toRead }
    else g) })

def Dev.writeArrived (d : Dev) (e c off : Nat) : Dev :=
  let len := (((d.dmaChan e c).groups.find? (fun g => decide (g.off = off))).map (fun g => g.len)).getD 0
  let d := d.updChan e c (fun x => { x with groups := x.groups.map (fun g => if g.off = off then { g with st := .done } else g) })
  ((d.statUp (dmaBytes e) len).statUp (dmaChBytes e c) len).dropDone e c

/-- The walk's entry has arrived. -/
def Dev.walkArrived (d : Dev) (e : Nat) (data : List Byte) : Dev :=
  match (d.dmaEng e).walk with
  | none => d
  | some w => d.walkEntry e w (getLE 8 data 0)

/-- A fault that an answer shows. -/
def Dev.answerFault (d : Dev) (e : Nat) (r : DmaReq) (h : List Byte) (kind detail : Nat) : Dev :=
  let c := r.chan.val
  let x := d.dmaChan e c
  let f (phase va : Nat) (off : Option Nat) : FaultInfo :=
    { kind, detail, phase, walk := false, va := va % 2 ^ 40, pa := getLE 5 h 8, level := 0, off }
  match r.kind with
  | .desc => d.faultFound e c (f 0 (d.chDesc e c) none)
  | .walk => match (d.dmaEng e).walk with
    | some w => d.walkFault e w kind detail
    | none => d
  | .read off =>
    let part := (x.groups.find? (fun g => decide (g.off = off))).bind (fun g => g.parts.head?)
    d.faultFound e c (f 1 ((part.map (·.1)).getD (dSrc x.desc + off)) (some off))
  | .write off => d.faultFound e c (f 2 (dDst x.desc + off) (some off))

/-- The bytes that a good answer to a request carries. -/
def Dev.wanted (d : Dev) (e : Nat) (r : DmaReq) : Nat :=
  match r.kind with
  | .desc => 32
  | .walk => 8
  | .read off => (((d.dmaChan e r.chan.val).groups.find? (fun g => decide (g.off = off))).bind (fun g => g.parts.head?)).elim 0 (·.2)
  | .write _ => 0

/-- The channel that repeated a request gets its first OK: it is ACTIVE again. -/
def Dev.waitOver (d : Dev) (e : Nat) (r : DmaReq) : Dev :=
  d.updChan e r.chan.val (fun x =>
    if x.state = .waitTest ∧ x.trying = some r.tag then { x with state := .active, trying := none } else x)

/-- The walk that a request reads for, where an invalidation has struck it: the answer is discarded, whatever it says, and the
walk is repeated (R494). -/
def Dev.staleWalk (d : Dev) (e : Nat) (r : DmaReq) : Option Walk :=
  if r.kind = .walk then (d.dmaEng e).walk.filter (fun w => w.stale) else none

/-- An answer to a live request. An answer that R495 and R501 do not name faults the channel with a free KIND and DETAIL. -/
def Dev.answered (d : Dev) (e : Nat) (r : DmaReq) (h data : List Byte) (err : Bool) : Dev :=
  let c := r.chan.val
  match d.staleWalk e r with
  | some w => (d.updChan e c (fun x => if x.trying = some r.tag then { x with trying := none } else x)).redoWalk e w
  | none =>
  match ansKind h err data.length (d.wanted e r) with
  | .ok =>
    let d := d.waitOver e r
    let d := match r.kind with
      | .desc => d.descArrived e c data
      | .walk => d.walkArrived e data
      | .read off => d.readArrived e c off data
      | .write off => d.writeArrived e c off
    d.faultDue e c
  | .inTest => d.inTest e r
  | .uncorrectable => d.endChain e c resUncorrectable
  | .fault kind detail => d.answerFault e r h kind detail
  | .unstated =>
    let k : BitVec 8 := d.freeVal 8
    let t : BitVec 8 := d.freeNext.freeVal 8
    d.freeNext.freeNext.answerFault e r h k.toNat t.toNat

/-- The first whole message of a reply flow is taken from the store and given to the request that its TAG names, where
that is of the kind `p`; a message that answers nothing is discarded. -/
def Dev.takeAnswer (d : Dev) (e : Nat) (f : BitVec 12) (p : ReqKind → Bool) (stray : Bool) : Dev :=
  if !d.isReplyFlow e f.toNat then d
  else
    match takeMessage f (d.rxCells (49 + e)) with
    | none => d
    | some (m, rest) =>
      let bs := messageBytes m
      match (d.dmaEng e).reqs.find? (fun r => decide (r.tag.toNat = getLE 2 bs 6)) with
      | none => if stray then d.setRx (49 + e) rest else d
      | some r =>
        if !p r.kind then d
        else
          let d := (d.setRx (49 + e) rest).updEng e (fun x => { x with reqs := x.reqs.filter (fun q => decide (q.tag ≠ r.tag)) })
          let d := if r.dead then d else d.answered e r (bs.take 16) (bs.drop 16) (m.any (fun c => c.err))
          ((d.abortEnds e r.chan.val).unbindEnded e)

def execDmaDescFetched (e : Fin 2) (f : BitVec 12) (s : State) : Host.Outcome State Fault Refusal :=
  finish s (s.dev.takeAnswer e.val f (fun k => decide (k = .desc)) false)

def execDmaWalkDone (e : Fin 2) (f : BitVec 12) (s : State) : Host.Outcome State Fault Refusal :=
  finish s (s.dev.takeAnswer e.val f (fun k => decide (k = .walk)) false)

def execDmaAnswer (e : Fin 2) (f : BitVec 12) (s : State) : Host.Outcome State Fault Refusal :=
  finish s (s.dev.takeAnswer e.val f (fun k => decide (k ≠ .desc) && decide (k ≠ .walk)) true)

/-- DMA_F2M_CELL: the handover of a cell of a flow that no route of the engine names. -/
def execDmaF2mCell (e : Fin 2) (f : Fin 4096) (s : State) : Host.Outcome State Fault Refusal :=
  finish s (if s.dev.isReplyFlow e.val f.val then s.dev else s.dev.handover (49 + e.val) f.val true)

/-! ## WAIT_TEST (R496) -/

/-- The request that a channel in WAIT_TEST waits to repeat, or has repeated: its walk's read, its descriptor's, or that of a
group of transfer cells, the first of them in transfer order. -/
def Dev.waitingFor (d : Dev) (e c : Nat) : Option ReqKind :=
  let x := d.dmaChan e c
  let walk := (d.dmaEng e).walk.filter (fun w => decide (w.chan.val = c) && !w.asked)
  let group := (x.groups.filter x.unsent).head?
  let kind (g : DmaGroup) : ReqKind := if g.st = .toRead then .read g.off else .write g.off
  match x.trying.bind (fun t => (d.dmaEng e).reqs.find? (fun r => decide (r.tag = t) && !r.dead)) with
  | some r => some r.kind
  | none =>
    if x.desc = [] then (if walk.isSome then some .walk else if x.asked then none else some .desc)
    else match walk, group with
      | some w, some g => some (if (x.walkOff w.va).getD 0 ≤ g.off then .walk else kind g)
      | some _, none => some .walk
      | none, some g => some (kind g)
      | none, none => none

/-- The first unanswered request is repeated. -/
def Dev.waitRetry (d : Dev) (e c : Nat) : Dev :=
  let d := d.dmaSuspend e
  let x := d.dmaChan e c
  if x.state = .waitTest ∧ x.trying = none then
    let act : Option Dev := match d.waitingFor e c with
      | some .walk => d.ownWalk e c
      | some .desc => d.fetchDesc e c
      | some (.read off) | some (.write off) => (x.groups.find? (fun (g : DmaGroup) => decide (g.off = off))).bind (d.sendGroup e c)
      | none => none
    match act with
    | none => d
    | some d' =>
      let tag := ((d'.dmaEng e).reqs.getLast?.map (fun r => r.tag))
      if (d.dmaEng e).reqs.length < (d'.dmaEng e).reqs.length then d'.updChan e c (fun x => { x with trying := tag }) else d'
  else d

def execDmaWaitTestRetry (e : Fin 2) (c : Fin 16) (s : State) : Host.Outcome State Fault Refusal :=
  finish s (s.dev.waitRetry e.val c.val)

/-- The wait limit has passed: a fault of kind BANK_IN_TEST at the request that waits; SUSPENDED where its server is
suspended. -/
def Dev.waitExpires (d : Dev) (e c : Nat) : Dev :=
  let x := d.dmaChan e c
  if x.state = .waitTest ∧ d.fld (dmaEngCfg e) 16 8 ≠ 0 then
    let detail (s : Nat) : Nat := if d.serverSuspended s then 0x31 else 0x30
    let fault (phase va : Nat) (off : Option Nat) : FaultInfo :=
      let pa : Option Nat := match d.xlate e c va phase none with
        | .hit pa => some pa
        | _ => none
      { kind := 4, detail := detail ((pa.bind d.serverOf).getD x.waitOn), phase, walk := false, va, pa := pa.getD 0, level := 0,
        off }
    match d.waitingFor e c with
    | some .walk =>
      (match (d.dmaEng e).walk with
       | some w => d.walkFault e w 4 (detail (w.entry / 0x800000))
       | none => d)
    | some .desc => d.faultFound e c (fault 0 (d.chDesc e c) none)
    | some (.read off) =>
      let part := (x.groups.find? (fun g => decide (g.off = off))).bind (fun g => g.parts.head?)
      d.faultFound e c (fault 1 ((part.map (·.1)).getD ((dSrc x.desc + off) % 2 ^ 40)) (some off))
    | some (.write off) => d.faultFound e c (fault 2 ((dDst x.desc + off) % 2 ^ 40) (some off))
    | none => d
  else d

def execDmaTestWaitExpiry (e : Fin 2) (c : Fin 16) (s : State) : Host.Outcome State Fault Refusal :=
  finish s (s.dev.waitExpires e.val c.val)

/-! ## DMA_ registers (R503 to R507) -/

/-- DMA_CH_CTRL: GO to an IDLE channel, ABORT to any other, RESUME to a FAULTED one. -/
def Dev.chCtrlWrite (d : Dev) (e c : Nat) (v : Word) : Dev :=
  let x := d.dmaChan e c
  if x.state = .idle then
    (if bit v 31 then (d.setDmaChan e c { x with
      state := .active, errMsg := false, desc := [], asked := false, next := 0, stop := 0, groups := [], kept := [],
      fault := none, trying := none, sent := 0, bound := none, skip := 0 }).dmaPreempt e
     else d)
  else if bit v 29 then (d.endChain e c resAborted).unbindEnded e
  else if bit v 30 ∧ x.state = .faulted then ((d.dropRecord e c).updChan e c (fun x => { x with state := .active })).dmaPreempt e
  else d

/-- DMA_CH_CFG: while the channel is IDLE, with values that are accepted. -/
def Dev.chCfgWrite (d : Dev) (e c : Nat) (v : Word) : Dev :=
  if (d.dmaChan e c).state ≠ .idle ∨ 12 < bits v 28 4 ∨ bits v 26 2 = 3 ∨ (bits v 26 2 = 2 ∧ bits v 28 4 ≠ 0) then d
  else d.setReg (dmaChCfg e c) (v &&& 0xFFFF01FF)

/-- The identity owns a channel. -/
def Dev.ownsChan (d : Dev) (id : Fin 13) (e c : Nat) : Bool := decide (d.fld (dmaChCfg e c) 28 4 = id.val)

/-- A region's engine is one on which it owns a channel. -/
def Dev.ownsEngine (d : Dev) (id : Fin 13) (e : Nat) : Bool := (List.range 16).any (fun c => d.ownsChan id e c)

/-- The register of the engine's page that an offset names: a channel register's offset in its block, or 0x1000 and above
for none. -/
def chanOff (r : Nat) : Nat := if r < 0x1000 then 0x1000 else (r - 0x1000) % 0x40
def chanIx (r : Nat) : Nat := (r - 0x1000) / 0x40

/-- The identity may write a DMA_ register. -/
def Dev.dmaMayWrite (d : Dev) (id : Fin 13) (e r : Nat) : Bool :=
  decide (id = 0) ||
  (d.granted id 5 && ((decide (r = 0xC) && d.ownsEngine id e) ||
    (decide (chanOff r = 0x4 ∨ chanOff r = 0xC ∨ chanOff r = 0x10) && d.ownsChan id e (chanIx r))))

def Dev.fqPop (d : Dev) (e : Nat) (v : Word) : Dev :=
  d.cond (bit v 0) (fun d => d.updEng e (fun x => { x with fq := x.fq.tail }))

def Dev.dmaClear (d : Dev) (e : Nat) (v : Word) : Dev :=
  d.cond (bit v 0) (fun d => (d.statClear (dmaBytes e)).forEach (List.range 16) (fun d c => d.statClear (dmaChBytes e c)))

/-- A write of a DMA_ register. -/
def Dev.dmaWrite (d : Dev) (id : Fin 13) (off : Nat) (v : Word) : Dev :=
  let e := (off - 0x540000) / 0x10000
  let r := off % 0x10000
  if !d.dmaMayWrite id e r then d.ctrlDecode id.val true false off
  else if r = 0x4 then d.setReg off (v &&& 0x80FF01FF)
  else if r = 0xC then d.fqPop e v
  else if r = 0x44 then d.dmaClear e v
  else if 0x80 ≤ r ∧ r < 0xD4 then d.setReg off (v &&& 0x8FFF0FFF)
  else
    match chanOff r with
    | 0x0 => d.chCfgWrite e (chanIx r) v
    | 0x4 => d.chCtrlWrite e (chanIx r) v
    | 0xC => d.cond (decide ((d.dmaChan e (chanIx r)).state = .idle)) (fun d => d.setReg off v)
    | 0x10 => d.cond (decide ((d.dmaChan e (chanIx r)).state = .idle)) (fun d => d.setReg off (v &&& 0xFF))
    | _ => d

def execDmaChGo (id : Fin 13) (e : Fin 2) (c : Fin 16) (v : Word) (s : State) : Host.Outcome State Fault Refusal :=
  finishBy id s (s.dev.dmaWrite id (dmaChBase e.val c.val + 4) (setBit v 31 true))

def execDmaChResume (id : Fin 13) (e : Fin 2) (c : Fin 16) (v : Word) (s : State) : Host.Outcome State Fault Refusal :=
  finishBy id s (s.dev.dmaWrite id (dmaChBase e.val c.val + 4) (setBit v 30 true))

def execDmaChAbort (id : Fin 13) (e : Fin 2) (c : Fin 16) (v : Word) (s : State) : Host.Outcome State Fault Refusal :=
  finishBy id s (s.dev.dmaWrite id (dmaChBase e.val c.val + 4) (setBit v 29 true))

def execDmaFqPop (id : Fin 13) (e : Fin 2) (v : Word) (s : State) : Host.Outcome State Fault Refusal :=
  finishBy id s (s.dev.dmaWrite id (dmaBase e.val + 0xC) v)

def execDmaClear (id : Fin 13) (e : Fin 2) (v : Word) (s : State) : Host.Outcome State Fault Refusal :=
  finishBy id s (s.dev.dmaWrite id (dmaBase e.val + 0x44) v)

/-- The identity may read a DMA_ register. -/
def Dev.dmaReadOk (d : Dev) (id : Fin 13) (off : Nat) : Bool :=
  decide (id = 0) || (d.granted id 5 && d.ownsEngine id ((off - 0x540000) / 0x10000))

def ChState.code : ChState → Nat
  | .idle => 0
  | .active => 1
  | .preempted => 2
  | .waitTest => 3
  | .faulted => 4
  | .aborting => 5

/-- Word i of a queue's head record, 0 where the queue is empty. -/
def headWord (q : List (List Byte)) (i : Nat) : Word := BitVec.ofNat 32 (getLE 4 (q.headD []) (4 * i))

/-- The computed DMA_ registers. -/
def Dev.dmaView (d : Dev) (off : Nat) : Option Word :=
  let e := (off - 0x540000) / 0x10000
  let r := off % 0x10000
  let x := d.dmaEng e
  if r = 0 then
    some (BitVec.ofNat 32 (b2n x.walk.isSome * 2 ^ 31 + b2n x.holder.isSome * 2 ^ 30 +
      (x.holder.elim 0 (·.val)) * 65536 + bitsOf 16 (fun c => decide ((d.dmaChan e c).state ≠ .idle))))
  else if r = 0x8 then some (BitVec.ofNat 32 x.fq.length)
  else if 0x10 ≤ r ∧ r < 0x30 then some (headWord x.fq ((r - 0x10) / 4))
  else if r = 0x30 then some (BitVec.ofNat 32 (d.rxCells (49 + e)).length)
  else
    let c := d.dmaChan e (chanIx r)
    match chanOff r with
    | 0x8 => some (BitVec.ofNat 32 (c.state.code * 2 ^ 29 + b2n c.errMsg * 2 ^ 28 + c.result.toNat * 65536))
    | 0x14 => some (BitVec.ofNat 32 c.doneBytes)
    | _ => none

/-! ## XLT_ registers (R493, R494, R503, R508, R509) -/

/-- TLB entries leave both engines. -/
def Dev.tlbDrop (d : Dev) (p : TlbEnt → Bool) : Dev :=
  d.forEach [0, 1] (fun d e => d.updEng e (fun x => { x with tlb := x.tlb.filter (fun t => !p t) }))

/-- Running walks that an invalidation names are to be repeated. -/
def Dev.walksStale (d : Dev) (p : Walk → Bool) : Dev :=
  d.forEach [0, 1] (fun d e => d.updEng e (fun x => { x with
    walk := x.walk.map (fun w => if p w then { w with stale := true } else w) }))

/-- A stale walk whose read is not outstanding begins anew. -/
def Dev.walksRedo (d : Dev) : Dev :=
  d.forEach [0, 1] (fun d e => match (d.dmaEng e).walk with
    | some w => if w.stale && !w.asked then d.redoWalk e w else d
    | none => d)

def Dev.invalWrite (d : Dev) (v : Word) : Dev :=
  let a := bits v 0 6
  let va := (d.reg (xltInvalVa 0)).toNat + d.fld (xltInvalVa 1) 0 8 * 2 ^ 32
  if bit v 31 = false ∨ d.dma.inval.isSome ∨ bits v 28 2 = 3 then d
  else
    let x : InvalScope := match bits v 28 2 with
      | 0 => .all
      | 1 => .space a
      | _ => .page a va
    let d := { d with dma := { d.dma with inval := some x } }
    let d := d.tlbDrop (fun t => match x with
      | .all => true
      | .space a => decide (t.space = a)
      | .page a va => t.covers a va)
    d.walksStale (fun w => x.names w.space w.va)

def Dev.invalDone (d : Dev) : Dev := ({ d with dma := { d.dma with inval := none } }).walksRedo

def execXltInvalDone (s : State) : Host.Outcome State Fault Refusal := finish s s.dev.invalDone

/-- A write of XLT_AS_CFG (r = 0) or XLT_AS_ROOT (1, 2). -/
def Dev.spaceWrite (d : Dev) (off : Nat) (v : Word) : Dev :=
  let a := (off - 0x581000) / 0x10
  let m : Word := match off % 0x10 with
    | 0x0 => 0xC0000000
    | 0x4 => 0xFFFFE000
    | _ => 0xFF
  let d := (d.setReg off (v &&& m)).tlbDrop (fun t => decide (t.space = a))
  (d.walksStale (fun w => decide (w.space = a))).walksRedo

def Dev.slqPop (d : Dev) (v : Word) : Dev := d.cond (bit v 0) (fun d => { d with dma := { d.dma with slq := d.dma.slq.tail } })

def Dev.xltClear (d : Dev) (v : Word) : Dev := d.cond (bit v 0) (fun d => (d.statClear xltWalks).statClear xltMiss)

/-- A write of an XLT_ register by the hive. -/
def Dev.xltWrite (d : Dev) (id : Fin 13) (off : Nat) (v : Word) : Dev :=
  if id ≠ 0 then d.ctrlDecode id.val true false off
  else if off = xltInval then d.invalWrite v
  else if off = xltInvalVa 0 then d.setReg off v
  else if off = xltInvalVa 1 then d.setReg off (v &&& 0xFF)
  else if off = 0x580014 then d.slqPop v
  else if off = 0x580050 then d.xltClear v
  else if 0x581000 ≤ off then d.spaceWrite off v
  else d

def execXltInval (id : Fin 13) (v : Word) (s : State) : Host.Outcome State Fault Refusal :=
  finishBy id s (s.dev.xltWrite id xltInval (setBit v 31 true))

def execXltSpaceWrite (id : Fin 13) (a : Fin 64) (r : Fin 3) (v : Word) (s : State) : Host.Outcome State Fault Refusal :=
  finishBy id s (s.dev.xltWrite id (xltAsCfg a.val + 4 * r.val) v)

def execXltSlqPop (id : Fin 13) (v : Word) (s : State) : Host.Outcome State Fault Refusal :=
  finishBy id s (s.dev.xltWrite id 0x580014 v)

def execXltClear (id : Fin 13) (v : Word) (s : State) : Host.Outcome State Fault Refusal :=
  finishBy id s (s.dev.xltWrite id 0x580050 v)

/-- The identity may read an XLT_ register. -/
def Dev.xltReadOk (d : Dev) (id : Fin 13) (off : Nat) : Bool :=
  decide (id = 0) || (d.granted id 5 && decide (off = 0x580000 ∨ 0x581000 ≤ off))

/-- The computed XLT_ registers. -/
def Dev.xltView (d : Dev) (off : Nat) : Option Word :=
  if off = 0x580000 then
    some (BitVec.ofNat 32 (b2n d.dma.inval.isSome * 2 ^ 31 + 2 * b2n (d.dmaEng 1).walk.isSome + b2n (d.dmaEng 0).walk.isSome))
  else if off = 0x580010 then some (BitVec.ofNat 32 d.dma.slq.length)
  else if 0x580020 ≤ off ∧ off < 0x580040 then some (headWord d.dma.slq ((off - 0x580020) / 4))
  else none

end Sys2Proof.Machine
end

