-- ==== Sys2Proof/Machine/Start.lean ====
section
/-! DEFINITION. The start sequence (R314 to R333), the health record that it reads (R641), and the daisy chain (R322 to
R327, R360). -/
namespace Sys2Proof.Machine

/-! ## Sources (R316 to R318) -/

/-- SOURCE codes of CFG_BOOT (R357). -/
def sourceFlash : Nat := 4
def sourceChain : Nat := 5

/-- A source is rejected: BOOT_FALLBACK and FALLBACKS. -/
def Dev.rejectSource (d : Dev) (source status : Nat) : Dev :=
  let d := d.escalateNow clsFallback srcLoader Path.chip (putLE 1 source ++ [0] ++ putLE 2 status)
  d.setFld cfgBoot 24 4 (min 15 (d.fld cfgBoot 24 4 + 1))

/-- The checks of an image that end by step 5 (R317): its header, an early end of its stream, its authenticity. -/
def Dev.startCheck (d : Dev) (bs : List Byte) (bad : List Nat) (len : Nat) : Option Nat :=
  if bs.length < 64 then some stCfgTruncated
  else
    match d.headerCheck bs .full (some len) with
    | some st => some st
    | none =>
      if bs.length < imgLen bs then some stCfgTruncated
      else if !d.authenticRead bs bad then some stCfgAuth
      else none

/-- A source as the loader has read it: the device, the image, its uncorrectable words, and why the source is rejected. -/
structure SourceRead where
  dev : Dev
  bytes : List Byte
  bad : List Nat
  refused : Option Nat

/-- A store slot as a source. -/
def Dev.slotSource (d : Dev) (t : Nat) : SourceRead :=
  let p := targetPart (.slot t)
  if d.store.suspect.any (fun l => decide (partOf l = p)) then { dev := d, bytes := [], bad := [], refused := some stEraseUnfinished }
  else
    let (d, head, bad) := d.loaderRead p 0 64
    match d.headerCheck head .full none with
    | some st => { dev := d, bytes := [], bad := [], refused := some st }
    | none =>
      let (d, rest, bad') := d.loaderRead p 64 (min (imgLen head) (640 * sectorBytes) - 64)
      let bs := head ++ rest
      let bad := bad ++ bad'.map (· + 64)
      { dev := d, bytes := bs, bad, refused := d.startCheck bs bad (imgLen head) }

/-- The parts of a segment header (R322). -/
def segPos (h : List Byte) : Nat := getLE 1 h 2
def segLast (h : List Byte) : Bool := (getLE 1 h 3).testBit 0
def segLen (h : List Byte) : Nat := getLE 4 h 8
def segOk (h : List Byte) : Bool :=
  decide (getLE 2 h 0 = 0x3CA5) && decide (segPos h ≤ 7) && decide (getLE 4 h 12 = crc32c (h.take 12))

/-- The image of the first segment for position 0 in a segment stream, and its LENGTH; none where the stream ends first. -/
def ownSegment : Nat → List Byte → Option (List Byte × Nat)
  | 0, _ => none
  | n + 1, bs =>
    if bs.length < 16 ∨ segOk bs = false then none
    else if segPos bs = 0 then some ((bs.drop 16).take (segLen bs), segLen bs)
    else if segLast bs then none
    else ownSegment n (bs.drop ((16 + segLen bs + 15) / 16 * 16))

/-- The basic flash parameter table, which the first parameter header of the SFDP names (JESD216; R320). -/
def sfdpTable (s : List Byte) : Option (List Byte) :=
  let p := slice s 8 8
  let n := 4 * getLE 1 p 3
  let t := (s.drop (getLE 3 p 4)).take n
  if 16 ≤ s.length ∧ getLE 4 s 0 = 0x50444653 ∧ getLE 1 p 0 = 0 ∧ 36 ≤ n ∧ t.length = n then some t else none

/-- Doubleword `i`, from 1, of a parameter table; 0 where the table is shorter. -/
def tableWord (t : List Byte) (i : Nat) : Nat := getLE 4 t (4 * (i - 1))

/-- Byte `j` of doubleword `i`. -/
def tableByte (t : List Byte) (i j : Nat) : Nat := tableWord t i / 2 ^ (8 * j) % 256

/-- The modes that the table declares, widest first: wires of address and of data, and the read command. -/
def flashModes (t : List Byte) : List (Nat × Nat × Nat) :=
  let has (i : Nat) : Bool := (tableWord t 1).testBit i
  (if tableByte t 17 1 = 0 then [] else [(8, 8, tableByte t 17 1)]) ++
  (if tableByte t 17 3 = 0 then [] else [(1, 8, tableByte t 17 3)]) ++
  (if has 21 then [(4, 4, tableByte t 3 1)] else []) ++
  (if has 22 then [(1, 4, tableByte t 3 3)] else []) ++
  (if has 20 then [(2, 2, tableByte t 4 3)] else []) ++
  (if has 16 then [(1, 2, tableByte t 4 1)] else []) ++
  [(1, 1, 0x0B)]

/-- The flash's size in bytes (doubleword 2). -/
def flashBytes (t : List Byte) : Nat :=
  let w := tableWord t 2
  if w < 2 ^ 31 then (w + 1) / 8 else 2 ^ (w % 2 ^ 31) / 8

/-- The addressing of R320. -/
def flashAddr (t : List Byte) : FlashAddr :=
  if (tableWord t 16).testBit 29 then .fourInstruction
  else if flashBytes t ≤ 2 ^ 24 then .three
  else .fourMode

/-- The read command with a 4-byte address that stands for one with a 3-byte address: the family's (PRESUMED, log 57). -/
def fourOpcode (c : Nat) : Nat :=
  (([(0x0B, 0x0C), (0x3B, 0x3C), (0xBB, 0xBC), (0x6B, 0x6C), (0xEB, 0xEC), (0x8B, 0x7C), (0xCB, 0xCC)].find?
    (fun e => decide (e.1 = c))).map (·.2)).getD c

/-- The read command of a mode under an addressing. -/
def readCommand (a : FlashAddr) (c : Nat) : Byte := BitVec.ofNat 8 (if a = .fourInstruction then fourOpcode c else c)

/-- How the stream is read: the widest mode that the table declares and byte 4 of the first segment header allows, at that
byte's clock (R320, R321). -/
def flashRead (t : List Byte) (settings : Byte) : FlashRead :=
  let widest := 2 ^ (settings.toNat / 4 % 4)
  let m := ((flashModes t).find? (fun m => decide (m.2.1 ≤ widest))).getD (1, 1, 0x0B)
  { addrWires := m.1, dataWires := m.2.1, opcode := readCommand (flashAddr t) m.2.2, addr := flashAddr t, clock := settings.setWidth 2 }

/-- The flash as a source (R320, R321): one without an SFDP table is rejected. -/
def Dev.flashSource (d : Dev) (flash : Option Flash) : SourceRead :=
  match flash.bind (fun x => (sfdpTable x.sfdp).map (fun t => (t, x.bytes))) with
  | none => { dev := d, bytes := [], bad := [], refused := some stCfgTruncated }
  | some (t, bs) =>
    let d := { d with cfg := { d.cfg with flashRead := some (flashRead t (bs.getD 4 0)) } }
    match ownSegment (bs.length / 16 + 1) bs with
    | none => { dev := d, bytes := [], bad := [], refused := some stCfgTruncated }
    | some (img, len) => { dev := d, bytes := img, bad := [], refused := d.startCheck img [] len }

/-- Sources of a start (R314, R316): the slots in their order (`inl`), or the flash. -/
inductive Source where
  | slot (t : Nat)
  | flash
  deriving DecidableEq, Repr

def Dev.startSources (d : Dev) (mode : Nat) : List Source :=
  if mode = 4 ∨ d.keys.wipePending then []
  else
    let order := match d.store.active with
      | some 1 => [1, 0, 2]
      | _ => [0, 1, 2]
    (order.filter d.dirValid).map Source.slot ++ (if mode = 1 then [.flash] else [])

/-! ## The health record (R330, R639 to R641) -/

/-- The record of boot count b is read at step 2; none where the BOOT entry did not read back valid (R391). -/
def Dev.readHealth (d : Dev) (b : Nat) (booted : Bool) : Dev :=
  let (d, r, bad) := d.loaderRead 6 (4096 * (b % 256)) 1280
  { d with cfg := { d.cfg with health := if booted && decide (bad = []) then some r else none } }

/-- The record that step 2 read, where it is valid for a start with boot count b and this trailer DIGEST: none after a
fallback (R330, R641). -/
def Dev.healthFor (d : Dev) (b : Nat) (digest : List Byte) : Option (List Byte) :=
  d.cfg.health.filter (fun r =>
    decide (d.fld cfgBoot 24 4 = 0) &&
    decide (getLE 4 r 0 = 0x48544C48) && decide (getLE 2 r 4 = 1) && decide (getLE 4 r 1276 = crc32c (r.take 1276)) &&
    decide (getLE 4 r 8 = b) && decide (slice r 12 32 = digest))

/-- Step 4 (R426): the banks that a record shows as passed take its repairs and are zero-filled; the others are tested,
one at a time. -/
def Dev.startBanks (d : Dev) (health : Option (List Byte)) : Dev :=
  let r := health.getD []
  let passed (p : Nat) : Bool := health.isSome && (getLE 4 r 60).testBit p
  let d := d.forEach (List.range 17) (fun d p =>
    if passed p then
      let rows := ((List.range 32).map (fun i => getLE 2 r (96 + 64 * p + 2 * i))).filter (fun x => decide (x < 2048))
      let d := { d with bank := { d.bank with repairs := mset (fun _ => []) d.bank.repairs p rows } }
      (d.zeroBank p).setService p 0 |>.setFld (bankTestStatus p) 0 3 resSkipped
    else d.setService p 1)
  match (List.range 17).find? (fun p => !passed p) with
  | some p => d.startMarch p { checker := false, preserving := false, cause := .start, stopped := false }
  | none => d

/-! ## The start (R328) -/

/-- The number of frame records before group k's. -/
def firstRec (h : List Byte) (k : Nat) : Nat :=
  ((imgGroups h).takeWhile (fun g => decide (g ≠ k))).foldl (fun n g => n + grpFrames h g) 0

/-- Group k is written, frame by frame, and checks. -/
def loadGroup (h bs : List Byte) (x : LoadStep) (k : Nat) : LoadStep :=
  match x with
  | .error e => .error e
  | .ok (d, l) =>
    if grpFrames h k = 0 then groupStep h bs (.ok (d, l)) k
    else Dev.loadBody h bs (grpFrames h k) (d, { l with recs := firstRec h k })

/-- The EARLY regions of an image (R329). -/
def earlyRegions (h : List Byte) : List Nat := (bitList 12 (imgMask h)).filter (fun k => (getLE 1 (imgRec h k) 0x38).testBit 5)

/-- A region's record takes effect; LOGIC_FAIL is set where the health record shows the region as failed (R330). -/
def Dev.startRegion (h : List Byte) (failed : Nat) (d : Dev) (n : Nat) : Dev :=
  (d.commitRegion n (imgRec h n)).cond (failed.testBit n && !(getLE 1 (imgRec h n) 0x38).testBit 6)
    (fun d => d.setRbit (rgnStatus n) rsnLogicFail true)

/-- What a source wrote is discarded (R318): every region is frozen with START set as before it, `ran` of them again. -/
def Dev.discardSource (d : Dev) (ran : List Nat) : Dev :=
  let d := d.forEach ran (fun d n => (d.setRbit (rgnStatus n) rsnStart false).setRbit (rgnStatus n) 31 false)
  d.forEach (List.range 12) (fun d n => d.setReason n rsnStart)

/-- The release of a region at start: LOGIC_FAIL stays (R330). -/
def Dev.startRelease (d : Dev) (n : Nat) : Dev :=
  d.clearReasons n ([rsnReconfig, rsnPolicy, rsnStart] ++ (if d.rbit pwrStatus 31 then [] else [rsnCommand]))

/-- Steps 6 to 10 with an authentic image from `source`: the device and, where a group does not check, why the source is
rejected. The early regions run before the other groups are read. -/
def Dev.startImage (d : Dev) (bs : List Byte) (bad : List Nat) (source : Nat) (earlyUs fullUs : BitVec 16) : Dev × Option Nat :=
  let h := bs.take (imgHeaderLen bs)
  let early := earlyRegions h
  let health := d.healthFor (d.reg nvsBootCount - 1).toNat (slice bs (imgLen bs - 96) 32)
  let failed := (health.map (fun r => getLE 2 r 52)).getD 0
  match (15 :: early).foldl (loadGroup h bs) (.ok (d, { Load.fresh with hdr := some h, bad := bad })) with
  | .error (_, st, _) => (d.discardSource [], some st)
  | .ok (d1, l) =>
    let d1 := (d1.chipLoaded h bs l.written).scanAll
    let d1 := d1.forEach early (Dev.startRegion h failed)
    let d1 := (d1.forEach early Dev.startRelease).forEach early Dev.thawDone
    let rest := (bitList 12 (imgMask h)).filter (fun k => !early.contains k)
    match rest.foldl (loadGroup h bs) (.ok (d1, l)) with
    | .error (d2, st, _) => (d.discardSource (early.filter (fun n => !d2.frozen n)), some st)
    | .ok (d2, _) =>
      let d2 := (d2.setFld cfgBoot 28 4 source).setRbit cfgBoot 22 (usesEarly h)
      let d2 := d2.setRbit cfgBoot 23 health.isSome
      let d2 := (d2.forEach rest (Dev.startRegion h failed)).recheckSecure.flowTable h
      let d2 := d2.forEach rest Dev.startRelease
      let d2 := { d2 with cfg := { d2.cfg with done := true } }
      let us := (if usesEarly h then earlyUs.toNat else 0) * 65536 + fullUs.toNat
      ((d2.setReg cfgStartTime (BitVec.ofNat 32 us)).count cfgLoadCount, none)

/-- One source: it starts the device, or is rejected. -/
def Dev.trySource (x : SourceRead) (source : Nat) (i : StartInputs) : Dev × Option (List Byte) :=
  let (d, bad) := match x.refused with
    | some st => (x.dev, some st)
    | none => x.dev.startImage x.bytes x.bad source i.earlyUs i.fullUs
  match bad with
  | none => (d, some x.bytes)
  | some st => (d.rejectSource source st, none)

/-- The sources are tried in their order: the image that started the device. -/
def Dev.trySources (d : Dev) (i : StartInputs) : List Source → Dev × Option (List Byte)
  | [] => (d, none)
  | s :: rest =>
    let (x, source) := match s with
      | .slot t => (d.slotSource t, t + 1)
      | .flash => (d.flashSource i.flash, sourceFlash)
    match Dev.trySource x source i with
    | (d, some bs) => (d, some bs)
    | (d, none) => d.trySources i rest

/-- Step 2: the journal is read, the bits that have drifted with it, and the BOOT entry programmed; it answers the boot
count that the journal gave, and whether the entry read back valid. -/
def Dev.startStore (d : Dev) (drift : List (Nat × Nat)) : Dev × Nat × Bool :=
  let d := d.setStore (d.store.upset drift).readJournal
  let b := d.store.boot
  let d := d.setStore { d.store with boot := b + 1 }
  let (d, valid) := d.enter jBoot 0 [(b + 1).toNat, 0, 0, 0]
  (d.switchIfFull.setReg nvsBootCount (b + 1), b.toNat, valid)

/-- The factory calibration row's digest (R398, R399). -/
def calGood : Bool :=
  let row := (List.range 0xFE0).map Config.calRow
  decide ((List.range 32).map (fun i => Config.calRow (0xFE0 + i)) = sha256 row)

def Dev.startCal (d : Dev) : Dev :=
  if calGood then d else (d.setRbit nvsStatus 26 true).logEntry 0x29 srcStore Path.chip []

/-- The start sequence of R328, from the straps to the hive's boot. -/
def Dev.startRun (d : Dev) (i : StartInputs) : Dev :=
  let d := { d with
    power := { d.power with por := false, startDue := false },
    hive := { d.hive with addr := i.mgtAddr, sampled := true, wdogFrom := d.time.uptime },
    lcy := { d.lcy with delayFrom := d.time.uptime },
    cfg := { d.cfg with pull := if i.pull = 3 then 0 else i.pull } }
  let d := d.setReg cfgBoot (BitVec.ofNat 32 (i.mode.toNat * 65536 + i.pull.toNat * 16384))
  let (d, b, booted) := d.clearOwners.startCal.startStore i.drift
  let d := { d with lcy := { d.lcy with wiping := d.keys.wipePending } }
  let d := ((d.readHealth b booted).timeStart i.timeRef i.lost).planeTest i.planes
  let d := d.fabStart.cfgBegin opStart 0xF
  let (d, found) := d.trySources i (d.startSources i.mode.toNat)
  let d := d.startBanks (found.bind (fun bs => d.healthFor b (slice bs (imgLen bs - 96) 32)))
  let chained := (i.mode = 2 || i.mode = 3) && found.isNone && !d.keys.wipePending
  let d := { d with cfg := { d.cfg with chainWanted := chained, chainOpen := decide (i.mode = 3), chainAddr := none } }
  (d.cfgEnd stOk).setRbit nvsStatus 30 true

/-! ## The chain -/

/-- The state of a segment (R360). -/
def Dev.chainState (d : Dev) (p v : Nat) : Dev := d.setFld cfgChainStatus (4 * p) 4 v

/-- The stream has ended for this device. One that its boot order has brought to the chain rejects the chain as a source
(R317, R325). -/
def Dev.chainEnds (d : Dev) : Dev :=
  let wanted := d.cfg.chainWanted
  let d := { d with cfg := { d.cfg with chainEnded := true, chainWanted := false } }
  d.cond wanted (fun d => d.rejectSource sourceChain stCfgTruncated)

/-- CHAIN_READ_START: in CHAIN_FIRST, 12 ms after power-good (R326). `sfdp` is what the flash holds as its SFDP, which is read
first; a flash without the table is rejected, and the stream ends there (R320, R325). -/
def Dev.chainRead (d : Dev) (sfdp : List Byte) : Dev :=
  if d.fld cfgBoot 16 3 = 2 ∧ d.power.por = false ∧ d.power.resetN = false then
    let d := { d with cfg := { d.cfg with chainOpen := true, chainAddr := (sfdpTable sfdp).map flashAddr } }
    d.cond d.cfg.chainAddr.isNone Dev.chainEnds
  else d

def execChainReadStart (sfdp : List Byte) (s : State) : Host.Outcome State Fault Refusal := finish s (s.dev.chainRead sfdp)

/-- A segment that goes on: POSITION one less, HCRC anew. -/
def forwarded (h data : List Byte) : List Byte :=
  let head := h.take 2 ++ putLE 1 (segPos h - 1) ++ slice h 3 9
  head ++ putLE 4 (crc32c head) ++ data

/-- The device's own segment, where its boot order has reached the chain. -/
def Dev.chainOwn (d : Dev) (data : List Byte) (len : Nat) (earlyUs fullUs : BitVec 16) : Dev :=
  let d := { d with cfg := { d.cfg with chainWanted := false } }
  let d := d.cfgBegin opStart 0xF
  let (d, bad) := match d.startCheck data [] len with
    | some st => (d, some st)
    | none => d.startImage data [] sourceChain earlyUs fullUs
  let d := match bad with
    | none => d.chainState 0 1
    | some st => (d.rejectSource sourceChain st).chainState 0 (if st = stCfgTruncated then 2 else 5)
  d.cfgEnd stOk

/-- In CHAIN_FIRST the flash is read in x1, with the addressing of its SFDP, at no more than 50 MHz whatever the first segment
says (R320, R321). -/
def Dev.chainClock (d : Dev) (h : List Byte) : Dev :=
  match d.cfg.chainAddr, d.cfg.flashRead with
  | some a, none =>
    let r : FlashRead := { addrWires := 1, dataWires := 1, opcode := readCommand a 0x0B, addr := a,
                           clock := BitVec.ofNat 2 (min (getLE 1 h 4 % 4) 1) }
    { d with cfg := { d.cfg with flashRead := some r } }
  | _, _ => d

/-- CHAIN_SEGMENT: the bytes of one segment as they came in, short where the stream ended in it. -/
def Dev.chainSegment (d : Dev) (bs : List Byte) (earlyUs fullUs : BitVec 16) : Dev :=
  if !d.cfg.chainOpen || d.cfg.chainEnded || d.power.por || d.power.resetN then d
  else if bs.length < 16 then d.chainEnds
  else
    let p := segPos bs
    let data := (bs.drop 16).take (segLen bs)
    if !segOk bs then (if p ≤ 7 then d.chainState p 3 else d).chainEnds
    else
      let d := d.chainClock bs
      let short := decide (data.length < segLen bs)
      let d :=
        if 1 ≤ p then ({ d with cfg := { d.cfg with chainOut := forwarded bs data } }).chainState p (if short then 2 else 1)
        else if d.cfg.chainWanted then d.chainOwn data (segLen bs) earlyUs fullUs
        else if d.fld cfgBoot 28 4 ≠ 0 ∧ d.fld cfgBoot 28 4 ≠ sourceChain then d.chainState 0 4
        else d
      d.cond (short || segLast bs) Dev.chainEnds

def execChainSegment (bytes : List Byte) (earlyUs fullUs : BitVec 16) (s : State) : Host.Outcome State Fault Refusal :=
  finish s (s.dev.chainSegment bytes earlyUs fullUs)

end Sys2Proof.Machine
end

