-- ==== Sys2Proof/Machine/SelfTest.lean ====
section
/-! DEFINITION. Self-test, the shutdown sequence and the health record (R629 to R641). -/
namespace Sys2Proof.Machine

/-! ## Results and estimates (R630, R633, R647) -/

/-- Codes of LOGIC and BRAM in BIST_RGN_STATUS. -/
def tstWaiting : Nat := 1
def tstRunning : Nat := 2
def tstPass : Nat := 3
def tstFail : Nat := 4
def tstIncomplete : Nat := 5

/-- The field of a kind of test: 1 logic, 2 block-memory march. -/
def kindLo (kind : Nat) : Nat := if kind = 1 then 29 else 26

def Dev.testCode (d : Dev) (n kind : Nat) : Nat := d.fld (bistRgnStatus n) (kindLo kind) 3
def Dev.setTestCode (d : Dev) (n kind code : Nat) : Dev := d.setFld (bistRgnStatus n) (kindLo kind) 3 code

/-- The frames of the configuration memory as they are held. -/
def Dev.frameOf (d : Dev) (a : Nat) : List Byte := mget blankFrame d.cfg.frames a

/-- The required pattern count and the expected signature of a region's image (R629). -/
def Dev.patternsNeeded (d : Dev) (n : Nat) : Nat := (Config.testPatterns n d.frameOf).toNat
def Dev.signatureOf (d : Dev) (n : Nat) : Word := Config.testSignature n d.frameOf

/-- The one result of a logic test. -/
def logicResult (run need : Nat) (misr want : Word) : Nat :=
  if run < need ∨ need = 0 then tstIncomplete
  else if run = need ∧ misr = want then tstPass
  else tstFail

/-- The estimate of a region's test: the larger of 500 mW and 1.6 times its power; how a fraction of a milliwatt is
rounded, and a value above 20 bits, are free. -/
def Dev.estimate (d : Dev) (n : Nat) : Nat × Dev :=
  let p := 8 * d.fld (pwrRgnPower n) 0 20
  let e := if p % 5 = 0 then p / 5 else p / 5 + (d.freeVal 1 : BitVec 1).toNat
  let d := if p % 5 = 0 then d else d.freeNext
  if 2 ^ 20 ≤ e then ((d.freeVal 20 : BitVec 20).toNat, d.freeNext) else (max 500 e, d)

/-- The estimate of a bank march. -/
def bankEstimate : Nat := 600

/-- The status that a test's result answers. -/
def testStatus (code : Nat) : Nat := if code = tstPass then stOk else if code = tstFail then stInTest else stTestIncomplete

/-! ## The suite of a shutdown (R634) -/

def SuiteTest.est : SuiteTest → Nat
  | .region _ e => e
  | .bank _ => bankEstimate

/-- SD_STEP of PWR_STATUS (R644). -/
def Dev.sdStep (d : Dev) : Nat := d.fld pwrStatus 28 3
def Dev.setStep (d : Dev) (v : Nat) : Dev := d.setFld pwrStatus 28 3 v

def Dev.setShutdown (d : Dev) (x : Shutdown) : Dev := { d with power := { d.power with shutdown := some x } }

/-- No other test holds the region or the bank: one that ran at step 1 runs to its end first (R638). -/
def Dev.suiteFree (d : Dev) : SuiteTest → Bool
  | .region n _ => !d.rbit (rgnStatus n) rsnSelftest
  | .bank p => (d.march? p).isNone

/-- A logic test begins: running, with its required count. -/
def Dev.startLogic (d : Dev) (n est : Nat) : Dev :=
  let d := (d.setTestCode n 1 tstRunning).setFld (bistRgnStatus n) 0 20 est
  d.setReg (bistRgnCount n) (BitVec.ofNat 32 (d.patternsNeeded n))

/-- A logic test's result is recorded, with the final MISR of one that has run, and LOGIC_FAIL follows it (R631, R646). -/
def Dev.endLogic (d : Dev) (n run : Nat) (misr : Option Word) (code : Nat) : Dev :=
  let d := d.setTestCode n 1 code
  let d := d.setReg (bistRgnCount n) (BitVec.ofNat 32 (run % 65536 * 65536 + d.patternsNeeded n))
  let d := (d.setReg (bistRgnMisr n) (misr.getD (d.reg (bistRgnMisr n)))).setReg (bistRgnExpect n) (d.signatureOf n)
  if code = tstFail then d.setReason n rsnLogicFail
  else if code = tstPass then d.clearReason n rsnLogicFail
  else d

/-- A test of the suite starts; a region's sets SELFTEST (R75). -/
def Dev.startSuiteTest (d : Dev) : SuiteTest → Dev
  | .region n e => (d.startLogic n e).setReason n rsnSelftest
  | .bank p => (d.finishRuns p).startMarch p { checker := false, preserving := false, cause := .suite, stopped := false }

/-- A test that is never started, or is cut: INCOMPLETE. -/
def Dev.suiteIncomplete (d : Dev) : SuiteTest → Dev
  | .region n e => (d.setFld (bistRgnStatus n) 0 20 e).endLogic n 0 none tstIncomplete
  | .bank p => d.setFld (bankTestStatus p) 0 3 resIncomplete

/-- One look at a pending test: never started, started, or left pending. -/
def Dev.suiteTake (d : Dev) (t : SuiteTest) : Dev :=
  match d.power.shutdown with
  | none => d
  | some x =>
    let base := d.fld bistBasePower 0 20
    let rest := x.todo.filter (fun u => decide (u ≠ t))
    if !d.suiteFree t then d
    else if x.cap < base + t.est then
      ((d.suiteIncomplete t).setRbit bistStatus 30 true).setShutdown { x with todo := rest }
    else if base + (x.running.map SuiteTest.est).sum + t.est ≤ x.cap then
      (d.startSuiteTest t).setShutdown { x with todo := rest, running := x.running ++ [t] }
    else d

/-- The sequencer walks its list, and step 5 begins when nothing is left of it. -/
def Dev.suiteWalk (d : Dev) : Dev :=
  if d.sdStep = 3 then
    let todo := (d.power.shutdown.map (fun x => x.todo)).getD []
    let d := if d.rbit pwrStatus 0 then d else d.forEach todo Dev.suiteTake
    match d.power.shutdown with
    | some x => if x.todo = [] ∧ x.running = [] then d.setStep 4 else d
    | none => d
  else d

/-- SELFTEST clears at the end of a region's test (R75). -/
def Dev.suiteReason (d : Dev) : SuiteTest → Dev
  | .region n _ => d.clearReason n rsnSelftest
  | .bank _ => d

/-- A test leaves the running ones. -/
def Dev.suiteEnded (d : Dev) (p : SuiteTest → Bool) : Dev :=
  match d.power.shutdown with
  | some x =>
    let d := d.forEach (x.running.filter p) Dev.suiteReason
    (d.setShutdown { x with running := x.running.filter (fun t => !p t) }).suiteWalk
  | none => d

def isSuiteRegion (n : Nat) : SuiteTest → Bool
  | .region m _ => decide (m.val = n)
  | .bank _ => false

def isSuiteBank (p : Nat) : SuiteTest → Bool
  | .bank q => decide (q.val = p)
  | .region _ _ => false

def Dev.suiteRuns (d : Dev) (p : SuiteTest → Bool) : Bool :=
  match d.power.shutdown with
  | some x => x.running.any p
  | none => false

/-- SHUTDOWN_TEST_END. -/
def Dev.suiteTestEnd (d : Dev) : SuiteEnd → Dev
  | .region n run misr =>
    if d.suiteRuns (isSuiteRegion n) then
      (d.endLogic n run.toNat (some misr) (logicResult run.toNat (d.patternsNeeded n) misr (d.signatureOf n))).suiteEnded
        (isSuiteRegion n)
    else d
  | .bank p failing spareBad =>
    if d.suiteRuns (isSuiteBank p) then (d.marchDone p failing spareBad.val).suiteEnded (isSuiteBank p) else d

/-- BANK_MARCH_DONE: a march that does not belong to the shutdown suite ends, and the suite may take its bank (R638). One
of the suite ends with SHUTDOWN_TEST_END. -/
def execBankMarchDone (p : Fin 17) (failing : List (Fin 2048)) (spareBad : Fin 33) (s : State) :
    Host.Outcome State Fault Refusal :=
  finish s (if (s.dev.march? p).any (fun m => decide (m.cause = .suite)) then s.dev
    else (s.dev.marchDone p failing spareBad).suiteWalk)

def execShutdownTestEnd (x : SuiteEnd) (s : State) : Host.Outcome State Fault Refusal := finish s (s.dev.suiteTestEnd x)

/-! ## REGION_SELFTEST (R632, R635, R538) -/

/-- The kind of a region's REGION_SELFTEST, where one waits or runs. -/
def Dev.selfKind (d : Dev) (n : Nat) : Option Nat :=
  if d.rbit (rgnStatus n) rsnSelftest && !d.suiteRuns (isSuiteRegion n) then
    ([1, 2].find? (fun k => decide (d.testCode n k = tstWaiting ∨ d.testCode n k = tstRunning)))
  else none

def selfPayload (n kind run need : Nat) : List Byte :=
  putLE 1 n ++ putLE 1 kind ++ zeros 2 ++ putLE 4 run ++ putLE 4 need

/-- The end of a REGION_SELFTEST: its result, LOGIC_FAIL, and SELFTEST clears. -/
def Dev.selfEnds (d : Dev) (n kind code run need : Nat) (misr : Option Word) : Dev :=
  let d := if kind = 1 then d.endLogic n run misr code else d.setTestCode n 2 code
  let d := d.clearReason n rsnSelftest
  (d.endJob (fun j => decide (j = .selftest n kind)) (testStatus code, selfPayload n kind run need)).suiteWalk

/-- The number of operations that a block-memory march requires: the spec gives no value. -/
def Dev.marchOps (d : Dev) : Nat × Dev := ((d.freeVal 32 : BitVec 32).toNat, d.freeNext)

/-- The command: the region freezes, and the test waits for power. -/
def cmdSelftest : Command := checked 4 (zb [2, 3]) [(0, 1, 0, 11), (1, 1, 1, 2)] (fun d r =>
  let n := r.u 1 0
  let kind := r.u 1 1
  gated (firstOf [(if d.served 1 then none else some ansLife),
      busyNow (d.rbit (rgnStatus n) 9 || d.rbit (rgnStatus n) rsnSelftest || d.suiteRuns (isSuiteRegion n)),
      (if d.ticketsFull then some (ansBusy detTicketsFull) else none)]) d (fun _ =>
    let (e, d) := d.estimate n
    let d := d.startTicketJob r (.selftest n kind)
    let d := (d.setTestCode n kind tstWaiting).setFld (bistRgnStatus n) 0 20 e
    (d.setReason n rsnSelftest, none)))

def execRegionSelftest (s : State) : Host.Outcome State Fault Refusal := finish s (s.dev.imfa 0x0507 cmdSelftest)

/-- REGION_SELFTEST_START: PWR_TOTAL plus the estimate is at or below BIST_POWER_CAP, and rung 1 does not hold. -/
def Dev.selfStart (d : Dev) (n : Nat) : Dev :=
  match d.selfKind n with
  | none => d
  | some kind =>
    if d.testCode n kind = tstWaiting ∧ d.rbit pwrStatus 0 = false ∧
        d.fld pwrTotal 0 20 + d.fld (bistRgnStatus n) 0 20 ≤ d.fld bistPowerCap 0 20 then
      if kind = 1 then d.startLogic n (d.fld (bistRgnStatus n) 0 20) else d.setTestCode n 2 tstRunning
    else d

def execRegionSelftestStart (n : Fin 12) (s : State) : Host.Outcome State Fault Refusal := finish s (s.dev.selfStart n.val)

/-- REGION_SELFTEST_DONE: `run` patterns and the final MISR of a logic test; the memories whose march failed. -/
def Dev.selfDone (d : Dev) (n run : Nat) (misr : Word) (failing : List (Fin 240)) : Dev :=
  match d.selfKind n with
  | none => d
  | some kind =>
    if d.testCode n kind ≠ tstRunning then d
    else if kind = 1 then
      d.selfEnds n 1 (logicResult run (d.patternsNeeded n) misr (d.signatureOf n)) run (d.patternsNeeded n) (some misr)
    else
      let (ops, d) := d.marchOps
      (d.zeroBram n).selfEnds n 2 (if failing = [] then tstPass else tstFail) ops ops none

def execRegionSelftestDone (n : Fin 12) (run : BitVec 16) (misr : Word) (failing : List (Fin 240)) (s : State) :
    Host.Outcome State Fault Refusal := finish s (s.dev.selfDone n.val run.toNat misr failing)

/-- SELFTEST_START_TIMEOUT: INCOMPLETE with 0 run. -/
def Dev.selfTimeout (d : Dev) (n : Nat) : Dev :=
  match d.selfKind n with
  | none => d
  | some kind =>
    if d.testCode n kind ≠ tstWaiting then d
    else if kind = 1 then d.selfEnds n 1 tstIncomplete 0 (d.patternsNeeded n) none
    else
      let (ops, d) := d.marchOps
      d.selfEnds n 2 tstIncomplete 0 ops none

def execSelftestStartTimeout (n : Fin 12) (s : State) : Host.Outcome State Fault Refusal := finish s (s.dev.selfTimeout n.val)

/-! ## Rung 1 stops tests (R429, R635, R638) -/

/-- A running logic test of a region stops: how far it came, below the required count, and its MISR are free. -/
def Dev.stopLogic (d : Dev) (n : Nat) : Dev :=
  let run := (d.freeVal 16 : BitVec 16).toNat % max 1 (d.patternsNeeded n)
  let misr : Word := d.freeNext.freeVal 32
  let d := d.freeNext.freeNext
  if d.suiteRuns (isSuiteRegion n) then (d.endLogic n run (some misr) tstIncomplete).suiteEnded (isSuiteRegion n)
  else d.selfEnds n 1 tstIncomplete run (d.patternsNeeded n) (some misr)

/-- A running block-memory march stops: the contents of the region's memories are free. -/
def Dev.stopBram (d : Dev) (n : Nat) : Dev :=
  let (ops, d) := d.marchOps
  let run : Nat := (d.freeVal 32 : BitVec 32).toNat % max 1 ops
  let d := d.freeNext.zeroBram n
  let d := { d with logic := { d.logic with bramFree := mset (fun _ => 0) d.logic.bramFree n (d.free + 1) },
                    free := d.free + 122880 }
  d.selfEnds n 2 tstIncomplete run ops none

/-- A running march of the suite stops: INCOMPLETE, out of service, its words free. -/
def Dev.stopSuiteMarch (d : Dev) (p : Nat) : Dev :=
  let d := (d.zeroBank p).endMarch p
  let d := { d with bank := { d.bank with wordsFree := mset (fun _ => 0) d.bank.wordsFree p (d.free + 1) },
                    free := d.free + 65536 }
  ((d.setService p 2).setFld (bankTestStatus p) 0 3 resIncomplete).suiteEnded (isSuiteBank p)

/-- A march meets rung 1. -/
def Dev.rungMarch (d : Dev) (p : Nat) : Dev :=
  match d.march? p with
  | none => d
  | some m =>
    if m.cause = .suite then d.stopSuiteMarch p
    else if m.preserving then
      (d.stopMarch p).endJob (fun j => decide (j = .march p)) (stTestIncomplete, d.marchPayload p)
    else d.stopMarch p

def Dev.stopTests (d : Dev) : Dev :=
  let d := d.forEach (List.range 12) (fun d n => d.cond (decide (d.testCode n 1 = tstRunning)) (fun d => d.stopLogic n))
  let d := d.forEach (List.range 12) (fun d n => d.cond (decide (d.testCode n 2 = tstRunning)) (fun d => d.stopBram n))
  d.forEach (List.range 17) Dev.rungMarch

/-- At the restore of rung 1, destroying marches start again, but for one that a wipe holds, and the suite goes on. -/
def Dev.resumeTests (d : Dev) : Dev := (d.forEach (List.range 17) Dev.restartMarch).suiteWalk

/-! ## Shutdown (R636, R637, R542) -/

/-- Step 1: admission is held, CAPPED clears and the estimates are taken. -/
def Dev.shutdownBegin (d : Dev) (byCommand selftest : Bool) (cap : Nat) : Dev :=
  let d := (d.setStep 1).setRbit bistStatus 30 false
  let (d, regions) := (List.range 12).foldl (fun (x : Dev × List SuiteTest) n =>
    let (e, d) := x.1.estimate n
    (d, x.2 ++ [.region (Fin.ofNat 12 n) e])) (d, [])
  d.setShutdown
    { byCommand := byCommand, selftest := selftest, cap := if cap = 0 then d.fld bistPowerCap 0 20 else cap,
      todo := regions ++ (List.range 17).map (fun p => .bank (Fin.ofNat 17 p)), running := [], cut := 0 }

def cmdShutdown : Command := checked 8 [(0, 0xFE), (1, 0xFF), (2, 0xFF), (3, 0xFF)] [] (fun d r =>
  gated (firstOf [(if d.sdStep = 5 then some (ansBad detState) else none), busyNow (decide (d.sdStep ≠ 0)),
      (if d.ticketsFull then some (ansBusy detTicketsFull) else none)]) d (fun _ =>
    ((d.startTicketJob r .shutdown).shutdownBegin true ((r.u 1 0).testBit 0) (r.u 4 4), none)))

def execShutdown (s : State) : Host.Outcome State Fault Refusal := finish s (s.dev.imfa 0x0900 cmdShutdown)

/-- The device is powered and out of reset, and its start has run. -/
def Dev.running (d : Dev) : Bool := !d.power.por && !d.power.resetN && !d.power.thermHold && !d.power.startDue

/-- SHUTDOWN_REQ_PIN. -/
def Dev.shutdownPin (d : Dev) : Dev :=
  if d.running && d.rbit pwrCtrl 1 && decide (d.sdStep = 0) then d.shutdownBegin false (d.rbit pwrCtrl 0) 0 else d

def execShutdownReqPin (s : State) : Host.Outcome State Fault Refusal := finish s s.dev.shutdownPin

/-- A migration in COPYING is abandoned; the spec gives its command's final status no value. -/
def Dev.dropMigration (d : Dev) : Dev :=
  if d.remapState = 1 then
    let k := d.remapTarget
    let d := d.abandonCopy
    let a : Answer := ((d.freeVal 16 : BitVec 16).toNat, putLE 4 (d.reg bankRemap).toNat)
    d.freeNext.endJob (fun j => decide (j = .migrate k)) a
  else d

/-- SHUTDOWN_DRAINED: step 3, and what follows it at once. -/
def Dev.shutdownDrained (d : Dev) (base : Nat) : Dev :=
  match d.power.shutdown with
  | none => d
  | some x =>
    if d.sdStep ≠ 1 then d
    else
      let d := d.setStep 2
      let d := d.forEach (List.range 12) (fun d n => d.setReason n rsnCommand)
      let d := d.forEach (List.range 16) (fun d n => d.sdsCtrlSet n (setBit (d.reg (sdsCtrl n)) 0 true))
      let d := d.dropMigration.setReg bistBasePower (BitVec.ofNat 32 base)
      if x.selftest && !d.inRetired then (d.setStep 3).suiteWalk
      else (d.setShutdown { x with selftest := false, todo := [] }).setStep 4

def execShutdownDrained (base : BitVec 20) (s : State) : Host.Outcome State Fault Refusal :=
  finish s (s.dev.shutdownDrained base.toNat)

/-! ## The health record (R639, R640) -/

/-- The regions whose logic test has a result, and the banks whose march has one. -/
def Dev.rgnWith (d : Dev) (code : Nat) : Nat := bitsOf 12 (fun n => decide (d.testCode n 1 = code))

def Dev.bankWith (d : Dev) (cut : BitVec 17) (res : Nat) : Nat :=
  bitsOf 17 (fun p => if bit cut p then decide (res = resIncomplete) else decide (d.fld (bankTestStatus p) 0 3 = res))

/-- The 64 bytes of a bank's repairs: failing rows in ascending order. -/
def Dev.repairBytes (d : Dev) (p : Nat) : List Byte :=
  let rows := mget (fun _ => []) d.bank.repairs p
  (List.range 32).flatMap (fun i => putLE 2 (rows.getD i 0xFFFF))

/-- The record of the running shutdown. -/
def Dev.healthBytes (d : Dev) (x : Shutdown) : List Byte :=
  let t := x.selftest
  let held := bitsOf 12 (fun n => t && d.rbit (rgnStatus n) 8)
  let banks (res : Nat) : Nat := if t then d.bankWith x.cut res else 0
  let body : List Byte := [0x48, 0x4C, 0x54, 0x48, 1, 0] ++
    putLE 1 (b2n t + 2 * b2n (d.rbit bistStatus 30)) ++ putLE 1 d.lcCode ++ putLE 4 (d.reg nvsBootCount).toNat ++
    (List.range 8).flatMap (fun i => putLE 4 (d.reg (cfgDigest i)).toNat) ++ putLE 8 d.ns.toNat ++
    putLE 2 (Nat.land held (d.rgnWith tstFail)) ++ putLE 2 (Nat.land held (d.rgnWith tstIncomplete)) ++
    putLE 2 (Nat.land held (d.rgnWith tstPass)) ++ zeros 2 ++ putLE 4 (banks resPass) ++ putLE 4 (banks resFail) ++
    putLE 4 (banks resIncomplete) ++
    (List.range 17).map (fun p => BitVec.ofNat 8 (mget (fun _ => []) d.bank.repairs p).length) ++ zeros 7 ++
    (List.range 17).flatMap d.repairBytes ++ zeros 92
  body ++ putLE 4 (crc32c body)

/-- The record is programmed into its slot, whose sector is erased first where the slot is not blank, and read back (R636,
R639). The spec gives that erase no cause code. -/
def Dev.healthWrite (d : Dev) (bs : List Byte) (failing : List Nat) : Dev :=
  let k := (d.reg nvsBootCount).toNat % 256
  let l := partBase 6 + k / 16
  let w0 := 128 * (k % 16)
  let used := (List.range 40).any (fun i => !(d.store.word (d.store.phys l) (w0 + i)).isBlank)
  let d := if used then d.freeNext.eraseWhole l (d.freeVal 3 : BitVec 3).toNat failing else d
  if d.store.suspect.contains l then d
  else
    let d := d.programWords (d.store.phys l) (wordsOfData w0 bs)
    (d.readWords ((List.range 40).map (fun i => (l, w0 + i)))).1

/-- HEALTH_RECORD_WRITTEN: steps 5 and 6. `failing` names physical sectors whose erases fail verification to the end. -/
def Dev.shutdownEnds (d : Dev) (failing : List Nat) : Dev :=
  match d.power.shutdown with
  | none => d
  | some x =>
    if d.sdStep = 4 ∧ d.nvAwake ∧ d.nvReady ∧ d.nvHold = false ∧ d.store.move = .none then
      let d := d.healthWrite (d.healthBytes x) failing
      let d := (d.setStep 5).setRbit pwrStatus 31 true
      let d := { d with power := { d.power with shutdown := none } }
      let t (v : Nat) : Nat := if x.selftest then v else 0
      d.endJob (fun j => decide (j = .shutdown))
        (ansOk (putLE 4 (d.reg nvsBootCount).toNat ++ putLE 4 (t (d.bankWith x.cut resFail)) ++
          putLE 2 (t (d.rgnWith tstFail)) ++ putLE 2 (t (d.rgnWith tstIncomplete))))
    else d

def execHealthRecordWritten (failing : List Nat) (s : State) : Host.Outcome State Fault Refusal :=
  finish s (s.dev.shutdownEnds failing)

/-! ## BIST_ registers (R642, R646) -/

/-- A bank march counts as a test that runs, with its estimate. -/
def Dev.marchesNow (d : Dev) : Nat := ((List.range 17).filter (fun p => (d.march? p).any (fun m => !m.stopped))).length

def Dev.regionTests (d : Dev) : List Nat :=
  (List.range 12).filter (fun n => decide (d.testCode n 1 = tstRunning ∨ d.testCode n 2 = tstRunning))

def Dev.bistView (d : Dev) (off : Nat) : Option Word :=
  let n := d.regionTests.length + d.marchesNow
  if off = bistStatus then
    some (BitVec.ofNat 32 (b2n (n ≠ 0) * 2 ^ 31 + b2n (d.rbit bistStatus 30) * 2 ^ 30 + n * 65536))
  else if off = bistActivePower then
    some (BitVec.ofNat 32 ((d.regionTests.map (fun n => d.fld (bistRgnStatus n) 0 20)).sum + bankEstimate * d.marchesNow))
  else if 0x680100 ≤ off ∧ 8 ≤ off % 16 ∧ d.inDeployed then some 0
  else none

/-- A write by the hive of BIST_POWER_CAP: only a value in its range. -/
def Dev.capWrite (d : Dev) (v : Word) : Dev :=
  let c := bits v 0 20
  if 10000 ≤ c ∧ c ≤ 65000 then d.setReg bistPowerCap (BitVec.ofNat 32 c) else d

end Sys2Proof.Machine
end

