-- ==== Sys2Proof/Machine/Power.lean ====
section
/-! DEFINITION. Resets, temperature, the shedding ladder and the supplies (R614 to R628, R643). -/
namespace Sys2Proof.Machine

/-! ## Resets (R615, R618 to R620) -/

/-- The start that a reset has made due runs, where nothing holds the device. -/
def Dev.startIfDue (d : Dev) (i : StartInputs) : Dev :=
  if d.power.startDue && !d.power.por && !d.power.resetN && !d.power.thermHold then d.startRun i else d

/-- POWER_GOOD: power-on reset is released. -/
def Dev.powerGood (d : Dev) (i : StartInputs) : Dev :=
  if d.power.por then (({ d with power := { d.power with por := false, startDue := true } }).completeWipe).startIfDue i else d

def execPowerGood (i : StartInputs) (s : State) : Host.Outcome State Fault Refusal := finish s (s.dev.powerGood i)

/-- POWER_ON_RESET. `torn`: the power fails while the latest journal entry is being programmed (R390). -/
def execPowerOnReset (torn : Bool) (s : State) : Host.Outcome State Fault Refusal :=
  finish s (s.dev.cond (torn && !s.dev.power.por) Dev.tearEntry).powerOnReset

/-- RESET_N_ASSERT: before power-good, power-on reset holds the device as it is. -/
def Dev.resetPin (d : Dev) : Dev :=
  let d := if d.power.por then d else d.deviceReset causeResetN
  { d with power := { d.power with resetN := true } }

def execResetNAssert (s : State) : Host.Outcome State Fault Refusal := finish s s.dev.resetPin

def execResetNRelease (i : StartInputs) (s : State) : Host.Outcome State Fault Refusal :=
  finish s (({ s.dev with power := { s.dev.power with resetN := false } }).startIfDue i)

/-- The cause of the latest device or power-on reset: the one bit of [6:0] that is set. -/
def Dev.latestCause (d : Dev) : Nat := ((List.range 7).find? (fun b => d.rbit pwrResetCause b)).getD 0

/-- DEVICE_RESET: a reset that has come due clears the device, and the start runs again from step 1. -/
def Dev.deviceResetRuns (d : Dev) (i : StartInputs) : Dev :=
  if d.power.startDue && !d.power.por then (d.deviceReset d.latestCause).startIfDue i else d

def execDeviceReset (i : StartInputs) (s : State) : Host.Outcome State Fault Refusal := finish s (s.dev.deviceResetRuns i)

/-- DEFERRED_RESET (R531, R334, R550). -/
def Dev.deferredReset (d : Dev) (i : StartInputs) : Dev :=
  match d.hive.due with
  | [] => d
  | .hive :: rest => ({ d with hive := { d.hive with due := rest } }).hiveReset causeHiveSys
  | .device :: _ => (d.deviceReset causeSysReset).startIfDue i
  | .commit :: _ => (d.deviceReset causeCommit).startIfDue i
  | .lifecycle :: _ => (d.deviceReset causeLifecycle).startIfDue i

def execDeferredReset (i : StartInputs) (s : State) : Host.Outcome State Fault Refusal := finish s (s.dev.deferredReset i)

/-- HIVE_RESET: 0 the watchdog, 1 the policy, else SYS_RESET; nothing where the hive is held in reset already. -/
def Dev.hiveResets (d : Dev) (cause : BitVec 2) : Dev :=
  if d.running && !d.hive.held then
    (if cause = 0 then d.watchdogReset else d.hiveReset (if cause = 1 then causeHivePolicy else causeHiveSys))
  else d

def execHiveReset (cause : BitVec 2) (s : State) : Host.Outcome State Fault Refusal := finish s (s.dev.hiveResets cause)

/-- HIVE_READY: the transports answer again, and CHIP_IMFA_FW_VERSION names the firmware of the slot that runs. -/
def Dev.hiveReady (d : Dev) : Dev :=
  if d.hiveRuns then
    ({ d with hive := { d.hive with ready := true, held := false, wdogRow := 0 } }).setReg imfaFwVersion
      (Config.fwVersion d.hive.fwSlot)
  else d

def execHiveReady (s : State) : Host.Outcome State Fault Refusal := finish s s.dev.hiveReady

/-! ## Temperature (R621 to R623) -/

/-- A 2-byte field of a sensor's calibration. -/
def calField (s o : Nat) : Nat := (Config.calRow (0x300 + 16 * s + o)).toNat + 256 * (Config.calRow (0x300 + 16 * s + o + 1)).toNat

/-- T = T_LO + (code − CODE_LO)(T_HI − T_LO) / (CODE_HI − CODE_LO), towards zero; none where the codes are equal, or where
the value does not fit the register. -/
def convert (s code : Nat) : Option Int :=
  let lo := signed 16 (calField s 2)
  let num := ((code : Int) - (calField s 0 : Int)) * (signed 16 (calField s 6) - lo)
  let den := (calField s 4 : Int) - (calField s 0 : Int)
  let t := (lo * den + num).tdiv den
  if den = 0 ∨ t < -32768 ∨ 32767 < t then none else some t

/-- The reading of a sensor. -/
def Dev.tempOf (d : Dev) (s : Nat) : Int := signed 16 (d.fld (pwrTemp s) 0 16)

/-- The reading of a code, as a 16-bit field; a value that the conversion does not state is free. -/
def Dev.reading (d : Dev) (s code : Nat) : Nat × Dev :=
  match convert s code with
  | some t => (unsigned 16 t, d)
  | none => ((d.freeVal 16 : BitVec 16).toNat, d.freeNext)

/-- PWR_TEMP_MAX follows a reading. -/
def Dev.noteMax (d : Dev) (s : Nat) : Dev :=
  if d.power.sampled && decide (d.tempOf s ≤ signed 16 (d.fld pwrTempMax 0 16)) then d
  else
    let d := d.setReg pwrTempMax (BitVec.ofNat 32 (s * 65536 + d.fld (pwrTemp s) 0 16))
    { d with power := { d.power with sampled := true } }

/-- The first sensor that has reached a limit. -/
def Dev.reached (d : Dev) (limit : Int) : Option Nat := (List.range 8).find? (fun s => decide (limit ≤ d.tempOf s))

/-- The warning (R622): once, until every reading has fallen 80 units below the limit. -/
def Dev.thermWarn (d : Dev) : Dev :=
  let limit := signed 16 (d.fld pwrTempWarn 0 16)
  if d.rbit pwrStatus 13 then
    (if (d.reached (limit - 79)).isNone then d.setRbit pwrStatus 13 false else d)
  else
    match d.reached limit with
    | some s => (d.setRbit pwrStatus 13 true).escalateNow clsThermal srcClocks Path.chip
        (putLE 1 s ++ [0] ++ putLE 2 (d.fld (pwrTemp s) 0 16))
    | none => d

/-- The trip at +125 °C, which sensor s has reached with this reading (R623). -/
def Dev.thermTrip (d : Dev) (s reading : Nat) : Dev :=
  let d := if d.power.startDue then d
    else d.escalateNow clsThermal srcClocks Path.chip (putLE 1 (128 + s) ++ [0] ++ putLE 2 reading)
  let d := d.deviceReset causeThermal
  { d with power := { d.power with thermHold := true } }

/-- The readings of the sensors that a sample names, in their order. -/
def Dev.readings (d : Dev) (x : PowerSample) : Dev × List (Nat × Nat) :=
  ((List.range 8).zip x.codes).foldl (fun (y : Dev × List (Nat × Nat)) c =>
    let (t, d) := y.1.reading c.1 c.2.toNat
    (d, y.2 ++ [(c.1, t)])) (d, [])

/-- The readings, powers and rails of a sample go into their registers. -/
def Dev.noteSample (d : Dev) (ts : List (Nat × Nat)) (x : PowerSample) : Dev :=
  let d := d.forEach ts (fun d t => (d.setReg (pwrTemp t.1) (BitVec.ofNat 32 t.2)).noteMax t.1)
  let d := d.setReg pwrTotal (x.total.setWidth 32)
  let d := d.forEach ((List.range 12).zip x.regions) (fun d r => d.setReg (pwrRgnPower r.1) (r.2.setWidth 32))
  d.forEach ((List.range 11).zip x.rails) (fun d r => d.setReg (pwrRail r.1) (r.2.setWidth 32))

/-- TEMP_SAMPLE: the readings, and the powers and rails measured with them. -/
def Dev.tempSample (d : Dev) (x : PowerSample) : Dev :=
  if d.power.por then d
  else
    let (d, ts) := d.readings x
    if d.power.thermHold then
      (if ts.all (fun t => decide (signed 16 t.2 < 1840)) then { d with power := { d.power with thermHold := false } } else d)
    else if d.power.resetN then d
    else
      let d := d.noteSample ts x
      match d.reached 2000 with
      | none => d.thermWarn
      | some s => d.thermWarn.thermTrip s (d.fld (pwrTemp s) 0 16)

def execTempSample (x : PowerSample) (s : State) : Host.Outcome State Fault Refusal := finish s (s.dev.tempSample x)

/-! ## The shedding ladder (R624 to R627) -/

/-- The entry of a shed or a restore, escalated before its actions. -/
def Dev.shedEntry (d : Dev) (rung dir mv cls regions lanes banks : Nat) : Dev :=
  d.escalateNow clsShed srcPower Path.chip
    (putLE 1 rung ++ putLE 1 dir ++ putLE 2 mv ++ putLE 1 cls ++ [0] ++ putLE 2 regions ++ putLE 2 lanes ++ putLE 3 banks)

/-- What follows an escalation, where its action has not reset the device. -/
def Dev.unlessReset (d : Dev) (f : Dev → Dev) : Dev := if d.power.startDue then d else f d

def Dev.shedClassOf (d : Dev) (n : Nat) : Nat := d.fld (rgnConfig n) 0 2
def Dev.shedBy (d : Dev) (n : Nat) : Bool := d.rbit (rgnStatus n) rsnShed

/-- CLASSc_SHED of PWR_STATUS. -/
def classBit (c : Nat) : Nat := 7 - c
def Dev.classShed (d : Dev) (c : Nat) : Bool := d.rbit pwrStatus (classBit c)

def maskOf (ns : List Nat) : Nat := bitsOf 24 ns.contains

/-- The physical banks that rung 3 powers down (R435). -/
def Dev.banksToShed (d : Dev) : List Nat :=
  (((List.range 16).filter (fun k => !d.rbit (bankCtrl k) 0)).map d.physOf).filter (fun p => !d.bankDown p)

/-- Banks that power down during a shutdown record INCOMPLETE (R638). -/
def Dev.suiteCut (d : Dev) (ps : List Nat) : Dev :=
  match d.power.shutdown with
  | none => d
  | some x =>
    let gone (t : SuiteTest) : Bool := match t with
      | .bank p => ps.contains p.val
      | _ => false
    (d.setShutdown { x with todo := x.todo.filter (fun t => !gone t), running := x.running.filter (fun t => !gone t),
                            cut := BitVec.ofNat 17 (bitsOf 17 (fun p => bit x.cut p || (x.selftest && ps.contains p))) }).suiteWalk

/-- One class step of rung 3; the banks go with the first. -/
def Dev.shedClass (d : Dev) (c mv : Nat) : Dev :=
  let rs := (List.range 12).filter (fun n => decide (d.shedClassOf n = c) && !d.shedBy n)
  let ps := if c = 3 then d.banksToShed else []
  let d := (d.count pwrShedCount).shedEntry 3 1 mv c (maskOf rs) 0 (maskOf ps)
  d.unlessReset (fun d =>
    let d := (d.setRbit pwrStatus 2 true).setRbit pwrStatus (classBit c) true
    let d := d.forEach rs (fun d n => d.setReason n rsnShed)
    d.cond (decide (c = 3)) (fun d => (d.forEach (List.range 16) Dev.bankRung).suiteCut ps))

/-- A rung is shed. -/
def Dev.shedRung (d : Dev) (rung mv : Nat) : Dev :=
  match rung with
  | 1 =>
    ((d.count pwrShedCount).shedEntry 1 1 mv 0 0 0 0).unlessReset (fun d =>
      (d.setRbit pwrStatus 0 true).nvShedChanged.stopTests)
  | 2 =>
    let lanes := (List.range 16).filter (fun n => d.rbit (sdsCfg n) 31 && !bit d.serial.txShed n)
    ((d.count pwrShedCount).shedEntry 2 1 mv 0 0 (maskOf lanes) 0).unlessReset (fun d =>
      (d.setRbit pwrStatus 1 true).forEach lanes Dev.shedTx)
  | 3 => ({ d with power := { d.power with thawNext := [] } }).shedClass 3 mv
  | _ =>
    let rs := (List.range 12).filter (fun n => !d.shedBy n)
    ((d.count pwrShedCount).shedEntry 4 1 mv 0 (maskOf rs) 0 0).unlessReset (fun d =>
      let d := (d.setRbit pwrStatus 3 true).forEach rs (fun d n => d.setReason n rsnShed)
      ({ d with cfg := { d.cfg with pinsOut := 0 } }).hiveClear)

/-- SHED_RUNG_HOLD: rungs 1 to `rung` that do not hold yet are shed in order. -/
def Dev.rungHold (d : Dev) (rung : Nat) (aux : Bool) (mv : Nat) : Dev :=
  if d.running then
    let d := if aux then ({ d with power := { d.power with rung1Aux := true } }).setRbit pwrStatus 10 true
             else { d with power := { d.power with rung1Core := true } }
    let top := if aux then 1 else rung
    d.forEach (List.range' 1 top) (fun d k =>
      d.cond (!d.rbit pwrStatus (k - 1) && d.running) (fun d => d.shedRung k mv))
  else d

def execShedRungHold (rung : Fin 4) (aux : Bool) (mv : BitVec 16) (s : State) : Host.Outcome State Fault Refusal :=
  finish s (s.dev.rungHold (rung.val + 1) aux mv.toNat)

/-- SHED_CLASS_STEP: rung 3 still holds, and the next class freezes. -/
def Dev.classStep (d : Dev) (mv : Nat) : Dev :=
  if d.rbit pwrStatus 2 then
    match [2, 1].find? (fun c => !d.classShed c) with
    | some c => d.shedClass c mv
    | none => d
  else d

def execShedClassStep (mv : BitVec 16) (s : State) : Host.Outcome State Fault Refusal := finish s (s.dev.classStep mv.toNat)

/-- A class thaws: SHED clears in its regions; with the last class, in every region that still has it. -/
def Dev.thawClass (d : Dev) (c mv banks : Nat) : Dev :=
  let last := !([1, 2, 3].any (fun b => decide (b ≠ c) && d.classShed b))
  let rs := (List.range 12).filter (fun n => d.shedBy n && (last || decide (d.shedClassOf n = c)))
  (d.shedEntry 3 2 mv c (maskOf rs) 0 banks).unlessReset (fun d =>
    (d.setRbit pwrStatus (classBit c) false).forEach rs (fun d n => d.clearReason n rsnShed))

/-- A powered-down bank is powered again and runs its March C-, which waits while rung 1 holds (R429, R435). -/
def Dev.bankUp (d : Dev) (p : Nat) : Dev :=
  (d.setRbit bankShed p false).startMarch p
    { checker := false, preserving := false, cause := .restore, stopped := false }

/-- The restore of a rung. -/
def Dev.restoreRung (d : Dev) (rung mv : Nat) : Dev :=
  match rung with
  | 1 =>
    (d.shedEntry 1 2 mv 0 0 0 0).unlessReset (fun d => (d.setRbit pwrStatus 0 false).nvShedChanged.resumeTests)
  | 2 =>
    let lanes := (List.range 16).filter (fun n => bit d.serial.txShed n)
    (d.shedEntry 2 2 mv 0 0 (maskOf lanes) 0).unlessReset (fun d =>
      (d.setRbit pwrStatus 1 false).forEach lanes Dev.unshedTx)
  | 3 =>
    let order := [1, 2, 3].filter d.classShed
    let ps := (List.range 17).filter d.bankDown
    let d := d.thawClass (order.headD 3) mv (maskOf ps)
    d.unlessReset (fun d =>
      let d := { d with power := { d.power with thawNext := order.tail } }
      (d.setRbit pwrStatus 2 false).forEach ps Dev.bankUp)
  | _ =>
    let rs := (List.range 12).filter (fun n => d.shedBy n && !(decide (1 ≤ d.shedClassOf n) && d.classShed (d.shedClassOf n)))
    (d.shedEntry 4 2 mv 0 (maskOf rs) 0 0).unlessReset (fun d =>
      let d := (d.setRbit pwrStatus 3 false).forEach rs (fun d n => d.clearReason n rsnShed)
      ({ d.pinsRestored with hive := { d.pinsRestored.hive with wdogFrom := d.time.uptime } }).hiveResetEnds)

/-- SHED_RUNG_RESTORE: a rung restores once every rung below it has. -/
def Dev.rungRestore (d : Dev) (rung : Nat) (aux : Bool) (mv : Nat) : Dev :=
  let lower := (List.range' rung (4 - rung)).any (fun b => d.rbit pwrStatus b)
  if !d.running then d
  else if aux then
    let d := ({ d with power := { d.power with rung1Aux := false } }).setRbit pwrStatus 10 false
    d.cond (d.rbit pwrStatus 0 && !d.power.rung1Core) (fun d => d.restoreRung 1 mv)
  else if lower then d
  else if rung = 1 then
    let d := { d with power := { d.power with rung1Core := false } }
    d.cond (d.rbit pwrStatus 0 && !d.power.rung1Aux) (fun d => d.restoreRung 1 mv)
  else d.cond (d.rbit pwrStatus (rung - 1)) (fun d => d.restoreRung rung mv)

def execShedRungRestore (rung : Fin 4) (aux : Bool) (mv : BitVec 16) (s : State) : Host.Outcome State Fault Refusal :=
  finish s (s.dev.rungRestore (rung.val + 1) aux mv.toNat)

/-- SHED_CLASS_THAW. -/
def Dev.classThaw (d : Dev) (mv : Nat) : Dev :=
  match d.power.thawNext with
  | c :: rest => ({ d with power := { d.power with thawNext := rest } }).thawClass c mv 0
  | [] => d

def execShedClassThaw (mv : BitVec 16) (s : State) : Host.Outcome State Fault Refusal := finish s (s.dev.classThaw mv.toNat)

/-! ## VCC_NV and VCCIO (R617, R628) -/

def execVccNvLow (s : State) : Host.Outcome State Fault Refusal :=
  finish s (s.dev.cond s.dev.running (fun d => (d.setRbit pwrStatus 11 true).nvShedChanged))

/-- A program stops where it stands: the words before the one in progress are programmed, that one is left as R374 says,
and the rest wait. Which word is in progress is free. -/
def Dev.haltProgram (d : Dev) (j : Nat) : Dev :=
  let p := d.nvPlane j
  match (if p.inner.isSome then p.inner else p.op) with
  | some (.program l off ws) =>
    let i := (d.freeVal 16 : BitVec 16).toNat % max 1 ws.length
    let ph := d.store.phys l
    let d := d.freeNext.programWords ph (ws.take i)
    let d := d.cutOp (.program l off ((ws.drop i).take 1))
    let op : NvOp := .program l off (ws.drop (i + 1))
    d.setNvPlane j (if p.inner.isSome then { p with inner := some op } else { p with op := some op })
  | _ => d

/-- VCC_NV_HALT: every store operation stops. -/
def Dev.nvHalts (d : Dev) : Dev :=
  if d.running && !d.nvHalt then
    let d := d.forEach (List.range 16) Dev.haltProgram
    ((d.setRbit pwrStatus 11 true).setRbit pwrStatus 12 true).nvShedChanged
  else d

def execVccNvHalt (s : State) : Host.Outcome State Fault Refusal := finish s s.dev.nvHalts

/-- VCC_NV_RESTORE: of the 2.33 V threshold (`full`), or of the 2.20 V one alone. -/
def execVccNvRestore (full : Bool) (s : State) : Host.Outcome State Fault Refusal :=
  finish s (s.dev.cond s.dev.running (fun d => (d.clearBits pwrStatus (if full then [12, 11] else [12])).nvShedChanged))

def execVccioLoss (bank : Fin 6) (s : State) : Host.Outcome State Fault Refusal :=
  finish s { s.dev with power := { s.dev.power with vccioOff := setBit s.dev.power.vccioOff bank.val true } }

def execVccioReturn (bank : Fin 6) (s : State) : Host.Outcome State Fault Refusal :=
  finish s { s.dev with power := { s.dev.power with vccioOff := setBit s.dev.power.vccioOff bank.val false } }

end Sys2Proof.Machine
end

