-- ==== Sys2Proof/Machine/Bus.lean ====
section
/-! DEFINITION. The control bus: reads and writes of every register by any requester identity (R16 to R20, R46 to R49),
and the error policy registers of the CHIP_ block (R36 to R41). -/
namespace Sys2Proof.Machine

/-! ## CHIP_ (R30, R36 to R41) -/

/-- A write of CHIP_ERR_POLICY: nothing while LOCK = 1; a field whose ACTION is 0b100 to 0b111 stays as it is (R30, R38). -/
def Dev.policyWrite (d : Dev) (off : Nat) (v : Word) : Dev :=
  if d.rbit chipErrCtrl 0 then d
  else d.setReg off ((List.range 8).foldl (fun w j => if bits v (4 * j) 4 % 8 < 4 then setBits w (4 * j) 4 (bits v (4 * j) 4) else w)
    (d.reg off))

/-- A W1C write of CHIP_ERR_PENDING (R39); VALID of CHIP_ERR_FIRST clears when no bit is left (R40). -/
def Dev.pendingClear (d : Dev) (v : Word) : Dev :=
  let w := d.reg chipErrPending &&& ~~~v
  let d := { d.setReg chipErrPending w with chip := { d.chip with forcedAlert := d.chip.forcedAlert &&& w } }
  if w = 0 then d.setRbit chipErrFirst 31 false else d

/-- A write of CHIP_ERR_INJECT (R41): refused where R551 does not serve it; GO raises a class of 0 to 20. -/
def Dev.errInject (d : Dev) (id : Fin 13) (v : Word) : Dev :=
  if !d.served 1 then d.ctrlDecode id.val true false chipErrInject
  else if bit v 31 ∧ bits v 0 5 ≤ 20 then d.escalate (bits v 0 5) srcInjected Path.chip []
  else d

/-- A write by the hive in the CHIP_ block. -/
def Dev.chipWrite (d : Dev) (id : Fin 13) (off : Nat) (v : Word) : Dev :=
  if 0x20 ≤ off ∧ off < 0x30 then d.policyWrite off v
  else if off = chipErrPending then d.pendingClear v
  else if off = chipErrInject then d.errInject id v
  else d.plainWrite off v

/-- CHIP_IDCODE and CHIP_SERIAL0–3. -/
def Dev.chipView (_ : Dev) (off : Nat) : Option Word :=
  if off = 0 then some Config.idcode
  else if off < 0x14 then some (BitVec.ofNat 32 (getLE 4 serialBytes (off - 4)))
  else none

/-! ## CHIP_IMFA_ (R543 to R545) and the mirror of FENCE_ (R573) -/

def Dev.imfaView (d : Dev) (off : Nat) : Option Word :=
  if off = 0x010000 then
    some (BitVec.ofNat 32 (b2n d.hive.ready * 2 ^ 31 + b2n d.hive.fwSlot * 2 ^ 30 + d.ticketsHeld * 65536 +
      (if d.hive.sampled then 0x48 + d.hive.addr.toNat else 0)))
  else if 0x010100 ≤ off then some (d.reg (off - 0x010000 + 0x6C0000))
  else none

/-! ## Writes -/

/-- A write by the hive of a PWR_ or BIST_ register (R642). -/
def Dev.powerWrite (d : Dev) (off : Nat) (v : Word) : Dev :=
  if off = bistPowerCap then d.capWrite v else d.plainWrite off v

/-- A write by the hive of an RGN_ register (R108). -/
def Dev.rgnWrite (d : Dev) (off : Nat) (v : Word) : Dev :=
  let n := (off - 0x100000) / 0x10000
  match off % 0x10000 with
  | 0x04 => d.rgnCtrl n v
  | 0x10 => d.rgnFaultClear n (v &&& 0xF)
  | _ => d.plainWrite off v

/-- A write by the hive of a FAB_ register (R173); a CAL_ register does not change (R191). -/
def Dev.fabWrite (d : Dev) (off : Nat) (v : Word) : Dev :=
  if 0x210000 ≤ off then d
  else if off = fabCtrl then d.fabCtrlWrite v
  else if off = fabFlowSel then d.flowSelWrite v
  else if off < 0x203000 then
    (if 0x201000 ≤ off ∧ (off - 0x201000) % 0x80 = 0x58 then d.fabEpClear ((off - 0x201000) / 0x80) v else d.plainWrite off v)
  else
    let p := (off - 0x204000) / 0x100
    match (off - 0x204000) % 0x100 with
    | 0x00 => d.clsCtrlWrite p v
    | 0x10 => d.clsFieldWrite p 0 v
    | 0x14 => d.clsFieldWrite p 1 v
    | 0x18 => d.clsFieldWrite p 2 v
    | 0x1C => d.clsFieldWrite p 3 v
    | 0x34 => d.clsCmdWrite p v
    | _ => d.plainWrite off v

/-- Offsets from a lane's base whose writes have behaviour of their own, and from a port's base. -/
def sdsOwn : List Nat := [0x00, 0x04, 0x08, 0x14, 0x20]
def macOwn : List Nat := [0x000, 0x004, 0x010, 0x0A0]

/-- A write by the hive of an SDS_ or MAC_ register (R283). -/
def Dev.laneWrite (d : Dev) (id : Fin 13) (off : Nat) (v : Word) : Dev :=
  if off < 0x380000 then
    let r := (off - 0x300000) % 0x8000
    if sdsOwn.contains r then d.sdsWrite id.val ((off - 0x300000) / 0x8000) r v else d.plainWrite off v
  else
    let r := (off - 0x380000) % 0x1000
    if macOwn.contains r then d.macWrite id.val ((off - 0x380000) / 0x1000) r v else d.plainWrite off v

/-- Offsets from the base of TIME_ whose writes have behaviour of their own. -/
def timeOwn : List Nat := [0x400004, 0x400008, 0x40002C, 0x400030]

/-- A write of a SCH_ register (R469). -/
def Dev.schWrite (d : Dev) (id : Fin 13) (off : Nat) (v : Word) : Dev :=
  if off = schCmd then d.schCmdWrite id v
  else if off = schRecSel then d.recSelWrite id v
  else d.permitted (d.schWriteOk id off) id true off (fun d =>
    if off = schSpillCfg then d.spillCfgWrite v
    else if off = schSpillFlows then d.spillFlowsWrite v
    else if 0x500020 ≤ off ∧ off < 0x500034 then d.plainIdWrite id off v
    else if 0x502000 ≤ off ∧ off < 0x503000 then
      let e := Fin.ofNat 512 ((off - 0x502000) / 8)
      if off % 8 = 0 then d.evCfgWrite id e v
      else if bit v 31 then d.setEv e { d.ev e with ovf := false } else d
    else if 0x504000 ≤ off ∧ off % 0x20 = 4 then d.tmrExpWrite id (Fin.ofNat 256 ((off - 0x504000) / 0x20)) false v
    else if 0x504000 ≤ off ∧ off % 0x20 = 8 then d.tmrExpWrite id (Fin.ofNat 256 ((off - 0x504000) / 0x20)) true v
    else d.plainWrite off v)

/-- The register is read-only in its table. -/
def RegRow.readOnly (r : RegRow) : Bool := decide (r.acc = .ro) || decide (r.acc = .statLo) || decide (r.acc = .statHi)

/-- A write of the register at `off`, which has the row `r`, by identity `id`. -/
def Dev.blockWrite (d : Dev) (id : Fin 13) (r : RegRow) (off : Nat) (v : Word) : Dev :=
  if off < 0x010000 then hiveWrite d id off (fun d => d.chipWrite id off v)
  else if off < 0x020000 then
    (if off < 0x010100 then hiveWrite d id off (fun d => d) else d.ctrlDecode id.val true false off)
  else if off < 0x030000 then hiveWrite d id off (fun d => d.powerWrite off v)
  else if off < 0x040000 then
    hiveWrite d id off (fun d => if off = 0x030058 then d.nvsClear v else d.plainWrite off v)
  else if off < 0x050000 then hiveWrite d id off (fun d => d)
  else if off < 0x200000 then hiveWrite d id off (fun d => d.rgnWrite off v)
  else if off < 0x240000 then hiveWrite d id off (fun d => d.fabWrite off v)
  else if off < 0x300000 then (if off = admFlowSel then d.admSelWrite id v else hiveWrite d id off (fun d => d))
  else if off < 0x400000 then hiveWrite d id off (fun d => d.laneWrite id off v)
  else if off < 0x480000 then
    timeWriter d id off (fun d => if timeOwn.contains off then d.timeWrite id.val off v else d.plainWrite off v)
  else if off < 0x500000 then d.bankWrite id off v
  else if off < 0x600000 ∧ r.readOnly then d.ctrlDecode id.val true false off
  else if off < 0x540000 then d.schWrite id off v
  else if off < 0x580000 then d.dmaWrite id off v
  else if off < 0x600000 then d.xltWrite id off v
  else if off < 0x640000 then d.gpioWrite id off v
  else if off < 0x680000 then hiveWrite d id off (fun d => d.modWrite off v)
  else if off < 0x6C0000 then hiveWrite d id off (fun d => d.powerWrite off v)
  else if off = logSel then d.logSelWrite id v
  else if [lcyWdog, lcyTamperCfg, lcyTamperStatus, 0x700018].contains off then hiveWrite d id off (fun d => d.lcyWrite off v)
  else d.ctrlDecode id.val true false off

/-- An access of another width than 32 bits, or not aligned (R16). -/
def badAccess (off : Nat) (narrow : Bool) : Bool := narrow || decide (off % 4 ≠ 0)

/-- A write on the control bus (R16, R17, R48, R49). -/
def Dev.busWrite (d : Dev) (id : Fin 13) (off : Nat) (narrow : Bool) (v : Word) : Dev :=
  if badAccess off narrow then d.ctrlDecode id.val true true off
  else match regRow off with
    | none => d.ctrlDecode id.val true false off
    | some r => d.blockWrite id r off v

/-! ## Reads -/

/-- The identity may read the register (R48, R108, R173, R191, R233, R283, R354, R400, R437, R469, R503, R573, R605, R610,
R642). -/
def Dev.readOk (d : Dev) (id : Fin 13) (off : Nat) : Bool :=
  decide (id = 0) ||
  (if off < 0x100000 then false
   else if off < 0x200000 then d.granted id 0 && decide (portOf id = some ((off - 0x100000) / 0x10000))
   else if off < 0x210000 then d.fabReadOk id off
   else if off < 0x240000 then false
   else if off < 0x300000 then d.admReadOk id off
   else if off < 0x480000 then d.serialReadOk id
   else if off < 0x500000 then d.bankReadOk id off
   else if off < 0x540000 then d.granted id 4
   else if off < 0x580000 then d.dmaReadOk id off
   else if off < 0x600000 then d.xltReadOk id off
   else if off < 0x640000 then d.gpioReadOk id off
   else if off < 0x700000 then false
   else d.granted id 8)

/-- A register that is computed from the rest of the state; none where the stored word is the register. -/
def Dev.view (d : Dev) (id : Fin 13) (off : Nat) : Option Word :=
  if off < 0x010000 then d.chipView off
  else if off < 0x020000 then d.imfaView off
  else if off < 0x030000 then none
  else if off < 0x040000 then d.nvsView off
  else if off < 0x050000 then d.cfgView off
  else if off < 0x200000 then none
  else if off < 0x240000 then d.fabView off
  else if off < 0x300000 then d.admView id off
  else if off < 0x380000 then d.sdsView ((off - 0x300000) / 0x8000) ((off - 0x300000) % 0x8000)
  else if off < 0x400000 then d.macView ((off - 0x380000) / 0x1000) ((off - 0x380000) % 0x1000)
  else if off < 0x480000 then d.timeView id off
  else if off < 0x500000 then d.bankView off
  else if off < 0x540000 then d.schView id off
  else if off < 0x580000 then d.dmaView off
  else if off < 0x600000 then d.xltView off
  else if off < 0x640000 then d.gpioView id off
  else if off < 0x680000 then d.modView off
  else if off < 0x6C0000 then d.bistView off
  else d.lcyView id off

/-- The per-flow counters of the flow in FAB_FLOW_SEL (R182). -/
def Dev.flowMissRead (d : Dev) : Word × Dev :=
  let f := d.fld fabFlowSel 0 12
  (mget (fun _ => 0) d.fab.flowMiss f,
   { d with fab := { d.fab with flowMiss := mset (fun _ => 0) d.fab.flowMiss f (Access.rc.afterRead (mget (fun _ => 0) d.fab.flowMiss f)) } })

/-- A read of the register at `off` by its access type: the word, and the device after it. -/
def Dev.readReg (d : Dev) (id : Fin 13) (r : RegRow) (off : Nat) : Word × Dev :=
  if off = 0x200044 then d.statLatch id off (mget (fun _ => Stat.zero) d.fab.flowAcc (d.fld fabFlowSel 0 12))
  else if off = 0x200048 then (d.idReg id off, d)
  else if off = 0x20004C then d.flowMissRead
  else if off = timeNow 0 then d.timeNowRead id
  else if off = timePpsInTs 0 then d.ppsTsRead id
  else if 0x380000 ≤ off ∧ off < 0x400000 ∧ (off - 0x380000) % 0x1000 = 0x2C then d.txtsPop ((off - 0x380000) / 0x1000)
  else match r.acc with
    | .wo => (0, d)
    | .rc => d.rcRead off
    | .statLo => d.statLatch id off (d.stat off)
    | .statHi => (d.idReg id off, d)
    | .perId => (d.idReg id off, d)
    | _ => ((d.view id off).getD (d.reg off), d)

/-- A read on the control bus: none where R49 handles it (R16, R17, R48, R49). -/
def Dev.busRead (d : Dev) (id : Fin 13) (off : Nat) (narrow : Bool) : Option Word × Dev :=
  if badAccess off narrow then (none, d.ctrlDecode id.val false true off)
  else match regRow off with
    | none => (none, d.ctrlDecode id.val false false off)
    | some r =>
      if d.readOk id off then
        let x := d.readReg id r off
        (some x.1, x.2)
      else (none, d.ctrlDecode id.val false false off)

/-- The read data of an access: 0 where R49 handles it (R17). -/
def Dev.readInto (d : Dev) (id : Fin 13) (off : Nat) (narrow : Bool) : Dev :=
  let x := d.busRead id off narrow
  x.2.setRead id (x.1.getD 0)

/-! ## The commands -/

def execRegisterWrite (id : Fin 13) (off : BitVec 24) (narrow : Bool) (v : Word) (s : State) : Host.Outcome State Fault Refusal :=
  finishBy id s (s.dev.busWrite id off.toNat narrow v)

/-- RC_READ: a read of an RC field, or of any other register that reads without latching. -/
def execRcRead (id : Fin 13) (off : BitVec 24) (narrow : Bool) (s : State) : Host.Outcome State Fault Refusal :=
  finishBy id s (s.dev.readInto id off.toNat narrow)

/-- STAT_LOW_READ: the low word of a statistics counter. -/
def execStatLowRead (id : Fin 13) (off : BitVec 24) (s : State) : Host.Outcome State Fault Refusal :=
  finishBy id s (s.dev.readInto id off.toNat false)

def execChipErrLock (id : Fin 13) (v : Word) (s : State) : Host.Outcome State Fault Refusal :=
  finishBy id s (s.dev.busWrite id chipErrCtrl false (setBit v 0 true))

def execChipErrPendingClear (id : Fin 13) (v : Word) (s : State) : Host.Outcome State Fault Refusal :=
  finishBy id s (s.dev.busWrite id chipErrPending false v)

def execChipErrInject (id : Fin 13) (v : Word) (s : State) : Host.Outcome State Fault Refusal :=
  finishBy id s (s.dev.busWrite id chipErrInject false (setBit v 31 true))

end Sys2Proof.Machine
end

