-- ==== Sys2Proof/Machine/Imfa.lean ====
section
/-! DEFINITION. The transports of the hive and the Imfa commands of the system, register, admission, bank and port groups
(chapter 11). -/
namespace Sys2Proof.Machine

/-! ## Checks on arrival (R514, R517 to R519) -/

/-- The command codes of R531 to R542. -/
def opcodes : List Nat :=
  (List.range 4).map (fun i => i) ++ (List.range 3).map (0x0100 + ·) ++ (List.range 8).map (0x0200 + ·) ++
  (List.range 11).map (0x0300 + ·) ++ (List.range 5).map (0x0400 + ·) ++ (List.range 8).map (0x0500 + ·) ++
  (List.range 7).map (0x0600 + ·) ++ (List.range 4).map (0x0700 + ·) ++ (List.range 4).map (0x0800 + ·) ++ [0x0900]

/-- A request that is refused as it arrives is the latest of its transport (R518). -/
def Dev.refuseReq (d : Dev) (v : Via) (tag : BitVec 16) (a : Answer) : Dev :=
  (d.setHport v { d.hport v with newer := true }).reply v tag a

/-- A refusal at checks 2 to 5: counted and answered, not taken up. -/
def Dev.refuseArrival (d : Dev) (v : Via) (tag : BitVec 16) (a : Answer) : Dev :=
  (d.count (imfaBad (viaNum v))).refuseReq v tag a

/-- The request joins those that wait; on SPI, I2C and JTAG it takes the place of one that has not been taken up, and one that
waits in the admission engine has been. The transport's stored reply is discarded (R517, R518). -/
def Dev.queueReq (d : Dev) (r : Req) : Dev :=
  let n := b2n d.requestWaits
  let keep := if isEp48 r.via then d.hive.waiting
    else d.hive.waiting.take n ++ (d.hive.waiting.drop n).filter (fun w => decide (w.via ≠ r.via))
  let d := d.setHport r.via { d.hport r.via with reply := none, newer := false }
  { d with hive := { d.hive with waiting := keep ++ [r] } }

/-- A retry of the latest request taken up is not executed again (R519). -/
def Dev.retryOf (d : Dev) (r : Req) : Dev :=
  if d.currentJob.any (fun j => decide (j.req.via = r.via)) then d.reply r.via r.tag (ansBusy detInProgress)
  else match (d.hport r.via).reply with
    | some x => d.sendReply r.via { x with replayed := true }
    | none => d

/-- Check 6, the reserved FLAGS bits of check 7, and RETRY. -/
def Dev.admitRequest (d : Dev) (r : Req) : Dev :=
  if !opcodes.contains r.opcode.toNat then d.refuseReq r.via r.tag (ansErr stBadOpcode 0)
  else if r.flags.toNat / 2 ≠ 0 then d.refuseReq r.via r.tag (ansBad detReserved)
  else if bit r.flags 0 && decide ((d.hport r.via).latest = some (r.opcode, r.tag)) then d.retryOf r
  else d.queueReq r

/-- Checks 2 to 5 of a request that begins with SYNC, then the rest. -/
def Dev.reqArrive (d : Dev) (v : Via) (bs : List Byte) : Dev :=
  let tag : BitVec 16 := BitVec.ofNat 16 (getLE 2 bs 4)
  let len := getLE 4 bs 8
  if bs.length < 16 ∨ crc32c (bs.take 12) ≠ getLE 4 bs 12 then d.refuseArrival v tag (ansErr stBadCrc detHeaderCrc)
  else if getLE 1 bs 1 ≠ 1 then d.refuseArrival v tag (ansBad detVersion)
  else if viaLimit v < len ∨ bs.length ≠ 20 + len then d.refuseArrival v tag (ansBad detLength)
  else if crc32c (bs.take (16 + len)) ≠ getLE 4 bs (16 + len) then d.refuseArrival v tag (ansErr stBadCrc detPacketCrc)
  else d.admitRequest { via := v, opcode := BitVec.ofNat 16 (getLE 2 bs 2), tag, flags := BitVec.ofNat 16 (getLE 2 bs 6),
                        params := slice bs 16 len }

/-! ## SPI and I2C (R524, R525, R527) -/

/-- The status byte of a transport (R525). -/
def Dev.portBusy (d : Dev) (v : Via) : Bool :=
  d.hive.waiting.any (fun r => decide (r.via = v)) || d.currentJob.any (fun j => decide (j.req.via = v))

def Dev.statusByte (d : Dev) (v : Via) : Byte :=
  let p := d.hport v
  BitVec.ofNat 8 (b2n p.reply.isSome * 128 + b2n (d.portBusy v) * 64 + b2n p.rxErr * 32 + b2n d.hive.ready * 16)

/-- The bytes of the stored reply. -/
def Dev.viaReply (d : Dev) (v : Via) : List Byte := ((d.hport v).reply.map Reply.packet).getD []

/-- A WRITE transaction of SPI or I2C: RX_ERR is cleared, and check 1 sets it again (R514, R525). -/
def Dev.writeTransaction (d : Dev) (v : Via) (bs : List Byte) : Dev :=
  if d.hive.ready then
    let d := d.setHport v { d.hport v with rxErr := false }
    if bs.head? = some 0xA7 then d.reqArrive v bs
    else (d.setHport v { d.hport v with rxErr := true }).count (imfaBad (viaNum v))
  else d

/-- What MGT_MISO returned after the command byte. -/
def Dev.setSpiOut (d : Dev) (bs : List Byte) : Dev := { d with hive := { d.hive with spiOut := bs } }

/-- MISO returns bytes, or nothing where its pad does not drive (R585, R588). -/
def Dev.setMiso (d : Dev) (bs : List Byte) : Dev := d.setSpiOut (if d.misoDriven then bs else [])

def Dev.setI2cOut (d : Dev) (bs : List Byte) : Dev := { d with hive := { d.hive with i2cOut := bs } }

/-- The SPI target takes a transaction: `alt`, the host makes it on pins 220 to 222, else on the MGT_ pins. The ones it does not
take its signals from are ignored (R588), and pins of an unpowered bank read 0: no clock comes (R617). -/
def Dev.spiTakes (d : Dev) (alt : Bool) : Bool := (alt == d.altSpi) && !(alt && d.pinUnpowered 220)

/-- A transaction that the target takes; under another one MISO stays at high impedance (R588). -/
def Dev.spiDo (d : Dev) (alt : Bool) (f : Dev → Dev) : Dev := if d.spiTakes alt then f d else d.setSpiOut []

/-- SPI WRITE: one whole request; MGT_MISO returns 0x00 for each of its bytes (R524). -/
def execSpiWrite (alt : Bool) (bytes : List Byte) (s : State) : Host.Outcome State Fault Refusal :=
  finish s (s.dev.spiDo alt (fun d => (d.writeTransaction .spi bytes).setMiso (zeros bytes.length)))

/-- SPI STATUS: the status byte for each of `n` bytes clocked; 0x00 while the hive is not ready. -/
def execSpiStatus (alt : Bool) (n : BitVec 16) (s : State) : Host.Outcome State Fault Refusal :=
  finish s (s.dev.spiDo alt (fun d =>
    d.setMiso (if d.hive.ready then List.replicate n.toNat (d.statusByte .spi) else zeros n.toNat)))

/-- SPI READ: a dummy byte, the reply from byte 0, then 0x00. -/
def execSpiRead (alt : Bool) (n : BitVec 16) (s : State) : Host.Outcome State Fault Refusal :=
  finish s (s.dev.spiDo alt (fun d =>
    d.setMiso (if d.hive.ready then fit n.toNat (0 :: d.viaReply .spi) else zeros n.toNat)))

/-- The target acknowledges its address (R527). -/
def Dev.i2cAnswers (d : Dev) (addr : BitVec 7) : Bool := d.hive.ready && decide (addr.toNat = 0x48 + d.hive.addr.toNat)

def execI2cWrite (addr : BitVec 7) (bytes : List Byte) (s : State) : Host.Outcome State Fault Refusal :=
  finish s (if s.dev.i2cAnswers addr then s.dev.writeTransaction .i2c bytes else s.dev)

def execI2cStatus (addr : BitVec 7) (n : BitVec 16) (s : State) : Host.Outcome State Fault Refusal :=
  let d := s.dev
  finish s (d.setI2cOut (if d.i2cAnswers addr then List.replicate n.toNat (d.statusByte .i2c) else []))

/-- I2C READ: the reply from byte 0, then 0x00. -/
def execI2cRead (addr : BitVec 7) (n : BitVec 16) (s : State) : Host.Outcome State Fault Refusal :=
  let d := s.dev
  finish s (d.setI2cOut (if d.i2cAnswers addr then fit n.toNat (d.viaReply .i2c) else []))

/-! ## The JTAG data register (R530) -/

/-- RCOUNT and what Capture-DR of the IMFA register loads. -/
def Dev.rcount (d : Dev) : Nat := min 2 ((d.viaReply .jtag).length - d.hive.jtag.rptr)

def Dev.imfaCapture (d : Dev) : Word :=
  let p := d.hive.jtag
  let bs := (d.viaReply .jtag).drop p.rptr
  BitVec.ofNat 32 (b2n p.reply.isSome * 2 ^ 31 + b2n (d.portBusy .jtag) * 2 ^ 30 + b2n p.rxErr * 2 ^ 29 +
    b2n d.hive.ready * 2 ^ 28 + d.rcount * 65536 + getLE 2 (bs.take d.rcount) 0)

/-- The code of the instruction IMFA (R675). -/
def irImfa : BitVec 10 := 0x021

/-- A scan of the IMFA register: Capture-DR, then the operation of Update-DR. -/
def Dev.imfaScan (d : Dev) (f : Dev → Dev) : Dev :=
  if d.jtag.ir = irImfa then
    let c := d.imfaCapture
    f { d with jtag := { d.jtag with out := c } }
  else d

def Dev.setJpart (d : Dev) (part : List Byte) (discard : Bool) : Dev :=
  { d with hive := { d.hive with jtag := { d.hive.jtag with part, discard } } }

/-- One byte is appended to the request. Check 1 passes over bytes until a SYNC; a header that fails check 2, or that
asks for more bytes than check 4 allows, is refused at its last byte, and bytes are discarded until ABORT. -/
def Dev.appendByte (d : Dev) (b : Byte) : Dev :=
  let p := d.hive.jtag
  if d.hive.ready = false ∨ p.discard = true then d
  else if p.part = [] ∧ b ≠ 0xA7 then { d with hive := { d.hive with jtag := { p with rxErr := true } } }
  else
    let bs := p.part ++ [b]
    let len := getLE 4 bs 8
    if bs.length < 16 then d.setJpart bs false
    else if bs.length = 16 ∧ (crc32c (bs.take 12) ≠ getLE 4 bs 12 ∨ viaLimit .jtag < len) then
      (d.setJpart [] true).refuseArrival .jtag (BitVec.ofNat 16 (getLE 2 bs 4))
        (if crc32c (bs.take 12) ≠ getLE 4 bs 12 then ansErr stBadCrc detHeaderCrc
         else if getLE 1 bs 1 ≠ 1 then ansBad detVersion else ansBad detLength)
    else if bs.length = 20 + len then (d.setJpart [] false).reqArrive .jtag bs
    else d.setJpart bs false

/-- WRITE: `n` is bits [17:16] of the scanned word, `data` its bits [15:0]; other values of `n` act as NOP. -/
def execImfaJtagWrite (n : BitVec 2) (data : BitVec 16) (s : State) : Host.Outcome State Fault Refusal :=
  let lo : Byte := BitVec.ofNat 8 data.toNat
  let hi : Byte := BitVec.ofNat 8 (data.toNat / 256)
  finish s (s.dev.imfaScan (fun d =>
    if n = 1 then d.appendByte lo else if n = 2 then (d.appendByte lo).appendByte hi else d))

/-- READ: the reply pointer advances by the RCOUNT of the same scan. -/
def execImfaJtagRead (s : State) : Host.Outcome State Fault Refusal :=
  finish s (s.dev.imfaScan (fun d =>
    { d with hive := { d.hive with jtag := { d.hive.jtag with rptr := d.hive.jtag.rptr + d.rcount } } }))

/-- ABORT: the partial request and the stored reply are discarded, and RX_ERR is cleared. -/
def execImfaJtagAbort (s : State) : Host.Outcome State Fault Refusal :=
  finish s (s.dev.imfaScan (fun d =>
    { d with hive := { d.hive with jtag := { d.hive.jtag with part := [], discard := false, reply := none, rptr := 0, rxErr := false } } }))

/-! ## Endpoint 48 (R529) -/

/-- The requests of endpoint 48 that wait. -/
def Dev.ep48Waiting (d : Dev) : Nat := (d.hive.waiting.filter (fun r => isEp48 r.via)).length

/-- EP48_MESSAGE: the oldest whole message of a flow is an Imfa request, is left to the user-data read engine, or is
discarded. -/
def Dev.ep48Message (d : Dev) (f : BitVec 12) : Dev :=
  match takeMessage f (d.rxCells 48) with
  | none => d
  | some (m, rest) =>
    let bs := messageBytes m
    let b0 := getLE 1 bs 0
    let err := m.any (fun c => c.err)
    if !err && decide (1 ≤ b0 ∧ b0 ≤ 4) then d
    else
      let d := d.setRx 48 rest
      if err || decide (b0 ≠ 0xA7) then d.count imfaDrop
      else if d.hive.ready = false then d
      else if 4 ≤ d.ep48Waiting then d.count imfaDrop
      else d.reqArrive (.ep48 (Fin.ofNat 52 ((m.head?.map (fun c => c.src.toNat)).getD 0))) bs

def execEp48Message (f : BitVec 12) (s : State) : Host.Outcome State Fault Refusal := finish s (s.dev.ep48Message f)

/-! ## Tickets (R520 to R522) -/

/-- The command being executed has used 500 ms: it gets a ticket, where one is free. -/
def execPendingReply (s : State) : Host.Outcome State Fault Refusal :=
  finish s (if s.dev.ticketsFull then s.dev else s.dev.ticketCurrent)

/-- A ticket is freed. -/
def Dev.freeTicket (d : Dev) (t : Word) : Dev := d.setJobs (d.hive.jobs.filter (fun j => decide (j.ticket ≠ some t)))

/-- 60 s have passed since the command of a ticket ended. -/
def execTicketExpiry (t : Word) (s : State) : Host.Outcome State Fault Refusal :=
  finish s (if s.dev.hive.jobs.any (fun j => decide (j.ticket = some t) && j.final.isSome) then s.dev.freeTicket t else s.dev)

/-! ## System commands (R531) -/

def cmdNop : Command := checked 0 [] [] (fun d _ => (d, some (ansOk)))

def execSysNop (s : State) : Host.Outcome State Fault Refusal := finish s (s.dev.imfa 0x0000 cmdNop)

def cmdSysInfo : Command := checked 0 [] [] (fun d _ =>
  (d, some (ansOk (putLE 4 Config.idcode.toNat ++ serialBytes ++ putLE 4 (d.reg imfaFwVersion).toNat ++ putLE 1 d.lcCode ++
    putLE 1 (b2n d.hive.fwSlot) ++ zeros 2 ++ putLE 4 (d.reg cfgBoot).toNat ++
    (List.range 8).flatMap (fun i => putLE 4 (d.reg (cfgDigest i)).toNat)))))

def execSysInfo (s : State) : Host.Outcome State Fault Refusal := finish s (s.dev.imfa 0x0001 cmdSysInfo)

def cmdTicketPoll : Command := checked 4 [] [] (fun d r =>
  let t : Word := BitVec.ofNat 32 (r.u 4 0)
  match d.hive.jobs.find? (fun j => decide (j.ticket = some t)) with
  | none => (d, some (ansBad detTicket))
  | some j =>
    match j.final with
    | none => (d, some (stPending, pendingPayload t j.progress))
    | some (st, p) => (d.freeTicket t, some (st.toNat, p)))

def execTicketPoll (s : State) : Host.Outcome State Fault Refusal := finish s (s.dev.imfa 0x0002 cmdTicketPoll)

def cmdSysReset : Command := checked 4 (zb [1, 2, 3]) [(0, 1, 1, 2)] (fun d r =>
  ({ d with hive := { d.hive with due := d.hive.due ++ [if r.u 1 0 = 1 then .device else .hive] } }, some (ansOk)))

def execSysReset (s : State) : Host.Outcome State Fault Refusal := finish s (s.dev.imfa 0x0003 cmdSysReset)

/-! ## Register commands (R532, R533) -/

/-- The control bus has handled an access under R49 between two states. -/
def Dev.decodeSince (d d' : Dev) : Bool :=
  (d'.raised.drop d.raised.length).any (fun e => decide (e.cls = clsCtrlDecode) && decide (e.source = srcBus))

/-- A write by identity 0: none where R49 handles it. -/
def Dev.hiveWriteReg (d : Dev) (off : Nat) (v : Word) : Dev × Bool :=
  let d' := d.busWrite 0 off false v
  (d', !d.decodeSince d')

/-- The addresses of a register command in order. -/
def addressesOf (r : Req) : List Nat :=
  (List.range (r.u 2 4)).map (fun i => if r.u 1 6 = 1 then r.u 4 0 + 4 * i else r.u 4 0)

def decodeAnswer (a : Nat) : Option Answer := some (ansBad detDecode a)

/-- The reads of REG_READ: the bytes so far. -/
def Dev.regReads (d : Dev) : List Nat → List Byte → Dev × Option Answer
  | [], out => (d, some (ansOk out))
  | a :: rest, out =>
    match d.busRead 0 a false with
    | (some v, d') => d'.regReads rest (out ++ putLE 4 v.toNat)
    | (none, d') => (d', decodeAnswer a)

/-- The writes of REG_WRITE, each address with its value. -/
def Dev.regWrites (d : Dev) (n : Nat) : List (Nat × Word) → Dev × Option Answer
  | [] => (d, some (ansOk (putLE 2 n ++ zeros 2)))
  | (a, v) :: rest =>
    match d.hiveWriteReg a v with
    | (d', true) => d'.regWrites n rest
    | (d', false) => (d', decodeAnswer a)

/-- An ADDRESS is a multiple of 4 below 0x100_0000. -/
def addressOk (r : Req) : Bool := decide (r.u 4 0 % 4 = 0) && decide (r.u 4 0 < 0x1000000)

/-- Check 7 of the register commands. -/
def regChecked (len : Req → Nat) (counted : Bool) (f : Command) : Command := fun d r =>
  if r.len < 8 then (d, some (ansBad detLength))
  else checked (len r) (if counted then zb [7] else []) [] (fun d r =>
    if !addressOk r then (d, some (ansBad detRange 0))
    else if counted ∧ (r.u 2 4 < 1 ∨ 1024 < r.u 2 4) then (d, some (ansBad detRange 4))
    else if counted ∧ 1 < r.u 1 6 then (d, some (ansBad detRange 6))
    else f d r) d r

def cmdRegRead : Command := regChecked (fun _ => 8) true (fun d r => d.regReads (addressesOf r) (putLE 4 (r.u 4 0)))

def execRegRead (s : State) : Host.Outcome State Fault Refusal := finish s (s.dev.imfa 0x0100 cmdRegRead)

def cmdRegWrite : Command := regChecked (fun r => 8 + 4 * r.u 2 4) true (fun d r =>
  let vs := (List.range (r.u 2 4)).map (fun i => (BitVec.ofNat 32 (r.u 4 (8 + 4 * i)) : Word))
  d.regWrites (r.u 2 4) ((addressesOf r).zip vs))

def execRegWrite (s : State) : Host.Outcome State Fault Refusal := finish s (s.dev.imfa 0x0101 cmdRegWrite)

/-- The word that REG_RMW writes. -/
def rmwWord (old m v : Word) : Word := (old &&& ~~~m) ||| (v &&& m)

def cmdRegRmw : Command := regChecked (fun _ => 12) false (fun d r =>
  let a := r.u 4 0
  match d.busRead 0 a false with
  | (none, d) => (d, decodeAnswer a)
  | (some old, d) =>
    let new := rmwWord old (BitVec.ofNat 32 (r.u 4 4)) (BitVec.ofNat 32 (r.u 4 8))
    match d.hiveWriteReg a new with
    | (d, true) => (d, some (ansOk (putLE 4 old.toNat ++ putLE 4 new.toNat)))
    | (d, false) => (d, decodeAnswer a))

def execRegRmw (s : State) : Host.Outcome State Fault Refusal := finish s (s.dev.imfa 0x0102 cmdRegRmw)

/-! ## Admission commands (R537) -/

/-- The engine's own reply. -/
def engineAnswer (x : Dev × Nat × List Byte) : Dev × Option Answer := (x.1, some (x.2.1, x.2.2))

/-- The hive would take up a request of this opcode now. -/
def Dev.takesNow (d : Dev) (opcode : Nat) : Bool :=
  d.hive.ready && d.currentJob.isNone && decide (d.hive.waiting.head?.map (fun r => r.opcode.toNat) = some opcode)

/-- The oldest waiting request goes to the engine. -/
def Dev.engineNext (d : Dev) : Bool := d.hive.waiting.head?.any engineRequest

/-- A request that needs a staged table waits from the start of slot 496 to the boundary (R211), and so does any of the engine, a
query too, behind a full load that waits (R200): it is not taken up. One that check 7 refuses never comes to the engine. -/
def Dev.engine (d : Dev) (opcode : Nat) (f : Command) : Dev :=
  if d.requestWaits || (d.adm.loadWaits.isSome && !d.adm.loadBehind && d.engineNext) then d
  else
    let e := d.imfa opcode f
    if d.adm.loadWaits.isSome && d.takesNow opcode && d.engineNext then
      ({ e with adm := { e.adm with loadBehind := false } }).flowsDue
    else e

def cmdFlowAdmit : Command := checked 32 [] [] (fun d r => engineAnswer (d.flowAdmit r.params))

def execFlowAdmit (s : State) : Host.Outcome State Fault Refusal := finish s (s.dev.engine 0x0400 cmdFlowAdmit)

def cmdFlowTeardown : Command := checked 4 (zb [2, 3]) [(0, 2, 0, 4095)] (fun d r => engineAnswer (d.flowTeardown (r.u 2 0)))

def execFlowTeardown (s : State) : Host.Outcome State Fault Refusal := finish s (s.dev.engine 0x0401 cmdFlowTeardown)

def cmdFlowQuery : Command := checked 2 [] [(0, 2, 0, 4095)] (fun d r => (d, some (ansOk (d.flowQuery (r.u 2 0)))))

def execFlowQuery (s : State) : Host.Outcome State Fault Refusal := finish s (s.dev.engine 0x0402 cmdFlowQuery)

def cmdFlowRepack : Command := checked 4 (zb [1, 2, 3]) [(0, 1, 0, 51)] (fun d r => engineAnswer (d.flowRepack (r.u 1 0)))

def execFlowRepack (s : State) : Host.Outcome State Fault Refusal := finish s (s.dev.engine 0x0403 cmdFlowRepack)

def cmdPairSwitch : Command := checked 4 (zb [2, 3]) [(0, 1, 0, 5)] (fun d r =>
  engineAnswer (d.pairSwitch (r.u 1 0) (r.u 1 1)))

def execPairSwitch (s : State) : Host.Outcome State Fault Refusal := finish s (s.dev.engine 0x0404 cmdPairSwitch)

/-! ## Bank commands (R411 to R413, R427, R431, R434, R436, R538) -/

/-- Every bank command is refused in RETIRED (R436). -/
def Dev.bankDenied (d : Dev) : Option Answer := if d.inRetired then some ansLife else none

/-- The four bytes of BANK_INFO for a bank. -/
def Dev.bankInfoOf (d : Dev) (owner flags p : Nat) : List Byte :=
  putLE 1 owner ++ putLE 1 flags ++
  putLE 1 (d.fld (bankTestStatus p) 30 2 * 64 + d.fld (bankTestStatus p) 0 3) ++ putLE 1 (d.bankFree p)

def cmdBankInfo : Command := checked 0 [] [] (fun d _ =>
  gated d.bankDenied d (fun _ =>
    (d, some (ansOk (putLE 4 (d.reg bankReady).toNat ++ putLE 4 (d.reg bankRemap).toNat ++ putLE 4 (d.reg bankShed).toNat ++
      (List.range 16).flatMap (fun k => d.bankInfoOf (d.fld (bankOwner k) 0 6)
        (b2n (d.rbit (bankCtrl k) 1) + 2 * b2n (d.rbit (bankCtrl k) 0) + 4 * b2n (d.rbit (bankOwner k) 31)) (d.physOf k)) ++
      d.bankInfoOf ownerNone 0 16)))))

def execBankInfo (s : State) : Host.Outcome State Fault Refusal := finish s (s.dev.imfa 0x0500 cmdBankInfo)

def cmdOwnerSet : Command := checked 4 (zb [2, 3]) [(0, 1, 0, 15)] (fun d r =>
  let k := r.u 1 0
  gated (firstOf [(if ownerOk (r.u 1 1) then none else some (ansBad detRange 1)), d.bankDenied, d.needTicket,
      busyNow (d.rbit (bankOwner k) 31)]) d (fun _ =>
    ((d.openJob r (.ownerSet k)).startHandover k (r.u 1 1), none)))

def execBankOwnerSet (s : State) : Host.Outcome State Fault Refusal := finish s (s.dev.imfa 0x0501 cmdOwnerSet)

def cmdGuestSet : Command := checked 12 (zb [1, 2, 3] ++ [(7, 0xF0), (11, 0xF0)]) [(0, 1, 0, 15)] (fun d r =>
  gated d.bankDenied d (fun _ =>
    ((d.setReg (bankGuestR (r.u 1 0)) (BitVec.ofNat 32 (r.u 4 4))).setReg (bankGuestW (r.u 1 0)) (BitVec.ofNat 32 (r.u 4 8)),
     some (ansOk))))

def execBankGuestSet (s : State) : Host.Outcome State Fault Refusal := finish s (s.dev.imfa 0x0502 cmdGuestSet)

def cmdRetain : Command := checked 4 (zb [2, 3]) [(0, 1, 0, 15), (1, 1, 0, 1)] (fun d r =>
  gated d.bankDenied d (fun _ =>
    ((d.setRbit (bankCtrl (r.u 1 0)) 0 (decide (r.u 1 1 = 1))).bankRung (r.u 1 0), some (ansOk))))

def execBankRetain (s : State) : Host.Outcome State Fault Refusal := finish s (s.dev.imfa 0x0503 cmdRetain)

def cmdMarch : Command := checked 4 (zb [3]) [(0, 1, 0, 16), (1, 1, 0, 1), (2, 1, 0, 1)] (fun d r =>
  let p := r.u 1 0
  gated (firstOf [(if d.served 1 then none else some ansLife), d.needTicket,
      (if d.marchBusy p = 2 then some (ansBusy detState) else none), busyNow (decide (d.marchBusy p = 1))]) d (fun _ =>
    let d := d.startTicketJob r (.march p)
    ((d.finishRuns p).startMarch p { checker := decide (r.u 1 1 = 1), preserving := decide (r.u 1 2 = 1), cause := .command, stopped := false },
     none)))

def execBankMarch (s : State) : Host.Outcome State Fault Refusal := finish s (s.dev.imfa 0x0504 cmdMarch)

/-- The result of physical bank p allows it to be used: PASS, or a skip at the start (R426, R431). -/
def Dev.marchGood (d : Dev) (p : Nat) : Bool :=
  decide (d.fld (bankTestStatus p) 0 3 = resPass) || decide (d.fld (bankTestStatus p) 0 3 = resSkipped)

/-- Step 1 of R433: a copy starts from word 0. -/
def Dev.startCopy (d : Dev) (state k : Nat) : Dev := d.setReg bankRemap (BitVec.ofNat 32 (state * 2 ^ 30 + k))

def cmdMigrate : Command := checked 4 (zb [1, 2, 3]) [(0, 1, 0, 15)] (fun d r =>
  let k := r.u 1 0
  gated (firstOf [d.bankDenied, d.needTicket,
      busyNow (decide (d.remapState ≠ 0) || (d.march? 16).isSome || (d.march? k).isSome),
      (if d.marchGood 16 then none else some (ansBad detState))]) d (fun _ =>
    ((d.startTicketJob r (.migrate k)).startCopy 1 k, none)))

def execBankMigrate (s : State) : Host.Outcome State Fault Refusal := finish s (s.dev.imfa 0x0505 cmdMigrate)

def cmdUndo : Command := checked 4 (zb [1, 2, 3]) [(0, 1, 0, 15)] (fun d r =>
  let k := r.u 1 0
  gated (firstOf [d.bankDenied, d.needTicket,
      (if d.remapState = 2 ∧ d.remapTarget = k then none else some (ansBad detState)),
      (if d.bank.retested ∧ d.fld (bankTestStatus k) 0 3 = resPass then none else some (ansBad detState))]) d (fun _ =>
    ((d.startTicketJob r (.remapUndo k)).startCopy 3 k, none)))

def execBankRemapUndo (s : State) : Host.Outcome State Fault Refusal := finish s (s.dev.imfa 0x0506 cmdUndo)

/-! ## Port commands (R541) -/

/-- The members of the port that MAC_CFG word `mac` names at primary lane `p`; a raw or idle lane stands alone. -/
def memberLanes (p : Nat) (sds mac : Word) : List Nat :=
  let k := bits mac 16 4
  if bits sds 24 4 = 1 ∧ [1, 2, 4, 8].contains k then ((List.range k).map (p + ·)).filter (fun n => decide (n < 16)) else [p]

/-- A write of PORT_CONFIG, which ends with an answer where the control bus refuses it. -/
def Dev.portStep (d : Dev) (off : Nat) (v : Word) (fenced : Bool) : Dev × Option Answer :=
  match d.hiveWriteReg off v with
  | (d', true) => (d', none)
  | (d', false) => (d', if fenced then some ansFence else decodeAnswer off)

/-- The writes in order, up to the first that ends the command. -/
def Dev.portSteps (d : Dev) : List (Nat × (Dev → Word)) → Dev × Option Answer
  | [] => (d, none)
  | (off, v) :: rest =>
    match d.portStep off (v d) (decide (0x300000 ≤ off) && decide (off < 0x380000) && decide ((off - 0x300000) % 0x8000 = 8)) with
    | (d', some a) => (d', some a)
    | (d', none) => d'.portSteps rest

/-- SDS_CTRL as BRING_UP leaves it: RST clear, TX_EN and RX_EN set. -/
def bringUpWord (old : Word) : Word := setBits old 0 3 6

/-- A register and the word that is written to it. -/
def fixedWrite (off : Nat) (v : Word) : Nat × (Dev → Word) := (off, fun _ => v)
def bringUpWrite (n : Nat) : Nat × (Dev → Word) := (sdsCtrl n, fun d => bringUpWord (d.reg (sdsCtrl n)))

/-- A register as the hive reads it, without the effects of a read. -/
def Dev.seen (d : Dev) (off : Nat) : Word := (d.view 0 off).getD (d.reg off)

def cmdPortConfig : Command :=
  checked 24 (zb [1, 2, 3, 21, 22, 23] ++ [(20, 0xFE)]) [(0, 1, 0, 15)] (fun d r =>
    let p := r.u 1 0
    let sds : Word := BitVec.ofNat 32 (r.u 4 4)
    let mac : Word := BitVec.ofNat 32 (r.u 4 12)
    let ms := memberLanes p sds mac
    match d.portSteps (ms.map (fun n => fixedWrite (sdsCfg n) sds) ++ [fixedWrite (sdsRate p) (BitVec.ofNat 32 (r.u 4 8))]) with
    | (d, some a) => (d, some a)
    | (d, none) =>
      let refused := bit mac 31 && !d.macCfgOk p (mac &&& 0x8F0FC000)
      match d.portSteps [fixedWrite (macCfg p) mac] with
      | (d, some a) => (d, some a)
      | (d, none) =>
        if refused then (d, some (ansBad detState))
        else
          match d.portSteps (fixedWrite (macCtrl p) (BitVec.ofNat 32 (r.u 4 16)) ::
              (if r.u 1 20 % 2 = 1 then ms.map bringUpWrite else [])) with
          | (d, some a) => (d, some a)
          | (d, none) => (d, some (ansOk (putLE 4 (d.seen (sdsStatus p)).toNat ++ putLE 4 (d.seen (macStatus p)).toNat))))

def execPortConfig (s : State) : Host.Outcome State Fault Refusal := finish s (s.dev.imfa 0x0800 cmdPortConfig)

/-- The writes of LANE_TEST: marking, then loopback and patterns; or the patterns stopped, the loopback and the mark
cleared. -/
def Dev.laneTestWrites (d : Dev) (n : Nat) (r : Req) : Dev :=
  if r.u 1 1 = 1 then
    let d := d.sdsCtrlWrite 0 n (setBits (setBit (d.reg (sdsCtrl n)) 31 true) 28 3 (r.u 1 2))
    let b := r.u 1 4
    d.prbsCtrlWrite n (BitVec.ofNat 32 (b2n (b.testBit 0) * 2 ^ 31 + b2n (b.testBit 1) * 2 ^ 30 + b2n (b.testBit 2) * 2 ^ 29 + r.u 1 3))
  else
    let d := d.prbsCtrlWrite n (setBits (d.reg (sdsPrbsCtrl n)) 28 4 (2 * bits (d.reg (sdsPrbsCtrl n)) 29 1))
    let d := d.sdsCtrlWrite 0 n (setBits (d.reg (sdsCtrl n)) 28 3 0)
    d.sdsCtrlWrite 0 n (setBit (d.reg (sdsCtrl n)) 31 false)

def cmdLaneTest : Command :=
  checked 8 ([(4, 0xF8)] ++ zb [5, 6, 7]) [(0, 1, 0, 15), (1, 1, 0, 1), (2, 1, 0, 4), (3, 1, 0, 4)] (fun d r =>
    gated (if d.inRetired then some ansLife else none) d (fun _ =>
      let n := r.u 1 0
      let d := d.laneTestWrites n r
      let st := d.reg (sdsPrbsStatus n)
      let (err, d) := d.rcRead (sdsPrbsErr n)
      let (lo, d) := d.statLatch 0 (sdsPrbsBits n) (d.stat (sdsPrbsBits n))
      (d, some (ansOk (putLE 4 st.toNat ++ putLE 4 err.toNat ++ putLE 4 lo.toNat ++ putLE 4 (d.idReg 0 (sdsPrbsBits n + 4)).toNat)))))

def execLaneTest (s : State) : Host.Outcome State Fault Refusal := finish s (s.dev.imfa 0x0801 cmdLaneTest)

end Sys2Proof.Machine
end

