-- ==== Sys2Proof/Machine/Dispatch.lean ====
section
/-! DEFINITION. The one match that gives each command its meaning. -/
namespace Sys2Proof.Machine

/-- The effect of a command on everything but the queue. -/
def exec (i : Instr) (s : State) : Host.Outcome State Fault Refusal :=
  match i with
  | .powerGood inp => Sys2Proof.Machine.execPowerGood inp s
  | .powerOnReset torn => Sys2Proof.Machine.execPowerOnReset torn s
  | .resetNAssert => Sys2Proof.Machine.execResetNAssert s
  | .deviceReset inp => Sys2Proof.Machine.execDeviceReset inp s
  | .deferredReset inp => Sys2Proof.Machine.execDeferredReset inp s
  | .hiveReset cause => Sys2Proof.Machine.execHiveReset cause s
  | .hiveReady => Sys2Proof.Machine.execHiveReady s
  | .watchdogExpiry => Sys2Proof.Machine.execWatchdogExpiry s
  | .watchdogKick id v => Sys2Proof.Machine.execWatchdogKick id v s
  | .shedRungHold rung aux mv => Sys2Proof.Machine.execShedRungHold rung aux mv s
  | .shedClassStep mv => Sys2Proof.Machine.execShedClassStep mv s
  | .shedRungRestore rung aux mv => Sys2Proof.Machine.execShedRungRestore rung aux mv s
  | .shedClassThaw mv => Sys2Proof.Machine.execShedClassThaw mv s
  | .vccNvLow => Sys2Proof.Machine.execVccNvLow s
  | .vccNvHalt => Sys2Proof.Machine.execVccNvHalt s
  | .vccNvRestore full => Sys2Proof.Machine.execVccNvRestore full s
  | .vccioLoss bank => Sys2Proof.Machine.execVccioLoss bank s
  | .vccioReturn bank => Sys2Proof.Machine.execVccioReturn bank s
  | .tempSample x => Sys2Proof.Machine.execTempSample x s
  | .tamperTrip source lost => Sys2Proof.Machine.execTamperTrip source lost s
  | .clockLoss fabricRef fclkPll timeRef tclkPll => Sys2Proof.Machine.execClockLoss fabricRef fclkPll timeRef tclkPll s
  | .timeRefLost => Sys2Proof.Machine.execTimeRefLost s
  | .timeRefReturn freq => Sys2Proof.Machine.execTimeRefReturn freq s
  | .shutdownReqPin => Sys2Proof.Machine.execShutdownReqPin s
  | .shutdownDrained base => Sys2Proof.Machine.execShutdownDrained base s
  | .shutdownTestEnd x => Sys2Proof.Machine.execShutdownTestEnd x s
  | .healthRecordWritten failing => Sys2Proof.Machine.execHealthRecordWritten failing s
  | .lifecycleWipeDone failing => Sys2Proof.Machine.execLifecycleWipeDone failing s
  | .nonceExpiry => Sys2Proof.Machine.execNonceExpiry s
  | .spiWrite alt bytes => Sys2Proof.Machine.execSpiWrite alt bytes s
  | .spiStatus alt n => Sys2Proof.Machine.execSpiStatus alt n s
  | .spiRead alt n => Sys2Proof.Machine.execSpiRead alt n s
  | .i2cWrite addr bytes => Sys2Proof.Machine.execI2cWrite addr bytes s
  | .i2cStatus addr n => Sys2Proof.Machine.execI2cStatus addr n s
  | .i2cRead addr n => Sys2Proof.Machine.execI2cRead addr n s
  | .imfaJtagWrite n data => Sys2Proof.Machine.execImfaJtagWrite n data s
  | .imfaJtagRead => Sys2Proof.Machine.execImfaJtagRead s
  | .imfaJtagAbort => Sys2Proof.Machine.execImfaJtagAbort s
  | .ep48Message f => Sys2Proof.Machine.execEp48Message f s
  | .pendingReply => Sys2Proof.Machine.execPendingReply s
  | .ticketExpiry t => Sys2Proof.Machine.execTicketExpiry t s
  | .sysNop => Sys2Proof.Machine.execSysNop s
  | .sysInfo => Sys2Proof.Machine.execSysInfo s
  | .ticketPoll => Sys2Proof.Machine.execTicketPoll s
  | .sysReset => Sys2Proof.Machine.execSysReset s
  | .regRead => Sys2Proof.Machine.execRegRead s
  | .regWrite => Sys2Proof.Machine.execRegWrite s
  | .regRmw => Sys2Proof.Machine.execRegRmw s
  | .nvsInfo => Sys2Proof.Machine.execNvsInfo s
  | .nvsRead drift => Sys2Proof.Machine.execNvsRead drift s
  | .nvsProgram => Sys2Proof.Machine.execNvsProgram s
  | .nvsProgramDone plane => Sys2Proof.Machine.execNvsProgramDone plane s
  | .nvsErase => Sys2Proof.Machine.execNvsErase s
  | .nvsEraseDone plane verified failing => Sys2Proof.Machine.execNvsEraseDone plane verified failing s
  | .nvsSuspend => Sys2Proof.Machine.execNvsSuspend s
  | .nvsResume => Sys2Proof.Machine.execNvsResume s
  | .eraseReadResume plane => Sys2Proof.Machine.execEraseReadResume plane s
  | .suspendCommandTimeout plane => Sys2Proof.Machine.execSuspendCommandTimeout plane s
  | .nvsDigest drift => Sys2Proof.Machine.execNvsDigest drift s
  | .nvsPatrol => Sys2Proof.Machine.execNvsPatrol s
  | .patrolSector extra drift => Sys2Proof.Machine.execPatrolSector extra drift s
  | .gapMoveStart => Sys2Proof.Machine.execGapMoveStart s
  | .gapMoveCopyDone drift => Sys2Proof.Machine.execGapMoveCopyDone drift s
  | .refreshMove => Sys2Proof.Machine.execRefreshMove s
  | .nvsRecovery failing => Sys2Proof.Machine.execNvsRecovery failing s
  | .eraseToken => Sys2Proof.Machine.execEraseToken s
  | .cfgInfo => Sys2Proof.Machine.execCfgInfo s
  | .cfgStreamOpen => Sys2Proof.Machine.execCfgStreamOpen s
  | .cfgStreamData => Sys2Proof.Machine.execCfgStreamData s
  | .cfgStreamClose => Sys2Proof.Machine.execCfgStreamClose s
  | .cfgStreamAbort => Sys2Proof.Machine.execCfgStreamAbort s
  | .streamIdleTimeout => Sys2Proof.Machine.execStreamIdleTimeout s
  | .cfgCommit => Sys2Proof.Machine.execCfgCommit s
  | .regionLoad => Sys2Proof.Machine.execRegionLoad s
  | .regionFreeze => Sys2Proof.Machine.execRegionFreeze s
  | .regionThaw => Sys2Proof.Machine.execRegionThaw s
  | .cfgLibErase => Sys2Proof.Machine.execCfgLibErase s
  | .cfgReadback => Sys2Proof.Machine.execCfgReadback s
  | .cfgLoadUpdate v => Sys2Proof.Machine.execCfgLoadUpdate v s
  | .chainReadStart sfdp => Sys2Proof.Machine.execChainReadStart sfdp s
  | .chainSegment bytes earlyUs fullUs => Sys2Proof.Machine.execChainSegment bytes earlyUs fullUs s
  | .scrubFrame n flips shift => Sys2Proof.Machine.execScrubFrame n flips shift s
  | .scrubChipFrame flips => Sys2Proof.Machine.execScrubChipFrame flips s
  | .flowAdmit => Sys2Proof.Machine.execFlowAdmit s
  | .flowTeardown => Sys2Proof.Machine.execFlowTeardown s
  | .flowQuery => Sys2Proof.Machine.execFlowQuery s
  | .flowRepack => Sys2Proof.Machine.execFlowRepack s
  | .pairSwitch => Sys2Proof.Machine.execPairSwitch s
  | .flowDrainDone f => Sys2Proof.Machine.execFlowDrainDone f s
  | .pairDrainDone k => Sys2Proof.Machine.execPairDrainDone k s
  | .endpointSuspend e => Sys2Proof.Machine.execEndpointSuspend e s
  | .endpointResume e => Sys2Proof.Machine.execEndpointResume e s
  | .bankInfo => Sys2Proof.Machine.execBankInfo s
  | .bankOwnerSet => Sys2Proof.Machine.execBankOwnerSet s
  | .bankGuestSet => Sys2Proof.Machine.execBankGuestSet s
  | .bankRetain => Sys2Proof.Machine.execBankRetain s
  | .bankMarch => Sys2Proof.Machine.execBankMarch s
  | .bankMigrate => Sys2Proof.Machine.execBankMigrate s
  | .bankRemapUndo => Sys2Proof.Machine.execBankRemapUndo s
  | .regionSelftest => Sys2Proof.Machine.execRegionSelftest s
  | .lcyInfo => Sys2Proof.Machine.execLcyInfo s
  | .serviceChallenge => Sys2Proof.Machine.execServiceChallenge s
  | .serviceResponse => Sys2Proof.Machine.execServiceResponse s
  | .servicePassword => Sys2Proof.Machine.execServicePassword s
  | .serviceClose => Sys2Proof.Machine.execServiceClose s
  | .lcyTransition => Sys2Proof.Machine.execLcyTransition s
  | .keyProvision => Sys2Proof.Machine.execKeyProvision s
  | .logInfo => Sys2Proof.Machine.execLogInfo s
  | .logRead => Sys2Proof.Machine.execLogRead s
  | .logClear => Sys2Proof.Machine.execLogClear s
  | .telemetry => Sys2Proof.Machine.execTelemetry s
  | .portConfig => Sys2Proof.Machine.execPortConfig s
  | .laneTest => Sys2Proof.Machine.execLaneTest s
  | .moduleScan => Sys2Proof.Machine.execModuleScan s
  | .moduleInfo => Sys2Proof.Machine.execModuleInfo s
  | .shutdown => Sys2Proof.Machine.execShutdown s
  | .registerWrite id off narrow v => Sys2Proof.Machine.execRegisterWrite id off narrow v s
  | .rcRead id off narrow => Sys2Proof.Machine.execRcRead id off narrow s
  | .statLowRead id off => Sys2Proof.Machine.execStatLowRead id off s
  | .chipErrLock id v => Sys2Proof.Machine.execChipErrLock id v s
  | .chipErrPendingClear id v => Sys2Proof.Machine.execChipErrPendingClear id v s
  | .chipErrInject id v => Sys2Proof.Machine.execChipErrInject id v s
  | .rgnCtrlFreeze id n v => Sys2Proof.Machine.execRgnCtrlFreeze id n v s
  | .rgnCtrlThaw id n v => Sys2Proof.Machine.execRgnCtrlThaw id n v s
  | .regionThawDone n => Sys2Proof.Machine.execRegionThawDone n s
  | .rgnFaultClear id n v => Sys2Proof.Machine.execRgnFaultClear id n v s
  | .glineContention region line taps => Sys2Proof.Machine.execGlineContention region line taps s
  | .bramAccess n m a b upA upB bLater => Sys2Proof.Machine.execBramAccess n m a b upA upB bLater s
  | .bramWriteback n m => Sys2Proof.Machine.execBramWriteback n m s
  | .queueWrite n m data alsoRead upset => Sys2Proof.Machine.execQueueWrite n m data alsoRead upset s
  | .queueRead n m upset => Sys2Proof.Machine.execQueueRead n m upset s
  | .queueReset n m asserted => Sys2Proof.Machine.execQueueReset n m asserted s
  | .shiftRegisterShift n cell => Sys2Proof.Machine.execShiftRegisterShift n cell s
  | .arithAccumulate n b ops => Sys2Proof.Machine.execArithAccumulate n b ops s
  | .ioDelayStep pin output op => Sys2Proof.Machine.execIoDelayStep pin output op s
  | .iodelayCalibration trim => Sys2Proof.Machine.execIodelayCalibration trim s
  | .windowAccess n steals upset clash => Sys2Proof.Machine.execWindowAccess n steals upset clash s
  | .windowTimeout n => Sys2Proof.Machine.execWindowTimeout n s
  | .endpointClockLost e => Sys2Proof.Machine.execEndpointClockLost e s
  | .endpointClockRestored e => Sys2Proof.Machine.execEndpointClockRestored e s
  | .beStop id v => Sys2Proof.Machine.execBeStop id v s
  | .fabFlowSel id v => Sys2Proof.Machine.execFabFlowSel id v s
  | .fabEpClear id e v => Sys2Proof.Machine.execFabEpClear id e v s
  | .fabClsClear id p v => Sys2Proof.Machine.execFabClsClear id p v s
  | .clsEntryWrite id p index => Sys2Proof.Machine.execClsEntryWrite id p index s
  | .clsEntryRead id p index => Sys2Proof.Machine.execClsEntryRead id p index s
  | .clsAccessDone p => Sys2Proof.Machine.execClsAccessDone p s
  | .admFlowSel id v => Sys2Proof.Machine.execAdmFlowSel id v s
  | .txCell e flow dest som eom err bytes cls aspace data => Sys2Proof.Machine.execTxCell e flow dest som eom err bytes cls aspace data s
  | .ingressHead e => Sys2Proof.Machine.execIngressHead e s
  | .slotStart spareBad => Sys2Proof.Machine.execSlotStart spareBad s
  | .periodBoundary skew => Sys2Proof.Machine.execPeriodBoundary skew s
  | .calCopyDone => Sys2Proof.Machine.execCalCopyDone s
  | .cellEgressArrival e flips => Sys2Proof.Machine.execCellEgressArrival e flips s
  | .ackArrival e => Sys2Proof.Machine.execAckArrival e s
  | .creditReturn f => Sys2Proof.Machine.execCreditReturn f s
  | .cellHandover e f beReady => Sys2Proof.Machine.execCellHandover e f beReady s
  | .macFrameReceive p frame fcsBad codeErr fecCorr fecUncorr skew => Sys2Proof.Machine.execMacFrameReceive p frame fcsBad codeErr fecCorr fecUncorr skew s
  | .macTransmit p skew => Sys2Proof.Machine.execMacTransmit p skew s
  | .macTxtsPop id p => Sys2Proof.Machine.execMacTxtsPop id p s
  | .macClear id p => Sys2Proof.Machine.execMacClear id p s
  | .macCfgWrite id p v => Sys2Proof.Machine.execMacCfgWrite id p v s
  | .rawRxCell n line skew => Sys2Proof.Machine.execRawRxCell n line skew s
  | .rawTxCell n => Sys2Proof.Machine.execRawTxCell n s
  | .sdsCfgWrite id n rate v => Sys2Proof.Machine.execSdsCfgWrite id n rate v s
  | .sdsCtrlWrite id n v => Sys2Proof.Machine.execSdsCtrlWrite id n v s
  | .sdsPrbsCtrlWrite id n v => Sys2Proof.Machine.execSdsPrbsCtrlWrite id n v s
  | .prbsInject id n => Sys2Proof.Machine.execPrbsInject id n s
  | .txPllLock n => Sys2Proof.Machine.execTxPllLock n s
  | .cdrLockAcquired n => Sys2Proof.Machine.execCdrLockAcquired n s
  | .pcsLock n => Sys2Proof.Machine.execPcsLock n s
  | .fecLock p => Sys2Proof.Machine.execFecLock p s
  | .linkUp p => Sys2Proof.Machine.execLinkUp p s
  | .linkDown p blocks pcs fec localFault remoteFault => Sys2Proof.Machine.execLinkDown p blocks pcs fec localFault remoteFault s
  | .laneSignalLoss n sig cdr => Sys2Proof.Machine.execLaneSignalLoss n sig cdr s
  | .timeRateGo id v => Sys2Proof.Machine.execTimeRateGo id v s
  | .timeStepGo id v => Sys2Proof.Machine.execTimeStepGo id v s
  | .timeSetGo id v => Sys2Proof.Machine.execTimeSetGo id v s
  | .timeRateApply => Sys2Proof.Machine.execTimeRateApply s
  | .timeStepApply => Sys2Proof.Machine.execTimeStepApply s
  | .timeSetApply => Sys2Proof.Machine.execTimeSetApply s
  | .timeNowRead id => Sys2Proof.Machine.execTimeNowRead id s
  | .ppsOutPulse => Sys2Proof.Machine.execPpsOutPulse s
  | .ppsOutPulseEnd => Sys2Proof.Machine.execPpsOutPulseEnd s
  | .ppsInEdge rising skew => Sys2Proof.Machine.execPpsInEdge rising skew s
  | .ppsInTsRead id => Sys2Proof.Machine.execPpsInTsRead id s
  | .gatewayExecuteWrite k cls f upsets => Sys2Proof.Machine.execGatewayExecuteWrite k cls f upsets s
  | .gatewayExecuteRead k cls f upsets => Sys2Proof.Machine.execGatewayExecuteRead k cls f upsets s
  | .gatewayExecuteFence k cls f => Sys2Proof.Machine.execGatewayExecuteFence k cls f s
  | .userDataRead f drift => Sys2Proof.Machine.execUserDataRead f drift s
  | .bankPortCycle p upsets => Sys2Proof.Machine.execBankPortCycle p upsets s
  | .bankOwnerWrite id k v => Sys2Proof.Machine.execBankOwnerWrite id k v s
  | .bankHandoverDrained k => Sys2Proof.Machine.execBankHandoverDrained k s
  | .bankSecureWrite id k secure => Sys2Proof.Machine.execBankSecureWrite id k secure s
  | .bankWipeDone k => Sys2Proof.Machine.execBankWipeDone k s
  | .bankTestGo id p v => Sys2Proof.Machine.execBankTestGo id p v s
  | .bankMarchDone p failing spareBad => Sys2Proof.Machine.execBankMarchDone p failing spareBad s
  | .bankMigrateDone => Sys2Proof.Machine.execBankMigrateDone s
  | .bankRemapUndoDone => Sys2Proof.Machine.execBankRemapUndoDone s
  | .bankClear id k => Sys2Proof.Machine.execBankClear id k s
  | .nvsClear id v => Sys2Proof.Machine.execNvsClear id v s
  | .yieldCall p code => Sys2Proof.Machine.execYieldCall p code s
  | .blockOn p c b => Sys2Proof.Machine.execBlockOn p c b s
  | .signalCall p c => Sys2Proof.Machine.execSignalCall p c s
  | .sleepUntil p b => Sys2Proof.Machine.execSleepUntil p b s
  | .setPriority p a c b => Sys2Proof.Machine.execSetPriority p a c b s
  | .createCall p a b c => Sys2Proof.Machine.execCreateCall p a b c s
  | .exitCall p => Sys2Proof.Machine.execExitCall p s
  | .takeNext p => Sys2Proof.Machine.execTakeNext p s
  | .schCmdSignal id => Sys2Proof.Machine.execSchCmdSignal id s
  | .schCmdSetPriority id => Sys2Proof.Machine.execSchCmdSetPriority id s
  | .schCmdCreate id => Sys2Proof.Machine.execSchCmdCreate id s
  | .schCmdKill id => Sys2Proof.Machine.execSchCmdKill id s
  | .schRecSel id v => Sys2Proof.Machine.execSchRecSel id v s
  | .schSpillEnable id v => Sys2Proof.Machine.execSchSpillEnable id v s
  | .schEvCfgWrite id e v => Sys2Proof.Machine.execSchEvCfgWrite id e v s
  | .schTmrExpWrite id t hi v => Sys2Proof.Machine.execSchTmrExpWrite id t hi v s
  | .eventServe => Sys2Proof.Machine.execEventServe s
  | .schTimerFire t => Sys2Proof.Machine.execSchTimerFire t s
  | .wakeReached index => Sys2Proof.Machine.execWakeReached index s
  | .spillWriteDone => Sys2Proof.Machine.execSpillWriteDone s
  | .refillDone => Sys2Proof.Machine.execRefillDone s
  | .spillRetry => Sys2Proof.Machine.execSpillRetry s
  | .dmaChGo id e c v => Sys2Proof.Machine.execDmaChGo id e c v s
  | .dmaChResume id e c v => Sys2Proof.Machine.execDmaChResume id e c v s
  | .dmaChAbort id e c v => Sys2Proof.Machine.execDmaChAbort id e c v s
  | .dmaFqPop id e v => Sys2Proof.Machine.execDmaFqPop id e v s
  | .dmaClear id e v => Sys2Proof.Machine.execDmaClear id e v s
  | .dmaDescFetched e f => Sys2Proof.Machine.execDmaDescFetched e f s
  | .dmaIssue e => Sys2Proof.Machine.execDmaIssue e s
  | .dmaWalkDone e f => Sys2Proof.Machine.execDmaWalkDone e f s
  | .dmaAnswer e f => Sys2Proof.Machine.execDmaAnswer e f s
  | .dmaF2mCell e f => Sys2Proof.Machine.execDmaF2mCell e f s
  | .dmaWaitTestRetry e c => Sys2Proof.Machine.execDmaWaitTestRetry e c s
  | .dmaTestWaitExpiry e c => Sys2Proof.Machine.execDmaTestWaitExpiry e c s
  | .xltInval id v => Sys2Proof.Machine.execXltInval id v s
  | .xltInvalDone => Sys2Proof.Machine.execXltInvalDone s
  | .xltSpaceWrite id a r v => Sys2Proof.Machine.execXltSpaceWrite id a r v s
  | .xltSlqPop id v => Sys2Proof.Machine.execXltSlqPop id v s
  | .xltClear id v => Sys2Proof.Machine.execXltClear id v s
  | .gpioOutMasked id q v => Sys2Proof.Machine.execGpioOutMasked id q v s
  | .gpioOeMasked id q v => Sys2Proof.Machine.execGpioOeMasked id q v s
  | .gpioOutWrite id q v => Sys2Proof.Machine.execGpioOutWrite id q v s
  | .gpioOeWrite id q v => Sys2Proof.Machine.execGpioOeWrite id q v s
  | .gpioIrqDetect q pads => Sys2Proof.Machine.execGpioIrqDetect q pads s
  | .pmuxPinWrite id p v => Sys2Proof.Machine.execPmuxPinWrite id p v s
  | .pmuxAltSpi id v => Sys2Proof.Machine.execPmuxAltSpi id v s
  | .modScanAll id v => Sys2Proof.Machine.execModScanAll id v s
  | .modScan id v => Sys2Proof.Machine.execModScan id v s
  | .presenceChange n present => Sys2Proof.Machine.execPresenceChange n present s
  | .moduleLeadScan n => Sys2Proof.Machine.execModuleLeadScan n s
  | .moduleScanRetry n => Sys2Proof.Machine.execModuleScanRetry n s
  | .moduleScanTimeout n read => Sys2Proof.Machine.execModuleScanTimeout n read s
  | .moduleScanComplete n page record => Sys2Proof.Machine.execModuleScanComplete n page record s
  | .modXferGo id b v => Sys2Proof.Machine.execModXferGo id b v s
  | .modXferDone b ack data => Sys2Proof.Machine.execModXferDone b ack data s
  | .modBusFault b => Sys2Proof.Machine.execModBusFault b s
  | .logSelWrite id v => Sys2Proof.Machine.execLogSelWrite id v s
  | .logCtrlClear id v => Sys2Proof.Machine.execLogCtrlClear id v s
  | .jtagInstructionUpdate ir => Sys2Proof.Machine.execJtagInstructionUpdate ir s
  | .jtagTestLogicReset => Sys2Proof.Machine.execJtagTestLogicReset s
  | .resetNRelease inp => Sys2Proof.Machine.execResetNRelease inp s
  | .tamperSourceClear source => Sys2Proof.Machine.execTamperSourceClear source s
  | .prbsCheckerLock n errs bitsN => Sys2Proof.Machine.execPrbsCheckerLock n errs bitsN s
  | .prbsCheckerLoss n errs bitsN => Sys2Proof.Machine.execPrbsCheckerLoss n errs bitsN s
  | .blockLockLoss n => Sys2Proof.Machine.execBlockLockLoss n s
  | .regionSelftestStart n => Sys2Proof.Machine.execRegionSelftestStart n s
  | .regionSelftestDone n run misr failing => Sys2Proof.Machine.execRegionSelftestDone n run misr failing s
  | .selftestStartTimeout n => Sys2Proof.Machine.execSelftestStartTimeout n s

end Sys2Proof.Machine
end

