-- ==== Sys2Proof/Machine/Step.lean ====
section
/-! DEFINITION. One step: the command at the front of the queue, or the passage of time where none waits. -/
namespace Sys2Proof.Machine

/-- Nothing waits: one cycle of TCLK passes (R277), with the edges of the clock trees in it (R69), and no command acts
(DESIGN CHOICE, log entry 3). -/
def idle (s : State) : State :=
  let d := ({ s.dev with time := s.dev.time.tick }).laneTicks
  { s with dev := d.clockLogic (treeEdges s.dev d) }

def step (s : State) : Host.Outcome State Fault Refusal :=
  match s.pending with
  | [] => .next (idle s)
  | c :: rest => exec c { s with pending := rest }

/-- `s` with the command that a word spells at the front of its queue; `s` itself where the word spells none. -/
def State.withFetchWord (s : State) (nbits w : Nat) : State :=
  match decodeTableWord nbits w with
  | some c => { s with pending := c :: s.pending }
  | none => s

end Sys2Proof.Machine
end

