-- ==== Sys2Proof/Safety.lean ====
section
/-! DEFINITION. What holds of the block between commands, in the terms that statements use. -/
namespace Sys2Proof.Machine

/-- The addressed memories of the device are in canonical form: the words of the deep banks (R407), the rows of the block
memories (R82) and the code words of the store (R368) are listed by rising key, and none is listed that equals what its
key reads as when it is not listed. -/
def Memory.wf (d : Dev) : Bool :=
  mwf (wordUnlisted d.bank.wordsFree) d.bank.words &&
  mwf (bramUnlisted d.logic.bramFree) d.logic.bram &&
  mwf (fun _ => NvWord.blank) d.store.words

/-- No escalation waits for the policy engine (R27, R32), and no entry for the log (R570). -/
abbrev Dev.Quiet (d : Dev) : Prop := d.raised = [] ∧ d.log.intake = []

/-- Between commands no escalation and no log entry waits, ALERT_N shows what is pending (R39), and SHUTDOWN_DONE shows bit 31 of
PWR_STATUS (R636). -/
def State.Inv (s : State) : Prop :=
  s.dev.raised = [] ∧ s.dev.log.intake = [] ∧ s.dev.out.alert = s.dev.alertNow ∧ s.dev.out.shutdownDone = s.dev.rbit pwrStatus 31

/-- The state in which a command leaves the block when it makes the device `d`: what the command escalated has reached the
policy engine as one group (R32), the pins show the device as it then stands, and the queue is as it was. -/
def State.after (s : State) (d : Dev) : State := { s with dev := settle d.flush }

/-- The hive is ready and executes no command, and the oldest request that waits carries this OPCODE (R517). -/
def Dev.Takes (d : Dev) (opcode : Nat) (r : Req) (rest : List Req) : Prop :=
  d.hive.ready = true ∧ d.currentJob = none ∧ d.hive.waiting = r :: rest ∧ r.opcode.toNat = opcode

/-- The device once the hive has taken up request `r`: it waits no more, it is counted, the transport keeps a
stored reply only where it is that of a newer request, refused at once, and OPCODE and TAG are the latest taken up (R518, R519). -/
def Dev.taken (d : Dev) (r : Req) (rest : List Req) : Dev :=
  let d := { d with hive := { d.hive with waiting := rest } }
  let d := d.count (imfaReq (viaNum r.via))
  d.setHport r.via ((d.hport r.via).takes r)

/-- The state after the hive has answered request `r` from the device `d` with a status and a payload. -/
def State.answered (s : State) (d : Dev) (r : Req) (status : Nat) (payload : List Byte) : State :=
  s.after (d.jobReply r (status, payload))

/-- A dispatch port can take a call: it is online and none is outstanding (R450, R453). -/
def Dev.FreePort (d : Dev) (p : Fin 32) : Prop := d.online p = true ∧ d.callBusy (.port p) = false

/-- The device once a port has taken a call: its latest result shows no more (R452). -/
def Dev.called (d : Dev) (p : Fin 32) : Dev := d.setDport p { d.dport p with resValid := false }

/-- The requester identity of a command that is an access from the control bus (R48). -/
def busIdentity : Instr → Option (Fin 13)
  | .watchdogKick id _ => some id
  | .registerWrite id _ _ _ => some id
  | .rcRead id _ _ => some id
  | .statLowRead id _ => some id
  | .chipErrLock id _ => some id
  | .chipErrPendingClear id _ => some id
  | .chipErrInject id _ => some id
  | .rgnCtrlFreeze id _ _ => some id
  | .rgnCtrlThaw id _ _ => some id
  | .rgnFaultClear id _ _ => some id
  | .beStop id _ => some id
  | .fabFlowSel id _ => some id
  | .fabEpClear id _ _ => some id
  | .fabClsClear id _ _ => some id
  | .clsEntryWrite id _ _ => some id
  | .clsEntryRead id _ _ => some id
  | .admFlowSel id _ => some id
  | .macTxtsPop id _ => some id
  | .macClear id _ => some id
  | .macCfgWrite id _ _ => some id
  | .sdsCfgWrite id _ _ _ => some id
  | .sdsCtrlWrite id _ _ => some id
  | .sdsPrbsCtrlWrite id _ _ => some id
  | .prbsInject id _ => some id
  | .timeRateGo id _ => some id
  | .timeStepGo id _ => some id
  | .timeSetGo id _ => some id
  | .timeNowRead id => some id
  | .ppsInTsRead id => some id
  | .bankOwnerWrite id _ _ => some id
  | .bankSecureWrite id _ _ => some id
  | .bankTestGo id _ _ => some id
  | .bankClear id _ => some id
  | .nvsClear id _ => some id
  | .schCmdSignal id => some id
  | .schCmdSetPriority id => some id
  | .schCmdCreate id => some id
  | .schCmdKill id => some id
  | .schRecSel id _ => some id
  | .schSpillEnable id _ => some id
  | .schEvCfgWrite id _ _ => some id
  | .schTmrExpWrite id _ _ _ => some id
  | .dmaChGo id _ _ _ => some id
  | .dmaChResume id _ _ _ => some id
  | .dmaChAbort id _ _ _ => some id
  | .dmaFqPop id _ _ => some id
  | .dmaClear id _ _ => some id
  | .xltInval id _ => some id
  | .xltSpaceWrite id _ _ _ => some id
  | .xltSlqPop id _ => some id
  | .xltClear id _ => some id
  | .gpioOutMasked id _ _ => some id
  | .gpioOeMasked id _ _ => some id
  | .gpioOutWrite id _ _ => some id
  | .gpioOeWrite id _ _ => some id
  | .pmuxPinWrite id _ _ => some id
  | .pmuxAltSpi id _ => some id
  | .modScanAll id _ => some id
  | .modScan id _ => some id
  | .modXferGo id _ _ => some id
  | .logSelWrite id _ => some id
  | .logCtrlClear id _ => some id
  | _ => none

/-- The offset that a command writes where only the hive writes that register. -/
def hiveOffset : Instr → Option Nat
  | .beStop _ _ => some fabCtrl
  | .fabFlowSel _ _ => some fabFlowSel
  | .fabEpClear _ e _ => some (0x201058 + 0x80 * e.val)
  | .fabClsClear _ p _ => some (fabCls p)
  | .clsEntryWrite _ p _ => some (clsCmd p)
  | .clsEntryRead _ p _ => some (clsCmd p)
  | .watchdogKick _ _ => some lcyWdog
  | .logCtrlClear _ _ => some 0x700018
  | .pmuxPinWrite _ p _ => some (pmuxPin p)
  | .pmuxAltSpi _ _ => some pmuxCtrl
  | .modScanAll _ _ => some 0x640004
  | .modScan _ _ => some 0x640004
  | .modXferGo _ b _ => some (modXferCtrl b)
  | .sdsCfgWrite _ n rate _ => some (if rate then sdsRate n else sdsCfg n)
  | .sdsCtrlWrite _ n _ => some (sdsCtrl n)
  | .sdsPrbsCtrlWrite _ n _ => some (sdsPrbsCtrl n)
  | .prbsInject _ n => some (sdsPrbsCtrl n)
  | .macCfgWrite _ p _ => some (macCfg p)
  | .macClear _ p => some (macClear p)
  | .nvsClear _ _ => some 0x030058
  | .rgnCtrlFreeze _ n _ => some (rgnBase n + 4)
  | .rgnCtrlThaw _ n _ => some (rgnBase n + 4)
  | .rgnFaultClear _ n _ => some (rgnFault n)
  | .chipErrLock _ _ => some chipErrCtrl
  | .chipErrPendingClear _ _ => some chipErrPending
  | .chipErrInject _ _ => some chipErrInject
  | _ => none

/-- The OPCODE that a command of the hive takes up (R531 to R542). -/
def hiveOpcode : Instr → Option Nat
  | .sysNop => some 0x0000
  | .sysInfo => some 0x0001
  | .ticketPoll => some 0x0002
  | .sysReset => some 0x0003
  | .regRead => some 0x0100
  | .regWrite => some 0x0101
  | .regRmw => some 0x0102
  | .nvsInfo => some 0x0200
  | .nvsRead _ => some 0x0201
  | .nvsProgram => some 0x0202
  | .nvsErase => some 0x0203
  | .nvsSuspend => some 0x0204
  | .nvsResume => some 0x0205
  | .nvsDigest _ => some 0x0206
  | .nvsPatrol => some 0x0207
  | .cfgInfo => some 0x0300
  | .cfgStreamOpen => some 0x0301
  | .cfgStreamData => some 0x0302
  | .cfgStreamClose => some 0x0303
  | .cfgStreamAbort => some 0x0304
  | .cfgCommit => some 0x0305
  | .regionLoad => some 0x0306
  | .regionFreeze => some 0x0307
  | .regionThaw => some 0x0308
  | .cfgLibErase => some 0x0309
  | .cfgReadback => some 0x030A
  | .flowAdmit => some 0x0400
  | .flowTeardown => some 0x0401
  | .flowQuery => some 0x0402
  | .flowRepack => some 0x0403
  | .pairSwitch => some 0x0404
  | .bankInfo => some 0x0500
  | .bankOwnerSet => some 0x0501
  | .bankGuestSet => some 0x0502
  | .bankRetain => some 0x0503
  | .bankMarch => some 0x0504
  | .bankMigrate => some 0x0505
  | .bankRemapUndo => some 0x0506
  | .regionSelftest => some 0x0507
  | .lcyInfo => some 0x0600
  | .serviceChallenge => some 0x0601
  | .serviceResponse => some 0x0602
  | .servicePassword => some 0x0603
  | .serviceClose => some 0x0604
  | .lcyTransition => some 0x0605
  | .keyProvision => some 0x0606
  | .logInfo => some 0x0700
  | .logRead => some 0x0701
  | .logClear => some 0x0702
  | .telemetry => some 0x0703
  | .portConfig => some 0x0800
  | .laneTest => some 0x0801
  | .moduleScan => some 0x0802
  | .moduleInfo => some 0x0803
  | .shutdown => some 0x0900
  | _ => none

/-- Length, reserved bytes and ranges of the parameter field of a command that has a fixed one (R514). -/
def hiveParams : Instr → Option (Nat × List (Nat × Nat) × List (Nat × Nat × Nat × Nat))
  | .sysNop => some (0, [], [])
  | .sysInfo => some (0, [], [])
  | .ticketPoll => some (4, [], [])
  | .sysReset => some (4, (zb [1, 2, 3]), [(0, 1, 1, 2)])
  | .nvsInfo => some (0, [], [])
  | .nvsRead _ => some (12, (zb [1, 2, 3]), [(0, 1, 0, 6)])
  | .nvsErase => some (8, (zb [1]), [(0, 1, 0, 6), (2, 2, 1, 256)])
  | .nvsDigest _ => some (12, (zb [1, 2, 3]), [(0, 1, 0, 6)])
  | .nvsPatrol => some (0, [], [])
  | .cfgInfo => some (0, [], [])
  | .cfgStreamOpen => some (8, (zb [1, 2, 3]), [])
  | .cfgStreamAbort => some (0, [], [])
  | .cfgCommit => some (4, [(1, 0xFE), (2, 0xFF), (3, 0xFF)], [(0, 1, 0, 1)])
  | .regionLoad => some (1, [], [(0, 1, 0, 15)])
  | .regionFreeze => some (1, [], [(0, 1, 0, 11)])
  | .regionThaw => some (1, [], [(0, 1, 0, 11)])
  | .cfgLibErase => some (1, [], [(0, 1, 0, 15)])
  | .cfgReadback => some (6, (zb [3]), [(4, 2, 1, 64)])
  | .flowQuery => some (2, [], [(0, 2, 0, 4095)])
  | .bankInfo => some (0, [], [])
  | .bankOwnerSet => some (4, (zb [2, 3]), [(0, 1, 0, 15)])
  | .bankGuestSet => some (12, (zb [1, 2, 3] ++ [(7, 0xF0), (11, 0xF0)]), [(0, 1, 0, 15)])
  | .bankRetain => some (4, (zb [2, 3]), [(0, 1, 0, 15), (1, 1, 0, 1)])
  | .bankMarch => some (4, (zb [3]), [(0, 1, 0, 16), (1, 1, 0, 1), (2, 1, 0, 1)])
  | .bankMigrate => some (4, (zb [1, 2, 3]), [(0, 1, 0, 15)])
  | .bankRemapUndo => some (4, (zb [1, 2, 3]), [(0, 1, 0, 15)])
  | .regionSelftest => some (4, (zb [2, 3]), [(0, 1, 0, 11), (1, 1, 1, 2)])
  | .lcyInfo => some (0, [], [])
  | .serviceChallenge => some (4, (scopeBytes 0), [])
  | .serviceResponse => some (32, [], [])
  | .servicePassword => some (20, (scopeBytes 16), [])
  | .serviceClose => some (0, [], [])
  | .lcyTransition => some (8, (zb [1, 2, 3]), [(0, 1, 0, 4)])
  | .keyProvision => some (36, (zb [1, 2, 3]), [(0, 1, 1, 4)])
  | .logInfo => some (0, [], [])
  | .logRead => some (8, (zb [6, 7]), [(4, 2, 1, 512)])
  | .logClear => some (0, [], [])
  | .telemetry => some (0, [], [])
  | .portConfig => some (24, (zb [1, 2, 3, 21, 22, 23] ++ [(20, 0xFE)]), [(0, 1, 0, 15)])
  | .laneTest => some (8, ([(4, 0xF8)] ++ zb [5, 6, 7]), [(0, 1, 0, 15), (1, 1, 0, 1), (2, 1, 0, 4), (3, 1, 0, 4)])
  | .moduleScan => some (0, [], [])
  | .moduleInfo => some (1, [], [(0, 1, 0, 15)])
  | .shutdown => some (8, [(0, 0xFE), (1, 0xFF), (2, 0xFF), (3, 0xFF)], [])
  | _ => none

end Sys2Proof.Machine
end

