-- ==== Sys2Proof/Certificates/Slice0/Obligations.lean ====
section
/-! DEFINITION. The statements for the provers, about the commands and the state of the block. -/
open Sys2Proof Sys2Proof.Machine

/-- A step runs the command at the front of the queue, with the rest of the queue (00_scope.md). -/
def Obligations.StepRunsTheFrontCommand : Prop :=
  ∀ (c : Instr) (rest : List Instr) (s : State),
    step { s with pending := c :: rest } = exec c { s with pending := rest }

/-- A step with nothing waiting lets one cycle of TCLK pass over the time base and the clocked logic alone (log entry 3, the model's choice) (R69, R277, R10). -/
def Obligations.EmptyQueueLetsTimePass : Prop :=
  ∀ s : State, s.pending = [] →
    ∃ t, step s = .next t ∧ t.pending = [] ∧
      t.dev.time.uptime = s.dev.time.uptime + s.dev.time.inc.setWidth 96 ∧
      t.dev.time.now = (if s.dev.time.running then s.dev.time.now + s.dev.time.inc.setWidth 96 else s.dev.time.now) ∧
      t.dev.time.inc = s.dev.time.inc ∧
      t.dev = { s.dev with time := t.dev.time, logic := t.dev.logic, free := t.dev.free }

/-- Every command of the table answers a next state, whatever the state and its operands, and leaves the queue as it is (00_scope.md, 01_architecture.md). -/
def Obligations.EveryCommandAnswersAndLeavesTheQueue : Prop :=
  ∀ (c : Instr) (s : State), ∃ t, exec c s = .next t ∧ t.pending = s.pending

/-- After reset no escalation or log entry waits, ALERT_N shows what is pending and SHUTDOWN_DONE shows PWR_STATUS bit 31 (R39, R636, R618). -/
def Obligations.InvariantHoldsAtReset : Prop :=
  State.Inv State.reset

/-- Every step leaves no escalation and no log entry behind, and ALERT_N and SHUTDOWN_DONE as the device then stands (R27, R32, R39, R570, R594, R636). -/
def Obligations.InvariantKeptByEveryStep : Prop :=
  ∀ s t : State, s.Inv → step s = .next t → t.Inv

/-- The commands of the deep banks keep the memories in canonical form (R407, R420, R424, R412, R418, R82, R368). -/
def Obligations.BankCommandsKeepMemoryCanonical : Prop :=
  ∀ (s t : State) (c : Instr), Memory.wf s.dev = true → exec c s = .next t →
    ((∃ p u, c = .bankPortCycle p u) ∨ (∃ k q f u, c = .gatewayExecuteWrite k q f u) ∨
      (∃ k q f u, c = .gatewayExecuteRead k q f u) ∨ (∃ k q f, c = .gatewayExecuteFence k q f) ∨
      (∃ k, c = .bankHandoverDrained k) ∨ (∃ k, c = .bankWipeDone k) ∨ (∃ p x y, c = .bankMarchDone p x y) ∨
      c = .bankMigrateDone ∨ c = .bankRemapUndoDone) → Memory.wf t.dev = true

/-- An escalation writes its log entry, counts in its class's counter, sets its pending bit and, as the first, CHIP_ERR_FIRST (R26, R27, R30, R39, R40, R570). -/
def Obligations.EscalationIsRecorded : Prop :=
  ∀ (d : Dev) (c src : Nat) (p : Path) (x : List Byte), c < 21 → d.actionOf c = 0 →
    let e := d.escalateNow c src p x
    let a := d.log.append d.ns c src p.toWord x
    let q := d.log.queued d.time.uptime
    (q < 32 → e.log = { a with fill := min 32 (q + 1), fillAt := d.time.uptime }) ∧
    (32 ≤ q →
      (e.log.entries = a.entries ∧ e.log.lost = a.lost) ∨
      (e.log.entries = d.log.entries ∧ e.log.lost.toNat = min (d.log.lost.toNat + 1) 0xFFFFFFFF)) ∧
    e.log.nextSeq = d.log.nextSeq + 1 ∧
    (e.reg (chipErrCount c)).toNat = min ((d.reg (chipErrCount c)).toNat + 1) 0xFFFFFFFF ∧
    e.reg chipErrPending = setBit (d.reg chipErrPending) c true ∧
    e.reg chipErrFirst = (if d.reg chipErrPending = 0 then BitVec.ofNat 32 (2 ^ 31 + c) else d.reg chipErrFirst) ∧
    (∀ o, o ≠ chipErrCount c → o ≠ chipErrPending → o ≠ chipErrFirst → e.reg o = d.reg o)

/-- Register writes, samples and scan requests of the named commands leave every memory, the key store and the log unchanged (R82, R368, R407, R548, R567). -/
def Obligations.RegisterCommandsLeaveEveryMemory : Prop :=
  (∀ (q : Fin 15) (n : Fin 16) (e : Fin 2) (b : Fin 4) (a : Fin 64) (r : Fin 3) (ep : Fin 52) (v : Word) (x : BitVec 48)
     (ack pr : Bool) (bl : BitVec 16) (ir : BitVec 10) (c : Instr) (s t : State), s.dev.Quiet →
    c ∈ [Instr.gpioOutWrite 0 q v, .gpioOutMasked 0 q v, .pmuxAltSpi 0 v, .modScanAll 0 v, .modScan 0 v, .presenceChange n pr,
         .moduleScanRetry n, .modXferGo 0 b v, .modXferDone b ack v, .jtagInstructionUpdate ir, .jtagTestLogicReset,
         .sdsPrbsCtrlWrite 0 n v, .prbsInject 0 n, .prbsCheckerLock n v x, .prbsCheckerLoss n v x, .txPllLock n,
         .cdrLockAcquired n, .pcsLock n, .fecLock n, .linkUp n, .linkDown n bl ack pr ack pr, .blockLockLoss n, .macClear 0 n,
         .macTxtsPop 0 n, .beStop 0 v, .fabFlowSel 0 v, .fabEpClear 0 ep v, .fabClsClear 0 n v, .dmaFqPop 0 e v, .dmaClear 0 e v,
         .xltSlqPop 0 v, .xltClear 0 v, .xltInval 0 v, .xltInvalDone, .xltSpaceWrite 0 a r v] →
    exec c s = .next t →
    t.dev.bank = s.dev.bank ∧ t.dev.logic = s.dev.logic ∧ t.dev.store = s.dev.store ∧ t.dev.keys = s.dev.keys ∧
    t.dev.log = s.dev.log ∧ t.pending = s.pending) ∧
  (∀ (k : Fin 16) (v : Word) (c : Instr) (s t : State), s.dev.Quiet →
    c ∈ [Instr.bankOwnerWrite 0 k v, .bankWipeDone k, .bankMigrateDone, .bankRemapUndoDone, .bankClear 0 k] →
    exec c s = .next t →
    (∀ p w, t.dev.bword p w = s.dev.bword p w) ∧ t.dev.logic = s.dev.logic ∧ t.dev.store = s.dev.store)

/-- POWER_ON_RESET returns the device to its reset state but for the key store, and PWR_RESET_CAUSE names it (R566, R618, R645). -/
def Obligations.PowerOnResetClearsTheDevice : Prop :=
  ∀ (torn : Bool) (s : State), ∃ t, exec (.powerOnReset torn) s = .next t ∧ t.dev.power.por = true ∧
    t.dev.reg pwrResetCause = 1 ∧ (∀ o, o ≠ pwrResetCause → t.dev.reg o = regReset o) ∧
    t.dev.log = LogState.reset ∧ t.dev.keys = s.dev.keys ∧ t.dev.fab = FabState.reset ∧ t.dev.adm = AdmState.reset ∧
    t.dev.sched = SchedState.reset ∧ t.dev.logic = LogicState.reset ∧ t.dev.serial = SerialState.reset ∧
    t.dev.bank = BankState.reset ∧ t.dev.cfg = CfgState.reset ∧ t.dev.dma = DmaState.reset ∧
    t.dev.hive = HiveState.reset ∧ t.dev.stats = [] ∧ t.dev.time = TimeState.reset

/-- RESET_N_ASSERT puts the device in device reset with cause RESET_N, keeps the records and holds it until the pin rises (R618, R619, R645). -/
def Obligations.PinResetClearsTheDeviceButItsRecords : Prop :=
  (∀ s : State, s.dev.power.por = false → s.dev.log.intake = [] →
    ∃ t, exec .resetNAssert s = .next t ∧ t.pending = s.pending ∧ t.dev.power.resetN = true ∧ t.dev.power.startDue = true ∧
      t.dev.power.por = false ∧ t.dev.power.thermHold = s.dev.power.thermHold ∧ t.dev.power.vccioOff = s.dev.power.vccioOff ∧
      t.dev.reg pwrResetCause = 2 ∧ (∀ o, o ≠ pwrResetCause → t.dev.reg o = regReset o) ∧ t.dev.keys = s.dev.keys ∧
      t.dev.fab = FabState.reset ∧ t.dev.adm = AdmState.reset ∧ t.dev.sched = SchedState.reset ∧
      t.dev.logic = LogicState.reset ∧ t.dev.serial = SerialState.reset ∧ t.dev.bank = BankState.reset ∧
      t.dev.cfg = CfgState.reset ∧ t.dev.dma = DmaState.reset ∧ t.dev.hive = HiveState.reset ∧ t.dev.mods = ModState.reset ∧
      t.dev.stats = [] ∧ t.dev.time = TimeState.reset ∧
      (s.dev.lcy.scope = none → t.dev.log.entries = s.dev.log.entries ∧ t.dev.log.nextSeq = s.dev.log.nextSeq ∧
        ((∀ j, j < 16 → (s.dev.nvPlane j).op = none ∧ (s.dev.nvPlane j).inner = none) →
          t.dev.store.words = s.dev.store.words)) ∧
      (s.dev.lcy.scope ≠ none →
        t.dev.log.entries = (s.dev.log.append s.dev.ns 0x32 srcLifecycle Path.chip.toWord [3]).entries)) ∧
  (∀ s : State, s.dev.power.por = true →
    exec .resetNAssert s = .next (s.after { s.dev with power := { s.dev.power with resetN := true } }))

/-- POWER_GOOD, RESET_N_RELEASE, DEVICE_RESET and DEFERRED_RESET clear what they reset and run the start wherever nothing holds the device (R328, R334, R531, R550, R615, R618, R619, R645). -/
def Obligations.ResetsRunTheStartSequence : Prop :=
  (∀ (i : StartInputs) (s : State), s.dev.power.por = true →
    let d := ({ s.dev with power := { s.dev.power with por := false, startDue := true } } : Dev).completeWipe
    exec (.powerGood i) s = .next (s.after (if s.dev.power.resetN || s.dev.power.thermHold then d else d.startRun i))) ∧
  (∀ (i : StartInputs) (s : State), s.dev.power.por = false → exec (.powerGood i) s = .next (s.after s.dev)) ∧
  (∀ (i : StartInputs) (s : State),
    let d : Dev := { s.dev with power := { s.dev.power with resetN := false } }
    exec (.resetNRelease i) s = .next (s.after
      (if s.dev.power.startDue && !s.dev.power.por && !s.dev.power.thermHold then d.startRun i else d))) ∧
  (∀ (i : StartInputs) (s : State), s.dev.power.startDue = true → s.dev.power.por = false →
    let d := s.dev.deviceReset s.dev.latestCause
    exec (.deviceReset i) s = .next (s.after (if s.dev.power.resetN || s.dev.power.thermHold then d else d.startRun i))) ∧
  (∀ (i : StartInputs) (s : State), (s.dev.power.startDue = false ∨ s.dev.power.por = true) →
    exec (.deviceReset i) s = .next (s.after s.dev)) ∧
  (∀ (i : StartInputs) (x : DueReset) (rest : List DueReset) (c : Nat) (s : State), s.dev.hive.due = x :: rest →
    (x, c) ∈ [(DueReset.device, causeSysReset), (DueReset.commit, causeCommit), (DueReset.lifecycle, causeLifecycle)] →
    let d := s.dev.deviceReset c
    exec (.deferredReset i) s = .next (s.after
      (if s.dev.power.por || s.dev.power.resetN || s.dev.power.thermHold then d else d.startRun i))) ∧
  (∀ (i : StartInputs) (rest : List DueReset) (s : State), s.dev.hive.due = .hive :: rest →
    let d : Dev := { s.dev with hive := { s.dev.hive with due := rest } }
    exec (.deferredReset i) s = .next (s.after (d.hiveReset causeHiveSys)) ∧ (d.hiveReset causeHiveSys).hive.due = rest) ∧
  (∀ d : Dev, d.keys.cut = 0 → d.completeWipe = d) ∧
  (∀ (i : StartInputs) (s : State), s.dev.hive.due = [] → exec (.deferredReset i) s = .next (s.after s.dev)) ∧
  (∀ (d : Dev) (b : Nat), b < 7 →
    let e := d.deviceReset b
    e.reg pwrResetCause = BitVec.ofNat 32 (2 ^ b) ∧ (∀ o, o ≠ pwrResetCause → e.reg o = regReset o) ∧ e.keys = d.keys ∧
      e.power.startDue = true ∧ e.power.por = d.power.por ∧ e.hive = HiveState.reset ∧ e.fab = FabState.reset ∧
      e.adm = AdmState.reset ∧ e.dma = DmaState.reset ∧ e.sched = SchedState.reset) ∧
  (∀ (d : Dev) (i : StartInputs), (d.startRun i).rbit nvsStatus 30 = true)

/-- A hive reset discards requests, replies and tickets and ends sessions; HIVE_READY answers again; a kick restarts the watchdog (R335, R523, R555, R564, R565, R618, R645). -/
def Obligations.HiveResetsAndReady : Prop :=
  (∀ (cause : BitVec 2) (s : State), s.dev.running = true → s.dev.hive.held = false → s.dev.Quiet → cause ≠ 0 →
    ∃ t, exec (.hiveReset cause) s = .next t ∧ t.dev.hive.ready = false ∧ t.dev.hive.held = true ∧ t.dev.hive.waiting = [] ∧
      (∀ j, j ∈ t.dev.hive.jobs → j.gone = true ∧ j.ticket = none ∧ j.outlives = true) ∧ t.dev.hive.tickets = [] ∧
      (∀ v, t.dev.hport v = HivePort.idle) ∧ t.dev.cfg.session = none ∧
      t.dev.lcy.scope = none ∧ t.dev.keys = s.dev.keys ∧ t.dev.hive.due = s.dev.hive.due ∧ t.dev.reg imfaFwVersion = 0 ∧
      (∀ v : Via, t.dev.reg (imfaReq (viaNum v)) = 0 ∧ t.dev.reg (imfaBad (viaNum v)) = 0) ∧ t.dev.reg imfaDrop = 0 ∧
      t.dev.fld pwrResetCause 8 3 = (if cause = 1 then 2 else 4)) ∧
  (∀ s : State, s.dev.running = true → s.dev.hive.held = false →
    exec (.hiveReset 0) s = .next (s.after s.dev.watchdogReset)) ∧
  (∀ (cause : BitVec 2) (s : State), (s.dev.running = false ∨ s.dev.hive.held = true) →
    exec (.hiveReset cause) s = .next (s.after s.dev)) ∧
  (∀ s : State, exec .hiveReady s = .next (s.after (if s.dev.hiveRuns then
      ({ s.dev with hive := { s.dev.hive with ready := true, held := false, wdogRow := 0 } } : Dev).setReg imfaFwVersion
        (Config.fwVersion s.dev.hive.fwSlot) else s.dev))) ∧
  (∀ s : State, s.dev.hiveRuns = true → 1900000000 * 2 ^ 32 ≤ s.dev.time.uptime.toNat - s.dev.hive.wdogFrom.toNat →
    exec .watchdogExpiry s = .next (s.after s.dev.watchdogReset)) ∧
  (∀ s : State, (s.dev.hiveRuns = false ∨ s.dev.time.uptime.toNat - s.dev.hive.wdogFrom.toNat < 1900000000 * 2 ^ 32) →
    exec .watchdogExpiry s = .next (s.after s.dev)) ∧
  (∀ d : Dev, d.hive.ready = true →
    let h := d.hiveReset causeHiveWdog
    let row := min 255 (d.hive.wdogRow.toNat + 1)
    d.watchdogReset = (({ h with hive := { h.hive with
        wdogRow := BitVec.ofNat 8 row, wdogEarly := d.hive.wdogEarly, failed := decide (6 ≤ d.hive.wdogEarly) } } : Dev)).escalate
        clsWatchdog srcWatchdog Path.chip [BitVec.ofNat 8 row]) ∧
  (∀ d : Dev, d.hive.ready = false →
    let h := d.hiveReset causeHiveWdog
    let row := min 255 (d.hive.wdogRow.toNat + 1)
    let early := d.hive.wdogEarly + 1
    let slot := if early = 3 then !h.hive.fwSlot else h.hive.fwSlot
    let e := (({ h with hive := { h.hive with
        wdogRow := BitVec.ofNat 8 row, wdogEarly := early, failed := decide (6 ≤ early), fwSlot := slot } } : Dev)).escalate
        clsWatchdog srcWatchdog Path.chip [BitVec.ofNat 8 row]
    d.watchdogReset = (if early = 3 then e.logEntry 0x35 srcHive Path.chip [BitVec.ofNat 8 (b2n slot)] else e)) ∧
  (∀ (v : Word) (s : State), exec (.watchdogKick 0 v) s = .next (s.after (if v = 0xA5 then
      { s.dev with hive := { s.dev.hive with
        wdogFrom := s.dev.time.uptime, held := s.dev.hive.held && !s.dev.hiveRuns } } else s.dev)))

/-- The rungs shed and restore in order for either cause of rung 1, and rung 3 freezes and thaws one shed class at a time (R624, R625, R626, R627, R628). -/
def Obligations.SheddingLadderFollowsTheRail : Prop :=
  (∀ (rung : Fin 4) (mv : BitVec 16) (s : State), s.dev.running = true →
    exec (.shedRungHold rung false mv) s = .next (s.after
      (({ s.dev with power := { s.dev.power with rung1Core := true } } : Dev).forEach (List.range' 1 (rung.val + 1)) (fun d k =>
        if d.rbit pwrStatus (k - 1) = false ∧ d.running = true then d.shedRung k mv.toNat else d)))) ∧
  (∀ (rung : Fin 4) (mv : BitVec 16) (s : State), s.dev.running = true →
    let d := ({ s.dev with power := { s.dev.power with rung1Aux := true } } : Dev).setRbit pwrStatus 10 true
    exec (.shedRungHold rung true mv) s = .next (s.after (if d.rbit pwrStatus 0 then d else d.shedRung 1 mv.toNat))) ∧
  (∀ (rung : Fin 4) (aux : Bool) (mv : BitVec 16) (s : State), s.dev.running = false →
    exec (.shedRungHold rung aux mv) s = .next (s.after s.dev) ∧ exec (.shedRungRestore rung aux mv) s = .next (s.after s.dev)) ∧
  (∀ (mv : BitVec 16) (s : State), exec (.shedClassStep mv) s = .next (s.after
    (if s.dev.rbit pwrStatus 2 = false then s.dev
     else if s.dev.classShed 2 = false then s.dev.shedClass 2 mv.toNat
     else if s.dev.classShed 1 = false then s.dev.shedClass 1 mv.toNat else s.dev))) ∧
  (∀ (rung : Fin 4) (mv : BitVec 16) (s : State), s.dev.running = true → rung.val ≠ 0 →
    (∀ b, rung.val < b → b < 4 → s.dev.rbit pwrStatus b = false) →
    exec (.shedRungRestore rung false mv) s = .next (s.after
      (if s.dev.rbit pwrStatus rung.val then s.dev.restoreRung (rung.val + 1) mv.toNat else s.dev))) ∧
  (∀ (mv : BitVec 16) (s : State), s.dev.running = true → (∀ b, 0 < b → b < 4 → s.dev.rbit pwrStatus b = false) →
    let d : Dev := { s.dev with power := { s.dev.power with rung1Core := false } }
    exec (.shedRungRestore 0 false mv) s = .next (s.after
      (if s.dev.rbit pwrStatus 0 = true ∧ s.dev.power.rung1Aux = false then d.restoreRung 1 mv.toNat else d))) ∧
  (∀ (rung : Fin 4) (b : Nat) (mv : BitVec 16) (s : State), s.dev.running = true → rung.val < b → b < 4 →
    s.dev.rbit pwrStatus b = true → exec (.shedRungRestore rung false mv) s = .next (s.after s.dev)) ∧
  (∀ (rung : Fin 4) (mv : BitVec 16) (s : State), s.dev.running = true →
    let d := ({ s.dev with power := { s.dev.power with rung1Aux := false } } : Dev).setRbit pwrStatus 10 false
    exec (.shedRungRestore rung true mv) s = .next (s.after
      (if d.rbit pwrStatus 0 = true ∧ d.power.rung1Core = false then d.restoreRung 1 mv.toNat else d))) ∧
  (∀ (mv : BitVec 16) (c : Nat) (rest : List Nat) (s : State), s.dev.power.thawNext = c :: rest →
    exec (.shedClassThaw mv) s =
      .next (s.after (({ s.dev with power := { s.dev.power with thawNext := rest } } : Dev).thawClass c mv.toNat 0))) ∧
  (∀ (mv : BitVec 16) (s : State), s.dev.power.thawNext = [] → exec (.shedClassThaw mv) s = .next (s.after s.dev)) ∧
  (∀ (d : Dev) (k mv : Nat), 1 ≤ k → k ≤ 4 → d.actionOf clsShed = 0 → d.power.startDue = false →
    (d.shedRung k mv).rbit pwrStatus (k - 1) = true ∧
    ((d.shedRung k mv).reg pwrShedCount).toNat = min ((d.reg pwrShedCount).toNat + 1) 0xFFFFFFFF) ∧
  (∀ (d : Dev) (c mv : Nat), 1 ≤ c → c ≤ 3 → d.actionOf clsShed = 0 → d.power.startDue = false →
    (d.shedClass c mv).classShed c = true ∧ (d.shedClass c mv).rbit pwrStatus 2 = true) ∧
  (∀ (d : Dev) (k mv : Nat), (k = 1 ∨ k = 2) → d.actionOf clsShed = 0 → d.power.startDue = false →
    (d.restoreRung k mv).rbit pwrStatus (k - 1) = false)

/-- VCC_NV suspends, halts and releases the store, and VCCIO takes a bank of pins away and returns it (R617, R628). -/
def Obligations.StoreAndPinSupplies : Prop :=
  (∀ s : State, s.dev.running = true →
    exec .vccNvLow s = .next (s.after ((s.dev.setRbit pwrStatus 11 true).nvShedChanged))) ∧
  (∀ s : State, s.dev.running = true →
    exec .vccNvHalt s = .next (s.after (if s.dev.nvHalt then s.dev else
      ((((s.dev.forEach (List.range 16) Dev.haltProgram).setRbit pwrStatus 11 true).setRbit pwrStatus 12 true).nvShedChanged)))) ∧
  (∀ s : State, s.dev.running = true → exec (.vccNvRestore true) s =
    .next (s.after (((s.dev.setRbit pwrStatus 12 false).setRbit pwrStatus 11 false).nvShedChanged))) ∧
  (∀ s : State, s.dev.running = true → exec (.vccNvRestore false) s =
    .next (s.after ((s.dev.setRbit pwrStatus 12 false).nvShedChanged))) ∧
  (∀ (full : Bool) (s : State), s.dev.running = false → exec .vccNvLow s = .next (s.after s.dev) ∧
    exec .vccNvHalt s = .next (s.after s.dev) ∧ exec (.vccNvRestore full) s = .next (s.after s.dev)) ∧
  (∀ (b : Fin 6) (s : State), exec (.vccioLoss b) s =
    .next (s.after { s.dev with power := { s.dev.power with vccioOff := setBit s.dev.power.vccioOff b.val true } })) ∧
  (∀ (b : Fin 6) (s : State), exec (.vccioReturn b) s =
    .next (s.after { s.dev with power := { s.dev.power with vccioOff := setBit s.dev.power.vccioOff b.val false } }))

/-- TEMP_SAMPLE writes the converted readings, the powers and the rails, then warns at the limit and trips at +125 degrees C (R621, R622, R623, R643). -/
def Obligations.TemperatureSampleIsRecorded : Prop :=
  (∀ (x : PowerSample) (s : State), s.dev.power.por = false → s.dev.power.thermHold = false → s.dev.power.resetN = false →
    let y := s.dev.readings x
    let d := y.1.noteSample y.2 x
    exec (.tempSample x) s = .next (s.after (match (List.range 8).find? (fun k => decide (2000 ≤ d.tempOf k)) with
      | none => d.thermWarn
      | some k => d.thermWarn.thermTrip k (d.fld (pwrTemp k) 0 16)))) ∧
  (∀ (s code : Nat),
    let lo := signed 16 (calField s 2)
    let den := (calField s 4 : Int) - (calField s 0 : Int)
    let t := (lo * den + ((code : Int) - (calField s 0 : Int)) * (signed 16 (calField s 6) - lo)).tdiv den
    den ≠ 0 → -32768 ≤ t → t ≤ 32767 → convert s code = some t) ∧
  (∀ (d : Dev) (x : PowerSample), (d.readings x).1.power = d.power ∧ (d.readings x).1.regs = d.regs ∧
    (d.readings x).2.map (fun t => t.1) = List.range (min 8 x.codes.length) ∧
    (∀ (k : Nat) (c : BitVec 16) (t : Int), k < 8 → x.codes[k]? = some c → convert k c.toNat = some t →
      (d.readings x).2[k]? = some (k, unsigned 16 t))) ∧
  (∀ (d : Dev) (x : PowerSample) (n : Nat) (ts : List (Nat × Nat)), n ≤ 8 → ts.map (fun t => t.1) = List.range n →
    let e := d.noteSample ts x
    e.reg pwrTotal = x.total.setWidth 32 ∧
    (∀ k v, ts[k]? = some (k, v) → e.reg (pwrTemp k) = BitVec.ofNat 32 v) ∧
    (∀ k p, k < 12 → x.regions[k]? = some p → e.reg (pwrRgnPower k) = p.setWidth 32) ∧
    (∀ k p, k < 11 → x.rails[k]? = some p → e.reg (pwrRail k) = p.setWidth 32) ∧
    (∀ o, o ≠ pwrTotal → o ≠ pwrTempMax → (∀ k, k < n → o ≠ pwrTemp k) → (∀ k, k < 12 → o ≠ pwrRgnPower k) →
      (∀ k, k < 11 → o ≠ pwrRail k) → e.reg o = d.reg o)) ∧
  (∀ d : Dev,
    let limit := signed 16 (d.fld pwrTempWarn 0 16)
    (∀ k, d.rbit pwrStatus 13 = false → (List.range 8).find? (fun k => decide (limit ≤ d.tempOf k)) = some k →
      d.thermWarn = (d.setRbit pwrStatus 13 true).escalateNow clsThermal srcClocks Path.chip
        (putLE 1 k ++ [0] ++ putLE 2 (d.fld (pwrTemp k) 0 16))) ∧
    (d.rbit pwrStatus 13 = false → (∀ k, k < 8 → d.tempOf k < limit) → d.thermWarn = d) ∧
    (d.rbit pwrStatus 13 = true → (∀ k, k < 8 → d.tempOf k ≤ limit - 80) → d.thermWarn = d.setRbit pwrStatus 13 false) ∧
    (∀ k, d.rbit pwrStatus 13 = true → k < 8 → limit - 80 < d.tempOf k → d.thermWarn = d)) ∧
  (∀ (d : Dev) (k r : Nat),
    let e := if d.power.startDue then d else d.escalateNow clsThermal srcClocks Path.chip (putLE 1 (128 + k) ++ [0] ++ putLE 2 r)
    let t := d.thermTrip k r
    t = { e.deviceReset 6 with power := { (e.deviceReset 6).power with thermHold := true } } ∧ t.power.startDue = true ∧
    t.reg pwrResetCause = 64) ∧
  (∀ (x : PowerSample) (s : State), s.dev.power.por = true → exec (.tempSample x) s = .next (s.after s.dev)) ∧
  (∀ (x : PowerSample) (s : State), s.dev.power.por = false → s.dev.power.thermHold = true →
    let y := s.dev.readings x
    exec (.tempSample x) s = .next (s.after (if y.2.all (fun t => decide (signed 16 t.2 < 1840))
      then { y.1 with power := { s.dev.power with thermHold := false } } else y.1))) ∧
  (∀ (x : PowerSample) (s : State), s.dev.power.por = false → s.dev.power.thermHold = false → s.dev.power.resetN = true →
    exec (.tempSample x) s = .next (s.after (s.dev.readings x).1))

/-- CLOCK_LOSS escalates once with all losses of its cycle, TIME_REF_LOST starts holdover, and TIME_REF_RETURN locks the PLL again (R276, R681, R29). -/
def Obligations.ClockLossesEscalate : Prop :=
  (∀ (a b r c : Bool) (s : State),
    let ref := r && s.dev.onTimeRef
    let d := if ref then (((s.dev.setRbit timeStatus 31 false).setRbit timeStatus 30 true).setRbit timeEvent 3 true) else s.dev
    let d := if c then d.setRbit timeStatus 31 false else d
    let m := b2n a + 2 * b2n b + 8 * b2n ref + 16 * b2n c
    exec (.clockLoss a b r c) s = .next (s.after
      (if m = 0 then d else d.escalate clsClock srcClocks Path.chip [BitVec.ofNat 8 m]))) ∧
  (∀ s : State, exec .timeRefLost s = .next (s.after (if s.dev.onTimeRef then
      ((((s.dev.setRbit timeStatus 31 false).setRbit timeStatus 30 true).setRbit timeEvent 3 true).escalate clsClock srcClocks
        Path.chip [8]) else s.dev))) ∧
  (∀ d : Dev, d.onTimeRef = (decide (d.fld timeStatus 27 2 ≠ 0) && !d.rbit timeStatus 30 && !d.rbit timeStatus 29)) ∧
  (∀ (freq : BitVec 2) (s : State), exec (.timeRefReturn freq) s = .next (s.after
      (if freq ≠ 0 ∧ (s.dev.rbit timeStatus 30 = true ∨ s.dev.rbit timeStatus 29 = true ∨
          (s.dev.time.running = true ∧ s.dev.rbit timeStatus 31 = false)) then
        ((((s.dev.setRbit timeStatus 30 false).setRbit timeStatus 29 false).setFld timeStatus 27 2 freq.toNat).setRbit
          timeStatus 31 true) else s.dev)))

/-- LCY_INFO reports, SERVICE_CHALLENGE draws a nonce, SERVICE_RESPONSE and SERVICE_PASSWORD attempt, SERVICE_CLOSE ends the session (R539, R552, R553, R554, R555, R556). -/
def Obligations.LifecycleQueriesAndSessions : Prop :=
  (∀ (r : Req) (rest : List Req) (s : State), s.dev.Takes 0x0600 r rest → r.params = [] →
    let d := s.dev.taken r rest
    exec .lcyInfo s = .next (s.answered d r stOk ([BitVec.ofNat 8 d.lcCode, d.keys.attempts, BitVec.ofNat 8 d.keys.provisioned, 0] ++
      putLE 4 d.delayMs ++ putLE 4 (d.lcy.scope.getD 0).toNat))) ∧
  (∀ (r : Req) (rest : List Req) (s : State), s.dev.Takes 0x0601 r rest → checkParams r 4 (scopeBytes 0) [] = none →
    s.dev.inDeployed = true → s.dev.keys.serviceKey ≠ zeros 32 →
    let d := s.dev.taken r rest
    let bs := putLE 32 (d.freeVal 256 : BitVec 256).toNat
    exec .serviceChallenge s = .next (s.answered
      { d.freeNext with lcy := { d.lcy with nonce := some { bytes := bs, scope := BitVec.ofNat 32 (getLE 4 r.params 0) } } }
      r stOk bs)) ∧
  (∀ (r : Req) (rest : List Req) (n : Nonce) (s : State), s.dev.Takes 0x0602 r rest → r.params.length = 32 →
    s.dev.lcy.nonce = some n → s.dev.delayMs = 0 →
    let d := s.dev.taken r rest
    let y := ({ d with lcy := { d.lcy with nonce := none } } : Dev).attempt 1 n.scope
      (decide (hmacSha256 d.keys.serviceKey (n.bytes ++ serialBytes ++ putLE 4 n.scope.toNat) = r.params))
    exec .serviceResponse s = .next (s.answered y.1 r y.2.1 y.2.2)) ∧
  (∀ (r : Req) (rest : List Req) (s : State), s.dev.Takes 0x0601 r rest → checkParams r 4 (scopeBytes 0) [] = none →
    let d := s.dev.taken r rest
    (s.dev.inDeployed = false → exec .serviceChallenge s = .next (s.answered d r stDeniedLifecycle (errPayload 0 0))) ∧
    (s.dev.inDeployed = true → s.dev.keys.serviceKey = zeros 32 →
      exec .serviceChallenge s = .next (s.answered d r stBadParam (errPayload detState 0)))) ∧
  (∀ (r : Req) (rest : List Req) (s : State), s.dev.Takes 0x0602 r rest → r.params.length = 32 →
    let d := s.dev.taken r rest
    (s.dev.lcy.nonce = none → s.dev.delayMs = 0 →
      exec .serviceResponse s = .next (s.answered d r stBadParam (errPayload detState 0))) ∧
    (s.dev.delayMs ≠ 0 →
      exec .serviceResponse s = .next (s.answered d r stBusy (errPayload 0 s.dev.delayMs)))) ∧
  (∀ (r : Req) (rest : List Req) (s : State), s.dev.Takes 0x0603 r rest → checkParams r 20 (scopeBytes 16) [] = none →
    let d := s.dev.taken r rest
    exec .servicePassword s = .next (if (getLE 1 r.params 16).testBit 2 then s.answered d r stBadParam (errPayload detRange 16)
      else if s.dev.inDeployed = false then s.answered d r stDeniedLifecycle (errPayload 0 0)
      else if s.dev.keys.passwordHash = zeros 32 then s.answered d r stBadParam (errPayload detState 0)
      else if s.dev.delayMs ≠ 0 then s.answered d r stBusy (errPayload 0 s.dev.delayMs)
      else
        let y := d.attempt 2 (BitVec.ofNat 32 (getLE 4 r.params 16))
          (decide (sha256 (slice r.params 0 16 ++ serialBytes) = d.keys.passwordHash))
        s.answered y.1 r y.2.1 y.2.2)) ∧
  (∀ (r : Req) (rest : List Req) (s : State), s.dev.Takes 0x0604 r rest → r.params = [] →
    exec .serviceClose s = .next (s.answered ((s.dev.taken r rest).endSession 1) r stOk [])) ∧
  (∀ (d : Dev) (c : Nat), (d.endSession c).lcy.scope = none ∧ (d.endSession c).keys = d.keys) ∧
  (∀ (d : Dev) (m : Nat) (scope : Word),
    (d.attempt m scope true).1.lcy.scope = some scope ∧ (d.attempt m scope true).1.keys.attempts = 0 ∧
    (d.attempt m scope true).1.lcy.nonce = none ∧ (d.attempt m scope true).2 = (stOk, putLE 4 scope.toNat)) ∧
  (∀ (d : Dev) (m : Nat) (scope : Word),
    let e := (d.attempt m scope false).1
    e.lcy.scope = d.lcy.scope ∧ e.keys.attempts.toNat = min 255 (d.keys.attempts.toNat + 1) ∧
    e.keys.attempts2 = e.keys.attempts ∧
    e.lcy.delayFrom = d.time.uptime ∧ (d.attempt m scope false).2 = (stDeniedAuth, errPayload 0 e.delayMs))

/-- LCY_TRANSITION, KEY_PROVISION, tamper events, LIFECYCLE_WIPE_DONE and NONCE_EXPIRY change the lifecycle as the rules say (R547, R548, R549, R550, R552, R557, R558, R560). -/
def Obligations.KeysTransitionsAndTamper : Prop :=
  (∀ (r : Req) (rest : List Req) (s : State), s.dev.Takes 0x0605 r rest → checkParams r 8 (zb [1, 2, 3]) [(0, 1, 0, 4)] = none →
    (s.dev.taken r rest).transitionRefused (getLE 1 r.params 0) (getLE 4 r.params 4) = none →
    exec .lcyTransition s = .next (s.answered ((s.dev.taken r rest).transition (getLE 1 r.params 0)) r stOk
      [BitVec.ofNat 8 (getLE 1 r.params 0)])) ∧
  (∀ (r : Req) (rest : List Req) (a : Answer) (s : State), s.dev.Takes 0x0605 r rest →
    checkParams r 8 (zb [1, 2, 3]) [(0, 1, 0, 4)] = none →
    (s.dev.taken r rest).transitionRefused (getLE 1 r.params 0) (getLE 4 r.params 4) = some a →
    exec .lcyTransition s = .next (s.answered (s.dev.taken r rest) r a.1 a.2)) ∧
  (∀ (d : Dev) (t c : Nat), d.transitionRefused t c = none ↔
    (d.lcCode = 0 ∧ t = 1 ∧ c = 0 ∨ d.lcCode = 1 ∧ t = 2 ∧ c = 0 ∧ d.keys.userKeyHash ≠ zeros 32 ∨
      d.lcCode = 1 ∧ t = 4 ∧ c = 0x54455254 ∨ d.lcCode = 3 ∧ t = 4 ∧ c = 0x54455254 ∧ d.served 2 = true)) ∧
  (∀ (d : Dev) (t : Nat), t = 1 ∨ t = 2 ∨ t = 4 →
    (d.transition t).keys.state = (if t = 1 then .opened else if t = 2 then .deployed else .retired) ∧
    (d.transition t).lcy.scope = none ∧ (d.transition t).lcy.nonce = none ∧
    (d.transition t).keys.state2 = (d.transition t).keys.state ∧
    (t ≠ 2 → (d.transition t).hive.due = d.hive.due ++ [.lifecycle] ∧ (d.transition t).keys.wipePending = true ∧
      (d.transition t).keys.userKey = zeros 32 ∧ (d.transition t).keys.userKeyHash = zeros 32)) ∧
  (∀ (r : Req) (rest : List Req) (s : State), s.dev.Takes 0x0606 r rest → checkParams r 36 (zb [1, 2, 3]) [(0, 1, 1, 4)] = none →
    let d := s.dev.taken r rest
    ((s.dev.inManufacture || s.dev.inOpen) = false →
      exec .keyProvision s = .next (s.answered d r stDeniedLifecycle (errPayload 0 0))) ∧
    ((s.dev.inManufacture || s.dev.inOpen) = true → bit s.dev.lcy.tamperNow 0 = true →
      exec .keyProvision s = .next (s.answered d r stBusy (errPayload 0 0)))) ∧
  (∀ (x : Fin 4) (lost : Bool) (s : State), s.dev.power.por = true → exec (.tamperTrip x lost) s = .next (s.after s.dev)) ∧
  (∀ (x : Fin 4) (lost : Bool) (s : State), s.dev.power.por = false → bit s.dev.keys.tamperCfg x.val = false →
    exec (.tamperTrip x lost) s =
      .next (s.after { s.dev with lcy := { s.dev.lcy with tamperNow := setBit s.dev.lcy.tamperNow x.val true } })) ∧
  (∀ (failing : List Nat) (s : State), (s.dev.keys.wipePending = false ∨ s.dev.lcy.wiping = false ∨
    s.dev.rbit nvsStatus 30 = true ∨ s.dev.nvAwake = false ∨ s.dev.nvHold = true) →
    exec (.lifecycleWipeDone failing) s = .next (s.after s.dev)) ∧
  (∀ (r : Req) (rest : List Req) (s : State), s.dev.Takes 0x0606 r rest → checkParams r 36 (zb [1, 2, 3]) [(0, 1, 1, 4)] = none →
    (s.dev.inManufacture || s.dev.inOpen) = true → bit s.dev.lcy.tamperNow 0 = false →
    let d := s.dev.taken r rest
    let kind := getLE 1 r.params 0
    let v := slice r.params 4 32
    let e := ({ d with keys := d.keys.put kind v } : Dev).logEntry 0x33 srcLifecycle Path.chip
      [BitVec.ofNat 8 kind, BitVec.ofNat 8 (b2n (v ≠ zeros 32))]
    exec .keyProvision s = .next (s.answered (if d.lcy.tamperNow &&& d.keys.tamperCfg ≠ 0 then e.tamperWipe else e) r stOk [])) ∧
  (∀ (x : Fin 4) (s : State), s.dev.power.por = false → bit s.dev.keys.tamperCfg x.val = true →
    let d := ({ s.dev with lcy := { s.dev.lcy with tamperNow := setBit s.dev.lcy.tamperNow x.val true } } : Dev).tamperWipe
    let e := (d.setRbit lcyTamperStatus x.val true).count lcyTamperCount
    exec (.tamperTrip x false) s = .next (s.after (e.escalate clsTamper srcLifecycle Path.chip (putLE 2 (e.reg lcyTamperStatus).toNat)))) ∧
  (∀ (x : Fin 4) (s : State), s.dev.power.por = false → bit s.dev.keys.tamperCfg x.val = true →
    let d : Dev := { s.dev with lcy := { s.dev.lcy with tamperNow := setBit s.dev.lcy.tamperNow x.val true },
                                keys := { s.dev.keys with cut := setBit s.dev.keys.cut x.val true } }
    exec (.tamperTrip x true) s = .next (s.after d.powerOnReset) ∧ d.powerOnReset.keys = d.keys) ∧
  (∀ d : Dev, d.keys.cut ≠ 0 →
    let e := d.completeWipe
    e.keys = { d.keys with userKey := zeros 32, serviceKey := zeros 32, passwordHash := zeros 32, cut := 0 } ∧
    (∀ x, x < 4 → e.rbit lcyTamperStatus x = (d.rbit lcyTamperStatus x || bit d.keys.cut x)) ∧
    (e.reg lcyTamperCount).toNat = min ((d.reg lcyTamperCount).toNat + 1) 0xFFFFFFFF ∧
    e.raised = d.raised ++ [{ cls := clsTamper, source := srcLifecycle, path := Path.chip, data := putLE 2 (e.reg lcyTamperStatus).toNat }]) ∧
  (∀ (x : Fin 4) (s : State), exec (.tamperSourceClear x) s =
    .next (s.after { s.dev with lcy := { s.dev.lcy with tamperNow := setBit s.dev.lcy.tamperNow x.val false } })) ∧
  (∀ s : State, exec .nonceExpiry s = .next (s.after { s.dev with lcy := { s.dev.lcy with nonce := none } })) ∧
  (∀ (failing : List Nat) (s : State), s.dev.keys.wipePending = true → s.dev.lcy.wiping = true →
    s.dev.rbit nvsStatus 30 = false → s.dev.nvAwake = true → s.dev.nvHold = false →
    ∃ t e, exec (.lifecycleWipeDone failing) s = .next t ∧ t = s.after e ∧ e.keys.wipePending = false ∧ e.lcy.wiping = false ∧
      e.rbit nvsStatus 31 = true) ∧
  (∀ d : Dev, d.tamperWipe.keys = { d.keys with userKey := zeros 32, serviceKey := zeros 32, passwordHash := zeros 32 } ∧
    d.tamperWipe.lcy.scope = none ∧ d.tamperWipe.lcy.nonce = none)

/-- LOG_INFO, LOG_READ and TELEMETRY report; LOG_CLEAR and LOG_CTRL.CLEAR empty the log; LOG_SEL takes a snapshot (R540, R567, R570, R571, R572). -/
def Obligations.TroubleLogCommands : Prop :=
  (∀ (r : Req) (rest : List Req) (s : State), s.dev.Takes 0x0700 r rest → r.params = [] →
    let d := s.dev.taken r rest
    exec .logInfo s = .next (s.answered d r stOk (putLE 4 d.log.entries.length ++ putLE 4 d.log.lost.toNat ++
      putLE 4 d.logOldest.toNat ++ putLE 4 d.logNewest.toNat))) ∧
  (∀ (r : Req) (rest : List Req) (s : State), s.dev.Takes 0x0701 r rest →
    checkParams r 8 (zb [6, 7]) [(4, 2, 1, 512)] = none →
    let d := s.dev.taken r rest
    let es := (d.log.fromSeq (BitVec.ofNat 32 (getLE 4 r.params 0))).take (getLE 2 r.params 4)
    exec .logRead s = .next (if viaLimit r.via < 8 + 32 * es.length then s.answered d r stBadParam (errPayload detTransport 0)
      else s.answered d r stOk (putLE 4 ((es.head?.map (fun e => e.seq.toNat)).getD (getLE 4 r.params 0)) ++ putLE 2 es.length ++ zeros 2 ++
        es.flatMap LogEntry.bytes))) ∧
  (∀ (r : Req) (rest : List Req) (s : State), s.dev.Takes 0x0702 r rest → r.params = [] →
    let d := (s.dev.taken r rest).logClear (viaNum r.via)
    exec .logClear s = .next (s.answered d r stOk (putLE 4 d.logNewest.toNat))) ∧
  (∀ (r : Req) (rest : List Req) (s : State), s.dev.Takes 0x0703 r rest → r.params = [] →
    let d := s.dev.taken r rest
    exec .telemetry s = .next (s.answered d r stOk ((List.range 8).flatMap (fun i => putLE 2 (d.reg (pwrTemp i)).toNat) ++
      (List.range 11).flatMap (fun i => putLE 2 (d.reg (pwrRail i)).toNat) ++ zeros 2 ++
      putLE 4 (d.reg chipErrPending).toNat ++ putLE 1 (d.fld pwrStatus 0 4) ++ zeros 3))) ∧
  (∀ (v : Word) (s : State), exec (.logCtrlClear 0 v) s = .next (s.after (if bit v 0 then s.dev.logClear 0xFF else s.dev))) ∧
  (∀ (id : Fin 13) (v : Word) (s : State), s.dev.portIdle id = false → s.dev.granted id 8 = false →
    exec (.logSelWrite id v) s = .next (s.after (s.dev.escalate clsCtrlDecode srcBus Path.chip
      (putLE 1 id.val ++ putLE 1 1 ++ zeros 2 ++ putLE 4 logSel)))) ∧
  (∀ (id : Fin 13) (v : Word) (s : State), s.dev.portIdle id = false → s.dev.granted id 8 = true →
    exec (.logSelWrite id v) s = .next (s.after { s.dev.setIdReg id.val logSel v with
      log := { s.dev.log with
        snaps := mset (fun _ => none) s.dev.log.snaps id.val (s.dev.log.entries.find? (fun e => decide (e.seq = v))) } })) ∧
  (∀ (d : Dev) (b : Nat), (d.logClear b).log.entries.length = 1 ∧ (d.logClear b).log.lost = 0 ∧
    (d.logClear b).log.wrapped = false ∧ (d.logClear b).log.nextSeq = d.log.nextSeq + 1 ∧
    (d.logClear b).logOldest = d.log.nextSeq ∧ (d.logClear b).logNewest = d.log.nextSeq ∧
    (d.logClear b).log.entries.map (fun e => (e.code, e.source, getLE 4 e.data 0, getLE 4 e.data 4)) =
      [(0x36, 0x16, d.log.entries.length % 2 ^ 32, d.log.lost.toNat)])

/-- A written increment, step or value is captured and takes effect at its instant; a step and a set are counted and logged (R277, R278, R279, R283). -/
def Obligations.TimeControlIsCapturedAndTakesEffect : Prop :=
  ((∀ (id : Fin 13) (v w : Word) (c : Instr) (s : State), s.dev.portIdle id = false → s.dev.granted id 3 = true → s.dev.Quiet →
    (c = .timeRateGo id v ∧ w = setBit v 0 true ∨ c = .timeStepGo id v ∧ w = setBit v 1 true ∨
      c = .timeSetGo id v ∧ w = setBit v 2 true) →
    let x := s.dev.time
    let due := x.uptime + BitVec.ofNat 96 (64 * 2 ^ 32)
    ∃ t, exec c s = .next t ∧
      t.dev.time.pendRate = (if bit w 0 && incInRange s.dev.incWritten then some (x.pendRate.getD (s.dev.incWritten, due)) else x.pendRate) ∧
      t.dev.time.pendSet = (if bit w 2 then some (x.pendSet.getD (s.dev.stepWritten, due)) else x.pendSet) ∧
      t.dev.time.pendStep = (if bit w 1 && !bit w 2 then some (x.pendStep.getD (s.dev.stepWritten, due)) else x.pendStep) ∧
      t.dev.rbit timeEvent 0 = (s.dev.rbit timeEvent 0 || (bit w 0 && !incInRange s.dev.incWritten)) ∧
      (∀ o, o ≠ timeEvent → t.dev.reg o = s.dev.reg o) ∧ t.dev.time.now = x.now ∧ t.dev.time.inc = x.inc) ∧
  (∀ (id : Fin 13) (v : Word) (c : Instr) (s : State), s.dev.portIdle id = false → s.dev.granted id 3 = false →
    (c = .timeRateGo id v ∨ c = .timeStepGo id v ∨ c = .timeSetGo id v) →
    exec c s = .next (s.after (s.dev.escalate clsCtrlDecode srcBus Path.chip (putLE 1 id.val ++ putLE 1 1 ++ zeros 2 ++ putLE 4 timeCtrl)))) ∧
  (∀ v : BitVec 36, incInRange v = true ↔ 4999 * 2 ^ 33 ≤ v.toNat * 5000 ∧ v.toNat * 5000 ≤ 5001 * 2 ^ 33) ∧
  (∀ (t : TimeState) (r : Time96), t.uptime.toNat ≤ r.toNat →
    (t.now.toNat + t.waitFor r) % (1024 * 2 ^ 32) = 0 ∧ r.toNat ≤ t.uptime.toNat + t.waitFor r ∧
    t.uptime.toNat + t.waitFor r < r.toNat + 1024 * 2 ^ 32)) ∧
  ((∀ s : State, (s.dev.time.pendRate = none → exec .timeRateApply s = .next (s.after s.dev)) ∧
    (s.dev.time.pendStep = none → exec .timeStepApply s = .next (s.after s.dev)) ∧
    (s.dev.time.pendSet = none → exec .timeSetApply s = .next (s.after s.dev))) ∧
  (∀ s : State, ∃ t u v, exec .timeRateApply s = .next t ∧ exec .timeStepApply s = .next u ∧ exec .timeSetApply s = .next v ∧
    t.dev.time.pendRate = none ∧ u.dev.time.pendStep = none ∧ v.dev.time.pendSet = none) ∧
  (∀ (v : BitVec 36) (x : Time96) (s : State), s.dev.time.pendRate = some (v, x) → s.dev.time.pendStep = none →
    s.dev.time.pendSet = none →
    exec .timeRateApply s = .next (s.after
      { s.dev with time := { s.dev.time.pass (s.dev.time.waitFor x) with inc := v, pendRate := none } })) ∧
  (∀ (v : Time96) (x : Time96) (s : State), s.dev.time.pendStep = some (v, x) → s.dev.time.pendRate = none →
    s.dev.time.pendSet = none →
    let t := s.dev.time.pass (s.dev.time.waitFor x)
    exec .timeStepApply s = .next (s.after
      (({ s.dev with time := { t with pendStep := none } } : Dev).changeTime (t.now + v)))) ∧
  (∀ (v : Time96) (x : Time96) (s : State), s.dev.time.pendSet = some (v, x) → s.dev.time.pendRate = none →
    s.dev.time.pendStep = none →
    exec .timeSetApply s = .next (s.after
      (({ s.dev with time := { s.dev.time.pass (s.dev.time.waitFor x) with pendSet := none } } : Dev).changeTime v))) ∧
  (∀ (i : BitVec 36) (v x : Time96) (c : Instr) (s : State), s.dev.time.pendRate = some (i, x) → s.dev.time.pendSet = some (v, x) →
    s.dev.time.pendStep = none → (c = .timeRateApply ∨ c = .timeSetApply) →
    exec c s = .next (s.after (({ s.dev with time :=
      { s.dev.time.pass (s.dev.time.waitFor x) with inc := i, pendRate := none, pendSet := none } } : Dev).changeTime v))) ∧
  (∀ (i : BitVec 36) (v x : Time96) (c : Instr) (s : State), s.dev.time.pendRate = some (i, x) → s.dev.time.pendStep = some (v, x) →
    s.dev.time.pendSet = none → (c = .timeRateApply ∨ c = .timeStepApply) →
    let t := s.dev.time.pass (s.dev.time.waitFor x)
    exec c s = .next (s.after (({ s.dev with time :=
      { t with inc := i, pendRate := none, pendStep := none } } : Dev).changeTime (t.now + v)))) ∧
  (∀ (d : Dev) (t : Time96), d.sched = SchedState.reset → (∀ k : Fin 256, d.rbit (schTmrCtrl k) 31 = false) →
    (d.changeTime t).time = { d.time with now := t } ∧
    (d.changeTime t).reg timeStepCount = d.reg timeStepCount + 1 ∧
    (d.changeTime t).log.intake = d.log.intake ++ 
      [({ time := BitVec.ofNat 64 (t.toNat / 2 ^ 32), code := 0x24, source := 0x11, path := 0xFFFF,
          data := putLE 8 (nsOf (t - d.time.now)) ++ putLE 4 (fracOf (t - d.time.now)), flows := [] } : LogOffer)]))

/-- A read of TIME_NOW0 or TIME_PPS_IN_TS0 returns the low word and latches the rest for the reader alone (R280, R282, R283). -/
def Obligations.LatchedTimeReads : Prop :=
  (∀ (id : Fin 13) (s : State), s.dev.portIdle id = false → s.dev.serialReadOk id = true →
    let n := s.dev.time.now.toNat / 2 ^ 32
    exec (.timeNowRead id) s = .next (s.after
      (((s.dev.setIdReg id (timeNow 1) (BitVec.ofNat 32 (n / 2 ^ 32))).setIdReg id (timeNow 2)
        (BitVec.ofNat 32 (s.dev.time.now.toNat % 2 ^ 32))).setRead id (BitVec.ofNat 32 n)))) ∧
  (∀ (id : Fin 13) (s : State), s.dev.portIdle id = false → s.dev.serialReadOk id = true →
    exec (.ppsInTsRead id) s = .next (s.after
      (((s.dev.setIdReg id (timePpsInTs 1) (s.dev.reg (timePpsInTs 1))).setIdReg id (timePpsInTs 2)
        (s.dev.reg (timePpsInTs 2))).setRead id (s.dev.reg (timePpsInTs 0))))) ∧
  (∀ (id : Fin 13) (off : Nat) (c : Instr) (s : State), s.dev.portIdle id = false → s.dev.serialReadOk id = false →
    (c = .timeNowRead id ∧ off = timeNow 0 ∨ c = .ppsInTsRead id ∧ off = timePpsInTs 0) →
    exec c s = .next (s.after ((s.dev.escalate clsCtrlDecode srcBus Path.chip
      (putLE 1 id.val ++ putLE 1 0 ++ zeros 2 ++ putLE 4 off)).setRead id 0)))

/-- PPS_OUT rises at the whole second and falls after WIDTH; an enabled edge of PPS_IN is stamped, counted and reported (R10, R281, R282). -/
def Obligations.PulsePerSecondPins : Prop :=
  (∀ s : State, s.dev.ppsOn = true → s.dev.time.ppsOut = none → s.dev.time.running = true →
    let d := s.dev.reachAhead s.dev.ppsNext
    exec .ppsOutPulse s = .next (s.after { d with time := { d.time with
      ppsOut := some (d.time.uptime + BitVec.ofNat 96 (1000 * s.dev.fld timePpsOutCtrl 0 20 * 2 ^ 32)) } })) ∧
  (∀ s : State, s.dev.ppsOn = false ∨ s.dev.time.ppsOut ≠ none ∨ s.dev.time.running = false →
    exec .ppsOutPulse s = .next (s.after s.dev)) ∧
  (∀ (x : Time96) (s : State), s.dev.time.ppsOut = some x →
    exec .ppsOutPulseEnd s = .next (s.after { s.dev with time :=
      { s.dev.time.pass (x.toNat - s.dev.time.uptime.toNat) with ppsOut := none } })) ∧
  (∀ s : State, s.dev.time.ppsOut = none → exec .ppsOutPulseEnd s = .next (s.after s.dev)) ∧
  (∀ (rising : Bool) (skew : BitVec 35) (s : State), s.dev.time.ppsIn = rising →
    exec (.ppsInEdge rising skew) s = .next (s.after s.dev)) ∧
  (∀ (rising : Bool) (skew : BitVec 35) (s : State), s.dev.Quiet → s.dev.time.ppsIn ≠ rising → s.dev.rbit timePpsInCtrl 31 = true →
    s.dev.rbit timePpsInCtrl 30 = !rising →
    let n := (s.dev.time.now + skew.signExtend 96).toNat
    ∃ t, exec (.ppsInEdge rising skew) s = .next t ∧
      t.dev.time = { s.dev.time with ppsIn := rising, ppsIrq := s.dev.time.ppsIrq || s.dev.rbit timePpsInCtrl 29 } ∧
      t.dev.reg (timePpsInTs 0) = BitVec.ofNat 32 (n / 2 ^ 32) ∧ t.dev.reg (timePpsInTs 1) = BitVec.ofNat 32 (n / 2 ^ 64) ∧
      t.dev.reg (timePpsInTs 2) = BitVec.ofNat 32 n ∧
      t.dev.rbit timeEvent 1 = true ∧ t.dev.rbit timeEvent 2 = (s.dev.rbit timeEvent 2 || s.dev.rbit timeEvent 1) ∧
      (t.dev.reg timePpsInCount).toNat = min ((s.dev.reg timePpsInCount).toNat + 1) 0xFFFFFFFF ∧
      (∀ o, o ≠ timeEvent → o ≠ timePpsInCount → (∀ i, i < 3 → o ≠ timePpsInTs i) → t.dev.reg o = s.dev.reg o)) ∧
  (∀ (rising : Bool) (skew : BitVec 35) (s : State), s.dev.time.ppsIn ≠ rising →
    s.dev.rbit timePpsInCtrl 31 = false ∨ s.dev.rbit timePpsInCtrl 30 = rising →
    exec (.ppsInEdge rising skew) s = .next (s.after { s.dev with time := { s.dev.time with ppsIn := rising } })) ∧
  (∀ d : Dev, d.time.now.toNat / 2 ^ 32 + 1000000001 < 2 ^ 64 →
    let at_ := d.time.now.toNat / 2 ^ 32 + d.ppsNext
    d.time.now.toNat ≤ at_ * 2 ^ 32 ∧ at_ * 2 ^ 32 < d.time.now.toNat + (1000000000 + 1) * 2 ^ 32 ∧
    ((at_ : Int) - (d.reg timePpsOutOffset).toInt) % 1000000000 = 0)

/-- YIELD, SLEEP_UNTIL, SET_PRIORITY and EXIT at an online, occupied port act on its RUNNING thread; other calls are refused (R447, R448, R449, R452, R453, R455, R460). -/
def Obligations.PortCallsOfTheRunningThread : Prop :=
  (∀ (p : Fin 32) (k : BitVec 4) (a b : DWord) (h : BitVec 24) (c : BitVec 16) (w : Word) (x : Instr) (s : State),
    (s.dev.online p = false ∨ s.dev.callBusy (.port p) = true) →
    (x = .yieldCall p k ∨ x = .blockOn p c w ∨ x = .signalCall p c ∨ x = .sleepUntil p w ∨ x = .setPriority p h c w ∨
      x = .createCall p a b c ∨ x = .exitCall p ∨ x = .takeNext p) →
    exec x s = .next (s.after s.dev)) ∧
  (∀ (p : Fin 32) (c : BitVec 16) (b : Word) (x : Instr) (s : State), s.dev.FreePort p → (s.dev.dport p).running = 0 →
    (x = .yieldCall p 1 ∨ x = .blockOn p c b ∨ x = .sleepUntil p b ∨ x = .setPriority p 0 c b ∨ x = .exitCall p) →
    exec x s = .next (s.after ((s.dev.called p).portResult p resBadParam))) ∧
  (∀ (p : Fin 32) (k : BitVec 4) (s : State), s.dev.FreePort p → k ≠ 1 →
    exec (.yieldCall p k) s = .next (s.after ((s.dev.called p).portResult p resBadParam))) ∧
  (∀ (p : Fin 32) (s : State), s.dev.FreePort p → (s.dev.dport p).running ≠ 0 →
    let i := (s.dev.dport p).running
    let d := (s.dev.called p).vacate p
    exec (.yieldCall p 1) s = .next (s.after
      (((if (s.dev.called p).preempt p then d.makeReadyFirst i rsltPreempted else d.makeReady i rsltNone).portResult p resOk).reschedule))) ∧
  (∀ (p : Fin 32) (b : Word) (s : State), s.dev.FreePort p → (s.dev.dport p).running ≠ 0 →
    let i := (s.dev.dport p).running
    let d := s.dev.called p
    exec (.sleepUntil p b) s = .next (s.after (if laterSeq 32 b.toNat s.dev.now32.toNat then
      (((d.setThread i { d.thread i with state := .sleeping, waitObj := none, wake := some b }).vacate p).portResult p
        resBlocked).reschedule
      else d.portResult p resOk))) ∧
  (∀ (p : Fin 32) (h : BitVec 24) (c : BitVec 16) (b : Word) (i : Nat) (s : State), s.dev.FreePort p →
    (h = 0 ∧ (s.dev.dport p).running = i ∧ i ≠ 0 ∨ h ≠ 0 ∧ (s.dev.called p).handle? h.toNat = some i) →
    let d := s.dev.called p
    exec (.setPriority p h c b) s = .next (s.after
      (((d.setThread i { d.thread i with priority := BitVec.ofNat 6 c.toNat, dl := c.toNat.testBit 6, deadline := b, newDeadline := true }).portResult
        p resOk).reschedule))) ∧
  (∀ (p : Fin 32) (h : BitVec 24) (c : BitVec 16) (b : Word) (s : State), s.dev.FreePort p → h ≠ 0 →
    (s.dev.called p).handle? h.toNat = none →
    exec (.setPriority p h c b) s = .next (s.after ((s.dev.called p).portResult p resBadHandle))) ∧
  (∀ (p : Fin 32) (s : State), s.dev.FreePort p → (s.dev.dport p).running ≠ 0 →
    let i := (s.dev.dport p).running
    let d := s.dev.called p
    exec (.exitCall p) s = .next (s.after
      ((((d.setThread i { Thread.blank with gen := (d.thread i).gen + 1 }).vacate p).portResult p resOk).reschedule))) ∧
  (∀ (d : Dev) (p k : Nat) (h : BitVec 24), ((d.portResult p k h).dport p).resValid = true ∧
    ((d.portResult p k h).dport p).resCode = BitVec.ofNat 4 k ∧ ((d.portResult p k h).dport p).resHandle = h ∧
    ((d.portResult p k h).dport p).running = (d.dport p).running ∧ ((d.vacate p).dport p).running = 0 ∧
    (∀ q, q ≠ p → (d.portResult p k h).dport q = d.dport q ∧ (d.vacate p).dport q = d.dport q)) ∧
  (∀ (d : Dev) (i k : Nat), ((d.makeReady i k).thread i).state = .ready ∧ ((d.makeReady i k).thread i).result = BitVec.ofNat 4 k ∧
    ((d.makeReady i k).thread i).wake = none ∧ ((d.makeReady i k).thread i).order = d.sched.nextOrder ∧
    (d.makeReady i k).sched.nextOrder = d.sched.nextOrder + 1 ∧ (∀ j, j ≠ i → (d.makeReady i k).thread j = d.thread j))

/-- BLOCK_ON takes a count, times out or blocks; SIGNAL is merged or overflows; event service wakes waiters and counts the rest (R457, R458, R449). -/
def Obligations.BlockOnSignalAndEventService : Prop :=
  (∀ (p : Fin 32) (c : BitVec 16) (b : Word) (s : State), s.dev.FreePort p → (s.dev.dport p).running ≠ 0 →
    let e := Fin.ofNat 512 c.toNat
    let i := (s.dev.dport p).running
    let d := s.dev.called p
    let w := (d.setThread i { d.thread i with
        state := .blocked, waitObj := some e,
        wake := if b = 0xFFFFFFFF then none else some (s.dev.now32 + b), order := d.sched.nextOrder }).vacate p
    exec (.blockOn p c b) s = .next (s.after (
      if 0x80000000 ≤ b.toNat ∧ b ≠ 0xFFFFFFFF then d.portResult p resBadParam
      else if (s.dev.ev e).broadcast = false ∧ (s.dev.ev e).count ≠ 0 then
        (d.setEv e { s.dev.ev e with count := (s.dev.ev e).count - 1 }).portResult p resOk
      else if b = 0 then d.portResult p resTimeout
      else (({ w with sched := { w.sched with nextOrder := d.sched.nextOrder + 1 } } : Dev).portResult p resBlocked).reschedule))) ∧
  (∀ (p : Fin 32) (c : BitVec 16) (s : State), s.dev.FreePort p →
    let e := Fin.ofNat 512 c.toNat
    let d := (s.dev.called p).setEv e { s.dev.ev e with pending := (s.dev.ev e).pending + 1 }
    exec (.signalCall p c) s = .next (s.after (
      if (s.dev.ev e).pending ≠ 0xFFFF ∧ ((s.dev.ev e).broadcast = true ∨
        (s.dev.ev e).count.toNat + ((s.dev.ev e).pending.toNat + 1 - (s.dev.waiters e).length) ≤ 0xFFFF) then
        (if e ∈ s.dev.sched.evQueue then d
          else { d with sched := { d.sched with evQueue := s.dev.sched.evQueue ++ [e] } }).portResult p resOk
      else ((s.dev.called p).setEv e { s.dev.ev e with ovf := true }).portResult p resOverflow))) ∧
  (∀ (e : Fin 512) (rest : List (Fin 512)) (s : State), s.dev.sched.evQueue = e :: rest →
    let d := ({ s.dev with sched := { s.dev.sched with evQueue := rest } } : Dev)
    let o := d.ev e
    let ws := d.waiters e
    let woken := if o.broadcast then ws.length else min o.pending.toNat ws.length
    let total := o.count.toNat + (o.pending.toNat - woken)
    let d := d.setEv e (if o.broadcast then { o with pending := 0 } else
      { o with pending := 0, count := BitVec.ofNat 16 (min total 0xFFFF), ovf := o.ovf || decide (0xFFFF < total) })
    exec .eventServe s = .next (s.after
      (((ws.take woken).foldl (fun d i => d.makeReady i rsltSignalled) d).reschedule))) ∧
  (∀ s : State, s.dev.sched.evQueue = [] → exec .eventServe s = .next (s.after s.dev))

/-- CREATE and TAKE_NEXT at a port, and SIGNAL, SET_PRIORITY, CREATE and KILL through SCH_CMD (R446, R449, R451, R455, R464, R469, R472). -/
def Obligations.ThreadsAreCreatedDispatchedAndFreed : Prop :=
  (∀ (p : Fin 32) (a b : DWord) (c : BitVec 16) (s : State), s.dev.FreePort p →
    let x : CreateArgs := { caller := .port p, cookie := a, affinity := BitVec.ofNat 32 b.toNat, deadline := BitVec.ofNat 32 (b.toNat / 2 ^ 32),
                            dl := c.toNat.testBit 6, priority := BitVec.ofNat 6 c.toNat }
    exec (.createCall p a b c) s = .next (s.after ((s.dev.called p).create x))) ∧
  (∀ (d : Dev) (x : CreateArgs),
    (x.affinity = 0 → d.create x = d.result x.caller resBadParam) ∧
    (x.affinity ≠ 0 → d.recordFree = true → d.create x = (d.newThread x).reschedule) ∧
    (x.affinity ≠ 0 → d.recordFree = false → d.canSpill = false → (d.sched.job = none ∨ d.rbit schStatus 29 = true) →
      d.create x = ((d.count schCreateRefused).escalate clsSpill srcSched Path.chip []).result x.caller resSpillFull) ∧
    (x.affinity ≠ 0 → d.recordFree = false → d.sched.job = none → d.canSpill = true →
      d.create x = ({ d with sched := { d.sched with waitingCreates := d.sched.waitingCreates ++ [x] } } : Dev).reschedule) ∧
    (x.affinity ≠ 0 → d.recordFree = false → d.sched.job ≠ none → d.rbit schStatus 29 = false →
      d.create x = { d with sched := { d.sched with waitingCreates := d.sched.waitingCreates ++ [x] } })) ∧
  (∀ d : Dev, (d.onChip < 1023 → d.recordFree = true) ∧ (1024 ≤ d.onChip → d.recordFree = false) ∧
    (d.sched.job = none → d.onChip < 1024 → d.recordFree = true) ∧
    (∀ i k, d.sched.job = some (.refill i k) → 1023 ≤ d.onChip → d.recordFree = false)) ∧
  (∀ (d : Dev) (x : CreateArgs), (∃ k, k < 1024 + d.spillCap ∧ (d.thread (k + 1)).state = .free) →
    ∃ i, (d.thread i).state = .free ∧ ((d.newThread x).thread i).state = .ready ∧
    ((d.newThread x).thread i).priority = x.priority ∧ ((d.newThread x).thread i).affinity = x.affinity ∧
    ((d.newThread x).thread i).cookie = x.cookie ∧ ((d.newThread x).thread i).deadline = x.deadline ∧
    ((d.newThread x).thread i).gen = (d.thread i).gen ∧ (∀ j, j ≠ i → (d.newThread x).thread j = d.thread j)) ∧
  (∀ (p : Fin 32) (s : State), s.dev.FreePort p →
    let d := s.dev.called p
    exec (.takeNext p) s = .next (s.after (if (s.dev.dport p).running = 0 then (d.setDport p { d.dport p with takeNext := true }).reschedule
      else d.portResult p resBadParam))) ∧
  (∀ (id : Fin 13) (x : Instr) (s : State), s.dev.portIdle id = false →
    (x = .schCmdSignal id ∨ x = .schCmdSetPriority id ∨ x = .schCmdCreate id ∨ x = .schCmdKill id) →
    (s.dev.schWriteOk id schCmd = false → exec x s = .next (s.after (s.dev.escalate clsCtrlDecode srcBus Path.chip
      (putLE 1 id.val ++ putLE 1 1 ++ zeros 2 ++ putLE 4 schCmd)))) ∧
    (s.dev.schWriteOk id schCmd = true → s.dev.callBusy (.bus id) = true → exec x s = .next (s.after s.dev))) ∧
  (∀ (id : Fin 13) (s : State), s.dev.portIdle id = false → s.dev.schWriteOk id schCmd = true → s.dev.callBusy (.bus id) = false →
    exec (.schCmdSignal id) s = .next (s.after (s.dev.signalCall (.bus id) (Fin.ofNat 512 (s.dev.cmdC id).toNat))) ∧
    exec (.schCmdCreate id) s = .next (s.after
      (s.dev.create (createArgs (.bus id) (s.dev.cmdA id) (s.dev.cmdB id) (s.dev.cmdC id))))) ∧
  (∀ (id : Fin 13) (i : Nat) (s : State), s.dev.portIdle id = false → s.dev.schWriteOk id schCmd = true → s.dev.callBusy (.bus id) = false →
    s.dev.handle? (bits (s.dev.cmdA id) 0 24) = some i →
    (bits (s.dev.cmdA id) 0 24 ≠ 0 → exec (.schCmdSetPriority id) s = .next (s.after
      (((s.dev.setPriority i (s.dev.cmdC id) (BitVec.ofNat 32 (s.dev.cmdB id).toNat)).result (.bus id) resOk).reschedule))) ∧
    exec (.schCmdKill id) s = .next (s.after (if (s.dev.thread i).state = .running then s.dev.result (.bus id) resBadParam
      else ((s.dev.freeThread i).result (.bus id) resOk).reschedule))) ∧
  (∀ (id : Fin 13) (s : State), s.dev.portIdle id = false → s.dev.schWriteOk id schCmd = true → s.dev.callBusy (.bus id) = false →
    s.dev.handle? (bits (s.dev.cmdA id) 0 24) = none →
    exec (.schCmdKill id) s = .next (s.after (s.dev.result (.bus id) resBadHandle)) ∧
    exec (.schCmdSetPriority id) s = .next (s.after
      (s.dev.result (.bus id) (if bits (s.dev.cmdA id) 0 24 = 0 then resBadParam else resBadHandle)))) ∧
  (∀ (d : Dev) (h i : Nat), d.handle? h = some i →
    (d.freeThread i).handle? h = none ∧ ((d.freeThread i).thread i).state = .free ∧
    ((d.freeThread i).thread i).gen = (d.thread i).gen + 1 ∧ ∀ j, j ≠ i → (d.freeThread i).thread j = d.thread j)

/-- SCH_REC_SEL, SCH_SPILL_CFG, SCH_EV_CFG and SCH_TMR_EXP written by an identity that may, and the decode error of one that may not (R463, R469, R473, R476, R477). -/
def Obligations.SchedulerRegisters : Prop :=
  (∀ (id : Fin 13) (v : Word) (s : State), s.dev.portIdle id = false → s.dev.schWriteOk id schRecSel = true →
    let h := v.toNat % 2 ^ 24
    let bs := match s.dev.handle? h with
      | none => zeros 32
      | some i => (s.dev.thread i).bytes i (s.dev.freeVal 64) (s.dev.thread i).spill.isSome
    let d := (s.dev.setIdReg id schRecSel (BitVec.ofNat 32 h)).freeNext
    exec (.schRecSel id v) s = .next (s.after
      { d with sched := { d.sched with snaps := mset (fun _ => zeros 32) d.sched.snaps id.val bs } })) ∧
  (∀ (v : Word) (s : State),
    let d := s.dev.setRbit schStatus 28 false
    let w := setBit v 31 true &&& 0x000F1F3F
    exec (.schSpillEnable 0 v) s = .next (s.after
      (if bits v 8 5 = 0 ∨ 16 < bits v 8 5 ∨ d.spillEn = true ∨ d.spilled ≠ 0 then d
       else if d.spillCfgOk (setBit v 31 true) then d.setReg schSpillCfg (setBit w 31 true)
       else (d.setReg schSpillCfg w).setRbit schStatus 28 true))) ∧
  (∀ (id : Fin 13) (e : Fin 512) (v : Word) (s : State), s.dev.portIdle id = false → s.dev.schWriteOk id (schEvCfg e) = true →
    s.dev.waiters e = [] →
    exec (.schEvCfgWrite id e v) s = .next (s.after (s.dev.setEv e { s.dev.ev e with
      broadcast := v.toNat.testBit 31, count := if v.toNat.testBit 31 then 0 else BitVec.ofNat 16 v.toNat }))) ∧
  (∀ (id : Fin 13) (t : Fin 256) (v : Word) (s : State), s.dev.portIdle id = false → s.dev.schWriteOk id (schTmrExp t 0) = true →
    exec (.schTmrExpWrite id t false v) s = .next (s.after { s.dev with sched := { s.dev.sched with
      heldExp := mset (fun _ => 0) s.dev.sched.heldExp (id.val * 256 + t.val) (v.toNat + 1) } })) ∧
  (∀ (id : Fin 13) (t : Fin 256) (v : Word) (s : State), s.dev.portIdle id = false → s.dev.schWriteOk id (schTmrExp t 1) = true →
    let held := mget (fun _ => 0) s.dev.sched.heldExp (id.val * 256 + t.val)
    let lo : Word := if held = 0 then s.dev.reg (schTmrExp t 0) else BitVec.ofNat 32 (held - 1)
    let d := (s.dev.setReg (schTmrExp t 0) lo).setReg (schTmrExp t 1) v
    exec (.schTmrExpWrite id t true v) s = .next (s.after { d with sched := { d.sched with
      heldExp := mset (fun _ => 0) d.sched.heldExp (id.val * 256 + t.val) 0 } })) ∧
  (∀ (id : Fin 13) (c : Instr) (e : Fin 512) (t : Fin 256) (hi : Bool) (v : Word) (off : Nat) (s : State), s.dev.portIdle id = false →
    (c = .schRecSel id v ∧ off = schRecSel ∧ s.dev.schWriteOk id off = false ∨
      c = .schSpillEnable id v ∧ off = schSpillCfg ∧ s.dev.schWriteOk id off = false ∨
      c = .schEvCfgWrite id e v ∧ off = schEvCfg e ∧ (s.dev.schWriteOk id off = false ∨ s.dev.waiters e ≠ []) ∨
      c = .schTmrExpWrite id t hi v ∧ off = schTmrExp t (b2n hi) ∧ s.dev.schWriteOk id off = false) →
    exec c s = .next (s.after (s.dev.escalate clsCtrlDecode srcBus Path.chip
      (putLE 1 id.val ++ putLE 1 1 ++ zeros 2 ++ putLE 4 off))))

/-- SCH_TIMER_FIRE, WAKE_REACHED, SPILL_WRITE_DONE, REFILL_DONE and SPILL_RETRY, and when each of them changes nothing (R457, R459, R465, R466, R467). -/
def Obligations.TimersWaitsAndTheSpillArea : Prop :=
  (∀ (t : Fin 256) (s : State), s.dev.rbit (schTmrCtrl t) 31 = false → exec (.schTimerFire t) s = .next (s.after s.dev)) ∧
  (∀ (t : Fin 256) (s : State), s.dev.rbit (schTmrCtrl t) 31 = true →
    let d := s.dev.reach (BitVec.ofNat 64 (s.dev.tmrExp t))
    let period := (s.dev.reg (schTmrPeriod t)).toNat
    let k := (d.ns.toNat - s.dev.tmrExp t) / period + 1
    let x := d.hwSignal (d.fld (schTmrCtrl t) 0 9)
    (d.ns.toNat < s.dev.tmrExp t → exec (.schTimerFire t) s = .next (s.after d)) ∧
    (s.dev.tmrExp t ≤ d.ns.toNat → period = 0 → exec (.schTimerFire t) s = .next (s.after (x.setRbit (schTmrCtrl t) 31 false))) ∧
    (s.dev.tmrExp t ≤ d.ns.toNat → period ≠ 0 → exec (.schTimerFire t) s = .next (s.after
      (((x.setReg (schTmrExp t 0) (BitVec.ofNat 32 (s.dev.tmrExp t + k * period))).setReg (schTmrExp t 1)
        (BitVec.ofNat 32 ((s.dev.tmrExp t + k * period) / 2 ^ 32))).count (schTmrMissed t) (k - 1))))) ∧
  (∀ (i : BitVec 16) (s : State), (s.dev.thread i.toNat).wake = none → exec (.wakeReached i) s = .next (s.after s.dev)) ∧
  (∀ (i : BitVec 16) (w : Word) (s : State), (s.dev.thread i.toNat).wake = some w →
    let d := s.dev.reachLow w
    let o := (s.dev.thread i.toNat).waitObj
    let e := if o ≠ none ∧ s.dev.sched.evQueue.head? = o then d.eventServe else d
    exec (.wakeReached i) s = .next (s.after ((e.wakeThread i.toNat).reschedule))) ∧
  (∀ (d : Dev) (i : Nat), d.wakeThread i = match (d.thread i).wake with
    | none => d
    | some w => if laterSeq 32 w.toNat d.now32.toNat then d
      else if (d.thread i).state = .blocked then d.makeReady i rsltTimeout
      else if (d.thread i).state = .sleeping then d.makeReady i rsltNone else d) ∧
  (∀ (i k : Nat) (bs : List Byte) (e : Dev) (s : State), s.dev.sched.job = some (.spill i k) →
    s.dev.spillAnswer true = some (0, bs, e) → (e.thread i).state ≠ .free → (e.thread i).gen = e.sched.jobGen →
    let d := e.jobEnd.setThread i { e.jobEnd.thread i with spill := some k, spillSeq := e.jobEnd.sched.nextSpillSeq }
    exec .spillWriteDone s = .next (s.after
      (({ d with sched := { d.sched with nextSpillSeq := e.jobEnd.sched.nextSpillSeq + 1 } } : Dev).reschedule))) ∧
  (∀ (i k : Nat) (bs : List Byte) (e : Dev) (s : State), s.dev.sched.job = some (.refill i k) →
    s.dev.spillAnswer false = some (0, bs, e) → (e.thread i).state ≠ .free → (e.thread i).gen = e.sched.jobGen →
    let r := slice bs 16 32
    let t := e.jobEnd.thread i
    exec .refillDone s = .next (s.after (((e.jobEnd.setThread i { t with
      spill := none, affinity := BitVec.ofNat 32 (getLE 4 r 8), cookie := BitVec.ofNat 64 (getLE 8 r 16),
      deadline := if t.newDeadline then t.deadline else BitVec.ofNat 32 (getLE 4 r 12),
      order := if t.newOrder then t.order else BitVec.ofNat 32 (getLE 4 r 28),
      port := if 128 ≤ getLE 1 r 5 then some (Fin.ofNat 32 (getLE 1 r 5)) else none }).statUp schRefills).reschedule))) ∧
  (∀ (i k : Nat) (bs : List Byte) (e : Dev) (s : State), ((e.thread i).state = .free ∨ (e.thread i).gen ≠ e.sched.jobGen) →
    (s.dev.sched.job = some (.spill i k) → s.dev.spillAnswer true = some (0, bs, e) →
      exec .spillWriteDone s = .next (s.after e.jobEnd.reschedule)) ∧
    (s.dev.sched.job = some (.refill i k) → s.dev.spillAnswer false = some (0, bs, e) →
      exec .refillDone s = .next (s.after (e.jobEnd.statUp schRefills).reschedule))) ∧
  (∀ (i k v : Nat) (bs : List Byte) (e : Dev) (s : State), v ≠ 0 →
    (s.dev.sched.job = some (.spill i k) → s.dev.spillAnswer true = some (v, bs, e) →
      exec .spillWriteDone s = .next (s.after e.jobHalt)) ∧
    (s.dev.sched.job = some (.refill i k) → s.dev.spillAnswer false = some (v, bs, e) →
      exec .refillDone s = .next (s.after e.jobHalt))) ∧
  (∀ d : Dev, d.jobHalt.sched.waitingCreates = [] ∧ (d.sched.waitingCreates = [] → d.jobHalt = d.setRbit schStatus 29 true)) ∧
  (∀ s : State, (s.dev.spillAnswer true = none ∨ s.dev.sched.job = none) → exec .spillWriteDone s = .next (s.after s.dev)) ∧
  (∀ s : State, (s.dev.spillAnswer false = none ∨ s.dev.sched.job = none) → exec .refillDone s = .next (s.after s.dev)) ∧
  (∀ (d e : Dev) (w : Bool) (bs : List Byte), d.spillAnswer w = some (0, bs, e) →
    getLE 1 bs 0 = 3 ∧ getLE 2 bs 6 = d.sched.jobTag.toNat ∧ (getLE 1 bs 1).testBit 2 = w ∧ getLE 2 bs 14 = 0) ∧
  (∀ s : State, exec .spillRetry s = .next (s.after (if s.dev.rbit schStatus 29 then s.dev.sendJob else s.dev)))

/-- FREEZE and THAW commands, the end of a thaw and the clocks of a region's endpoints (R67, R75, R76, R77, R78, R79, R80, R110, R111, R121, R461, R637). -/
def Obligations.RegionsFreezeAndThaw : Prop :=
  (∀ (n : Fin 12) (v : Word) (s : State),
    exec (.rgnCtrlFreeze 0 n v) s = .next (s.after (s.dev.setReason n rsnCommand))) ∧
  (∀ (n : Fin 12) (v : Word) (s : State),
    exec (.rgnCtrlThaw 0 n v) s = .next (s.after (
      if bit (setBit v 1 true) 0 then s.dev.setReason n rsnCommand
      else if s.dev.rbit pwrStatus 31 then s.dev
      else s.dev.clearReasons n [rsnCommand, rsnPolicy]))) ∧
  (∀ (d : Dev) (n : Fin 12) (rs : List Nat),
    let e := rs.foldl (fun e b => e.setRbit (rgnStatus n) b false) d
    (d.reasons n ≠ 0 → e.reasons n = 0 → d.frozen n = true → d.clearReasons n rs = e.thawStart n) ∧
    ((d.reasons n = 0 ∨ e.reasons n ≠ 0 ∨ d.frozen n = false) → d.clearReasons n rs = e)) ∧
  (∀ (d : Dev) (n : Fin 12) (t : Fin 16), (d.thawStart n).treeHeld n t = 2 ∧ (d.thawStart n).regs = d.regs ∧
    (d.thawStart n).logic.shiftRegs = (d.clearUser n).logic.shiftRegs ∧ (d.thawStart n).logic.ffs = (d.clearUser n).logic.ffs ∧
    (d.thawStart n).logic.arith = (d.clearUser n).logic.arith ∧ (d.thawStart n).logic.queues = (d.clearUser n).logic.queues) ∧
  (∀ (n : Fin 12) (s : State), s.dev.frozen n = true → s.dev.reasons n = 0 →
    let d := ((s.dev.releaseTaps n).holdStopped n).setRbit (rgnStatus n) 31 false
    exec (.regionThawDone n) s = .next (s.after
      (({ d with cfg := { d.cfg with pinsOut := setBit d.cfg.pinsOut n true },
                 logic := { d.logic with thawAt := mdel d.logic.thawAt n } } : Dev).schedSettle))) ∧
  (∀ (n : Fin 12) (s : State), s.dev.frozen n = false ∨ s.dev.reasons n ≠ 0 → exec (.regionThawDone n) s = .next (s.after s.dev)) ∧
  (∀ (e : Fin 52) (s : State), isRegionEp e = true →
    exec (.endpointClockLost e) s = .next (s.after ((s.dev.setRbit (fabEpStatus e) clkLostBit true).schedSettle.dmaSuspendAll)) ∧
    exec (.endpointClockRestored e) s = .next (s.after ((s.dev.setRbit (fabEpStatus e) clkLostBit false).schedSettle))) ∧
  (∀ (e : Fin 52) (s : State), isRegionEp e = false →
    exec (.endpointClockLost e) s = .next (s.after s.dev) ∧ exec (.endpointClockRestored e) s = .next (s.after s.dev)) ∧
  (∀ (d : Dev) (n : Fin 12) (x : Fin 7), d.reasons n = 0 →
    (d.setReason n x).frozen n = true ∧ (d.setReason n x).rbit (rgnStatus n) x = true ∧
    ((d.setReason n x).reg (rgnFreezeCount n)).toNat = min ((d.reg (rgnFreezeCount n)).toNat + 1) 0xFFFFFFFF) ∧
  (∀ (d : Dev) (n : Fin 12) (x : Fin 7), d.reasons n ≠ 0 →
    d.setReason n x = d.setRbit (rgnStatus n) x true) ∧
  (∀ (d : Dev) (n : Fin 12) (c : Fin 80000) (b : Fin 320) (i : Fin 20) (m : Fin 240) (p : BramSide),
    (d.clearUser n).srl n c = 0 ∧ (d.clearUser n).acc n b = Acc.zero ∧ (d.clearUser n).ioReg n i = IoRegs.zero ∧
    (d.clearUser n).bramPort n m p = BramPort.zero ∧ (d.clearUser n).queue n m = QueueCtl.empty ∧
    (d.clearUser n).pendingRows n m = [] ∧ (∀ r, (d.clearUser n).bramRow n m r = d.bramRow n m r) ∧
    (∀ n' : Fin 12, n' ≠ n → (d.clearUser n).srl n' c = d.srl n' c ∧ (d.clearUser n).acc n' b = d.acc n' b ∧
      (d.clearUser n).queue n' m = d.queue n' m ∧ (d.clearUser n).bramPort n' m p = d.bramPort n' m p))

/-- Contention latches the free taps, pulls the line low, records it and escalates; clearing CONTENTION releases them (R63, R64, R66, R67, R68, R115). -/
def Obligations.GlobalLineContention : Prop :=
  (∀ (n : Fin 12) (line : BitVec 12) (taps : BitVec 16) (s : State),
    let k := lineKey n line.toNat
    let on := s.dev.enabledTaps k taps
    let old := mget (fun _ => 0) s.dev.logic.glineLatched k
    let d := ({ s.dev with logic := { s.dev.logic with
      lines := mset (fun _ => false) s.dev.logic.lines k false,
      glineLatched := mset (fun _ => 0) s.dev.logic.glineLatched k (old ||| BitVec.ofNat 16 on) } } : Dev)
    exec (.glineContention (some n) line taps) s = .next (s.after (if popCount 16 on < 2 then s.dev else
      (((d.setRbit (rgnFault n) 1 true).setReg (rgnGlineFault n)
        (setBits (setBits (BitVec.ofNat 32 line.toNat) 12 16 (BitVec.ofNat 16 on : BitVec 16).toNat) 31 1 1)).escalate
          clsContention srcRegion (Path.rgn n) [])))) ∧
  (∀ (line : BitVec 12) (taps : BitVec 16) (s : State),
    let l := line.toNat % 128
    let on := s.dev.enabledTaps (chipLineKey l) taps % 4096
    let old := mget (fun _ => 0) s.dev.logic.clineLatched l
    let d := ({ s.dev with logic := { s.dev.logic with
      lines := mset (fun _ => false) s.dev.logic.lines (chipLineKey l) false,
      clineLatched := mset (fun _ => 0) s.dev.logic.clineLatched l (old ||| BitVec.ofNat 12 on) } } : Dev)
    exec (.glineContention none line taps) s = .next (s.after (if popCount 12 on < 2 then s.dev else
      d.escalate clsContention srcRegion Path.chip (putLE 2 l ++ putLE 2 (BitVec.ofNat 12 on : BitVec 12).toNat)))) ∧
  (∀ (d : Dev) (line p : Nat) (user : BitVec 16), p < 16 → line < 65536 →
    bit (BitVec.ofNat 16 (d.enabledTaps line user)) p = (!d.tapLatched line p && (match (d.tapCfg line p).mode with
      | .off => false
      | .steady => true
      | .dynamic => bit user p))) ∧
  (∀ (d : Dev) (ev : Nat → Sig → Bool) (line : Nat), d.lineLatched line = true → d.lineNow ev line = false) ∧
  (∀ (n : Fin 12) (v : Word) (s : State),
    let d := s.dev.setReg (rgnFault n) (s.dev.reg (rgnFault n) &&& ~~~v)
    exec (.rgnFaultClear 0 n v) s = .next (s.after
      (if v.toNat.testBit 1 then (d.releaseTaps n).setRbit (rgnGlineFault n) 31 false else d))) ∧
  (∀ (d : Dev) (n n' : Fin 12) (line : BitVec 12) (p : Fin 16),
    (d.releaseTaps n).tapLatched (lineKey n' line.toNat) p = (decide (n' ≠ n) && d.tapLatched (lineKey n' line.toNat) p))

/-- A block memory's write stores its word and leaves every other row, a read presents the word; corrected rows are written back (R71, R82, R83, R87, R88, R89, R116). -/
def Obligations.BlockMemoryAccesses : Prop :=
  (∀ (n : Fin 12) (m : Fin 240) (addr : BitVec 15) (data : BitVec 72) (u v : EccState) (l : Bool) (s : State),
    s.dev.Quiet → s.dev.gateOpen n (s.dev.bramCfg n m).treeA = true → (s.dev.bramCfg n m).queue = false →
    let c := s.dev.bramCfg n m
    let r := (addr.toNat >>> cfgShift c .a) % 512
    ∃ t, exec (.bramAccess n m (.op (.write addr data)) .still u v l) s = .next t ∧
      t.dev.bramRow n m r = (if c.ecc then eccRow data else putWord (cfgShift c .a) addr (s.dev.bramRow n m r) data) ∧
      t.dev.bramErrOf n m r = 0 ∧
      (∀ n' m' r', rowKey n' m' r' ≠ rowKey n m r → t.dev.bramRow n' m' r' = s.dev.bramRow n' m' r') ∧
      (∀ o, t.dev.reg o = s.dev.reg o) ∧ t.dev.store = s.dev.store ∧ t.dev.bank = s.dev.bank) ∧
  (∀ (n : Fin 12) (m : Fin 240) (addr : BitVec 15) (u v : EccState) (l : Bool) (s : State),
    s.dev.Quiet → s.dev.gateOpen n (s.dev.bramCfg n m).treeA = true → (s.dev.bramCfg n m).queue = false →
    (s.dev.bramCfg n m).outRegA = false →
    let c := s.dev.bramCfg n m
    let r := (addr.toNat >>> cfgShift c .a) % 512
    ∃ t, exec (.bramAccess n m (.op (.read addr)) .still u v l) s = .next t ∧
      (∀ n' m' r', t.dev.bramRow n' m' r' = s.dev.bramRow n' m' r') ∧ t.dev.store = s.dev.store ∧
      (c.ecc = false → (t.dev.bramPort n m .a).now.dout = wordOf (cfgShift c .a) addr (s.dev.bramRow n m r) ∧
        ∀ o, t.dev.reg o = s.dev.reg o) ∧
      (c.ecc = true → s.dev.bramErrOf n m r = 0 → u = .clean →
        (t.dev.bramPort n m .a).now = { dout := BitVec.ofNat 72 (bits (s.dev.bramRow n m r) 0 64), busy := false, corr := false, uncorr := false } ∧
        ∀ o, t.dev.reg o = s.dev.reg o) ∧
      (c.ecc = true → s.dev.bramErrOf n m r = 0 → u = .single →
        (t.dev.bramPort n m .a).now = { dout := BitVec.ofNat 72 (bits (s.dev.bramRow n m r) 0 64), busy := false, corr := true, uncorr := false } ∧
        t.dev.reg (rgnBramErr n) = BitVec.ofNat 32 (0x80000000 + m.val * 512 + r) ∧
        (t.dev.reg (rgnBramCorr n)).toNat = min ((s.dev.reg (rgnBramCorr n)).toNat + 1) 0xFFFFFFFF)) ∧
  (∀ (n : Fin 12) (m : Fin 240) (a b : PortEdge) (u v : EccState) (l : Bool) (s : State), s.dev.Quiet →
    (s.dev.bramCfg n m).ecc = false →
    ∃ t, exec (.bramAccess n m a b u v l) s = .next t ∧ (∀ o, t.dev.reg o = s.dev.reg o) ∧ t.dev.store = s.dev.store ∧
      ∀ (n' : Fin 12) (m' : Fin 240) (r : Nat), r < 512 → (n', m') ≠ (n, m) → t.dev.bramRow n' m' r = s.dev.bramRow n' m' r) ∧
  (∀ (n : Fin 12) (m : Fin 240) (a b : PortEdge) (u v : EccState) (l : Bool) (s : State),
    ((s.dev.bramCfg n m).queue = true ∨ s.dev.gateOpen n (s.dev.bramCfg n m).treeA = false ∧
      s.dev.gateOpen n (s.dev.bramCfg n m).treeB = false) →
    exec (.bramAccess n m a b u v l) s = .next (s.after s.dev)) ∧
  (∀ (n : Fin 12) (m : Fin 240) (r : Nat) (rest : List Nat) (s : State), s.dev.pendingRows n m = r :: rest →
    exec (.bramWriteback n m) s = .next (s.after (if s.dev.gateOpen n (s.dev.bramCfg n m).treeA then
      (s.dev.setBramErr n m r 0).setPendingRows n m rest else s.dev))) ∧
  (∀ (n : Fin 12) (m : Fin 240) (s : State), s.dev.pendingRows n m = [] → exec (.bramWriteback n m) s = .next (s.after s.dev))

/-- Queue writes, reads and QRST: order, flags, overflow and underflow, and what each side sees when (R71, R94, R95, R96, R97, R98). -/
def Obligations.QueueControllers : Prop :=
  (∀ (n : Fin 12) (m : Fin 240) (x : BitVec 72) (u : EccState) (s : State), s.dev.Quiet →
    s.dev.queueLive n m .a = true → s.dev.queueLive n m .b = true →
    (s.dev.bramCfg n m).singleClock = true → (s.dev.bramCfg n m).ecc = false → (s.dev.bramCfg n m).outRegB = false →
    (s.dev.queue n m).toRead = [] → (s.dev.queue n m).toWrite = [] → (s.dev.queue n m).holdW = 0 → (s.dev.queue n m).holdR = 0 →
    let q := s.dev.queue n m
    let depth := s.dev.queueDepth n m
    let shA := cfgShift (s.dev.bramCfg n m) .a
    let shB := cfgShift (s.dev.bramCfg n m) .b
    let wa : BitVec 15 := BitVec.ofNat 15 ((q.rptr + q.level) % depth)
    let ra : BitVec 15 := BitVec.ofNat 15 (q.rptr % depth)
    (q.level < depth → ∃ t, exec (.queueWrite n m x false u) s = .next t ∧
      t.dev.queue n m = { q with level := q.level + 1 } ∧
      t.dev.bramRow n m (rowOf shA wa) = putWord shA wa (s.dev.bramRow n m (rowOf shA wa)) x ∧ ∀ o, t.dev.reg o = s.dev.reg o) ∧
    (depth ≤ q.level → ∃ t, exec (.queueWrite n m x false u) s = .next t ∧
      t.dev.queue n m = { q with overflow := true } ∧ ∀ r, t.dev.bramRow n m r = s.dev.bramRow n m r) ∧
    (q.level ≠ 0 → ∃ t, exec (.queueRead n m u) s = .next t ∧
      t.dev.queue n m = { q with rptr := (q.rptr + 1) % depth, level := q.level - 1 } ∧
      (t.dev.bramPort n m .b).now.dout = wordOf shB ra (s.dev.bramRow n m (rowOf shB ra)) ∧ ∀ o, t.dev.reg o = s.dev.reg o) ∧
    (q.level = 0 → ∃ t, exec (.queueRead n m u) s = .next t ∧ t.dev.queue n m = { q with underflow := true } ∧
      ∀ p, t.dev.bramPort n m p = s.dev.bramPort n m p) ∧
    (q.level ≠ 0 → ∃ t, exec (.queueWrite n m x true u) s = .next t ∧
      t.dev.queue n m = { q with rptr := (q.rptr + 1) % depth } ∧
      (t.dev.bramPort n m .b).now.dout = wordOf shB ra (s.dev.bramRow n m (rowOf shB ra)))) ∧
  (∀ (n : Fin 12) (m : Fin 240) (x : BitVec 72) (u : EccState) (s : State),
    (s.dev.bramCfg n m).singleClock = false →
    (s.dev.queue n m).toRead = [] → (s.dev.queue n m).toWrite = [] → (s.dev.queue n m).holdW = 0 → (s.dev.queue n m).holdR = 0 →
    let q := s.dev.queue n m
    (s.dev.queueLive n m .a = true → q.level < s.dev.queueDepth n m → ∃ t, exec (.queueWrite n m x false u) s = .next t ∧
      (t.dev.queue n m).wlevel = q.wlevel + 1 ∧ (t.dev.queue n m).rlevel = q.rlevel) ∧
    (s.dev.queueLive n m .b = true → q.level ≠ 0 → ∃ t, exec (.queueRead n m u) s = .next t ∧
      (t.dev.queue n m).rlevel = q.rlevel - 1 ∧ (t.dev.queue n m).wlevel = q.wlevel)) ∧
  (∀ (n : Fin 12) (m : Fin 240) (x : BitVec 72) (r : Bool) (u : EccState) (s : State),
    s.dev.queueLive n m .a = false → s.dev.queueLive n m .b = false →
    exec (.queueWrite n m x r u) s = .next (s.after s.dev) ∧ exec (.queueRead n m u) s = .next (s.after s.dev)) ∧
  (∀ (n : Fin 12) (m : Fin 240) (s : State), exec (.queueReset n m true) s =
    .next (s.after (s.dev.setQueue n m { QueueCtl.empty with qrst := true }))) ∧
  (∀ (n : Fin 12) (m : Fin 240) (s : State), exec (.queueReset n m false) s =
    .next (s.after (if (s.dev.queue n m).qrst then
      s.dev.setQueue n m { s.dev.queue n m with qrst := false, holdW := 2, holdR := 2 } else s.dev)))

/-- Shift registers, arithmetic blocks, I/O delay lines and the delay calibration (R58, R59, R71, R99, R100, R101, R102, R104, R105). -/
def Obligations.ShiftRegistersAndArithmetic : Prop :=
  (∀ (n : Fin 12) (c : Fin 80000) (s : State), s.dev.Quiet → (s.dev.cellCfg n c).shift = true →
    s.dev.gateOpen n (s.dev.cellCfg n c).tree = true →
    ∃ t, exec (.shiftRegisterShift n c) s = .next t ∧
      (∀ i : Fin 80000, i.val / 16 = c.val / 16 → (s.dev.cellCfg n i).shift = true →
        (s.dev.cellCfg n i).tree = (s.dev.cellCfg n c).tree →
        (s.dev.sig n (s.dev.cellCfg n i).ce = true → (t.dev.srl n i).getLsbD 0 = s.dev.srlIn n i ∧
          ∀ k, k < 63 → (t.dev.srl n i).getLsbD (k + 1) = (s.dev.srl n i).getLsbD k) ∧
        (s.dev.sig n (s.dev.cellCfg n i).ce = false → t.dev.srl n i = s.dev.srl n i)) ∧
      (∀ (n' : Fin 12) (i : Fin 80000), (n' ≠ n ∨ i.val / 16 ≠ c.val / 16 ∨ (s.dev.cellCfg n i).shift = false ∨
        (s.dev.cellCfg n i).tree ≠ (s.dev.cellCfg n c).tree) → t.dev.srl n' i = s.dev.srl n' i) ∧
      ∀ o, t.dev.reg o = s.dev.reg o) ∧
  (∀ (n : Fin 12) (c : Fin 80000) (s : State), (s.dev.cellCfg n c).shift = false ∨ s.dev.gateOpen n (s.dev.cellCfg n c).tree = false →
    exec (.shiftRegisterShift n c) s = .next (s.after s.dev)) ∧
  (∀ (d : Dev) (n c : Nat), (d.cellCfg n c).sd = none → c % 16 ≠ 0 → d.srlIn n c = (d.srl n (c - 1)).getLsbD 63) ∧
  (∀ (n : Fin 12) (b : Fin 320) (ops : ArithOps) (s : State), s.dev.Quiet → s.dev.gateOpen n (s.dev.arithCfg n b).tree = true →
    let cfg := s.dev.arithCfg n b
    let x := s.dev.acc n b
    let held : ArithIn := { a := ops.a, b := ops.b, d := ops.d, a1 := ops.a1, b1 := ops.b1, a2 := ops.a2, b2 := ops.b2 }
    let i := if cfg.skipIn then held else x.inp
    let sum := if ops.psub then i.a.signExtend 28 - i.d.signExtend 28 else i.a.signExtend 28 + i.d.signExtend 28
    let pre : ArithPre := { sum := sum, b := i.b, a1 := i.a1, b1 := i.b1, a2 := i.a2, b2 := i.b2 }
    let j := if cfg.skipPre then pre else x.pre
    let prod : BitVec 64 := BitVec.ofInt 64 (if cfg.dual then j.a1.toInt * j.b1.toInt + j.a2.toInt * j.b2.toInt else j.sum.toInt * j.b.toInt)
    let p := if cfg.skipProd then prod else x.prod
    let cin : Int := if cfg.cascade = true ∧ b.val % 40 ≠ 0 then (s.dev.acc n (b.val - 1)).acc.toInt else 0
    let y : Int := (if ops.load then 0 else x.acc.toInt) + p.toInt + cin
    let out := decide (y < -(2 ^ 63 : Int) ∨ (2 ^ 63 : Int) ≤ y)
    let z : Int := if cfg.saturate = true ∧ out = true then (if y < 0 then -(2 ^ 63 : Int) else (2 ^ 63 : Int) - 1) else y
    ∃ t, exec (.arithAccumulate n b ops) s = .next t ∧
      t.dev.acc n b = { inp := held, pre := pre, prod := prod, acc := BitVec.ofInt 64 z, ovf := if ops.load then out else x.ovf || out } ∧
      (∀ b' : Fin 320, b' ≠ b → t.dev.acc n b' = s.dev.acc n b') ∧ ∀ o, t.dev.reg o = s.dev.reg o) ∧
  (∀ (n : Fin 12) (b : Fin 320) (ops : ArithOps) (s : State), s.dev.gateOpen n (s.dev.arithCfg n b).tree = false →
    exec (.arithAccumulate n b ops) s = .next (s.after s.dev)) ∧
  (∀ (p : Fin 240) (output : Bool) (op : DelayOp) (s : State),
    exec (.ioDelayStep p output op) s = .next (s.after
      (if 192 ≤ p.val ∨ s.dev.gateOpen (p.val / 16) (s.dev.ioCfg (p.val / 16) (p.val % 16)).tree = false then s.dev
       else { s.dev with logic := { s.dev.logic with
         delays := mset (fun _ => DelayLine.zero) s.dev.logic.delays (p.val * 2 + b2n output)
           ((mget (fun _ => DelayLine.zero) s.dev.logic.delays (p.val * 2 + b2n output)).step op) } }))) ∧
  (∀ (x : DelayLine) (t : Fin 512), (x.step (.load t)).goal = t ∧
    (x.cur.val < t.val → (x.step (.load t)).cur.val = x.cur.val + 1) ∧
    (t.val < x.cur.val → (x.step (.load t)).cur.val = x.cur.val - 1) ∧ (x.cur = t → (x.step (.load t)).cur = t)) ∧
  (∀ (trim : BitVec 16) (s : State), exec (.iodelayCalibration trim) s = .next (s.after
    (if s.dev.rbit timeStatus 31 then { s.dev with logic := { s.dev.logic with tapTrim := some trim } } else s.dev))) ∧
  (∀ (d : Dev) (x : BitVec 16), d.logic.tapTrim = some x → d.trimNow = if d.rbit timeStatus 31 then x
    else Config.factoryTrim ((List.range 128).map (fun i => Config.calRow (0x380 + i))))

/-- The window engine serves its oldest message: reads, writes and fences are answered, a stopped clock is answered with TIMEOUT (R53, R71, R90, R91, R92, R93, R141, R143). -/
def Obligations.WindowEngine : Prop :=
  (∀ (n : Fin 12) (st : List (Fin 512)) (u : EccState) (clash : List WinClash) (c : Cell) (rest : List Cell) (d : Dev) (s : State),
    s.dev.frozen n = false → (∀ m, s.dev.winMem n = some m → s.dev.gateOpen n (s.dev.bramCfg n m).treeB = true) →
    s.dev.winTake n = some (c :: rest, d) →
    let bs := messageBytes (c :: rest)
    let r := d.winReason n ((c :: rest).any (fun c => c.err)) bs
    let o := getLE 5 bs 8 - winBase n
    let m := o / 4096
    let len := getLE 2 bs 2
    (r ≠ 0 → exec (.windowAccess n st u clash) s = .next (s.after (d.answerFail (17 + 2 * n) 0 0 bs r 0x0101))) ∧
    (r = 0 → getLE 1 bs 0 = 4 →
      exec (.windowAccess n st u clash) s = .next (s.after (d.answer (17 + 2 * n) 0 0 bs 2 0 0 []))) ∧
    (r = 0 → getLE 1 bs 0 = 1 →
      let w := d.winWrite n m (o % 4096) (slice bs 16 len) st u clash
      exec (.windowAccess n st u clash) s = .next (s.after
        (if getLE 1 bs 1 % 2 = 1 then w.answer (17 + 2 * n) 0 0 bs 4 0 0 [] else w))) ∧
    (r = 0 → getLE 1 bs 0 = 2 →
      let w := d.winRead n m (o % 4096) len st u clash
      exec (.windowAccess n st u clash) s = .next (s.after
        (if w.2.2 then w.1.answerFail (17 + 2 * n) 0 0 bs 7 0x0101
         else w.1.answer (17 + 2 * n) 0 0 bs 0 0 0 w.2.1)))) ∧
  (∀ (n : Fin 12) (st : List (Fin 512)) (u : EccState) (clash : List WinClash) (s : State),
    (s.dev.frozen n = true ∨ s.dev.winTake n = none ∨
      ∃ m, s.dev.winMem n = some m ∧ s.dev.gateOpen n (s.dev.bramCfg n m).treeB = false) →
    exec (.windowAccess n st u clash) s = .next (s.after s.dev)) ∧
  (∀ (n : Fin 12) (c : Cell) (rest : List Cell) (d : Dev) (s : State), s.dev.frozen n = false →
    s.dev.winTake n = some (c :: rest, d) → s.dev.winMem n ≠ none →
    exec (.windowTimeout n) s = .next (s.after
      ((d.setRbit (rgnFault n) 3 true).answerFail (17 + 2 * n) 0 0 (messageBytes (c :: rest)) 9 0x0101))) ∧
  (∀ (n : Fin 12) (s : State), s.dev.frozen n = true ∨ s.dev.winMem n = none → exec (.windowTimeout n) s = .next (s.after s.dev)) ∧
  (∀ (d : Dev) (n : Fin 12) (m : Fin 240) (r : Fin 512) (bs : List Byte), (d.bramCfg n m).ecc = false → bs.length = 8 →
    let e := d.winWrite n m (8 * r.val) bs [] .clean []
    bits (e.bramRow n m r) 0 64 = getLE 8 bs 0 ∧ bits (e.bramRow n m r) 64 8 = bits (d.bramRow n m r) 64 8 ∧
    (∀ n' m' r', rowKey n' m' r' ≠ rowKey n m r → e.bramRow n' m' r' = d.bramRow n' m' r') ∧
    (d.winRead n m (8 * r.val) 8 [] .clean []).2 = (putLE 8 (bits (d.bramRow n m r) 0 64), false))

/-- A read of an unmapped offset returns 0, a write changes nothing, and either escalates CTRL_DECODE with the access named (R17). -/
def Obligations.UnmappedAccessReadsZeroAndIsReported : Prop :=
  (∀ (id : Fin 13) (off : BitVec 24) (s : State), s.dev.portIdle id = false → off.toNat % 4 = 0 → regRow off.toNat = none →
    exec (.rcRead id off false) s = .next (s.after ((s.dev.escalate clsCtrlDecode srcBus Path.chip
      (putLE 1 id.val ++ putLE 1 0 ++ zeros 2 ++ putLE 4 off.toNat)).setRead id 0))) ∧
  (∀ (id : Fin 13) (off : BitVec 24) (v : Word) (s : State), s.dev.portIdle id = false → off.toNat % 4 = 0 → regRow off.toNat = none →
    exec (.registerWrite id off false v) s = .next (s.after (s.dev.escalate clsCtrlDecode srcBus Path.chip
      (putLE 1 id.val ++ putLE 1 1 ++ zeros 2 ++ putLE 4 off.toNat)))) ∧
  (∀ (d : Dev) (id : Fin 13) (v : Word), (d.setRead id v).readData = mset (fun _ => 0) d.readData id.val v) ∧
  (∀ d : Dev, d.Quiet → d.actionOf 0 = 0 → ∀ x : List Byte,
    (d.escalate clsCtrlDecode srcBus Path.chip x).flush = d.escalateNow 0 0 Path.chip x)

/-- An access of another width or alignment changes nothing and is reported as one to an unmapped offset (R16, R49). -/
def Obligations.WrongWidthOrAlignmentIsRefused : Prop :=
  (∀ (id : Fin 13) (off : BitVec 24) (narrow : Bool) (v : Word) (s : State), s.dev.portIdle id = false → (narrow = true ∨ off.toNat % 4 ≠ 0) →
    exec (.registerWrite id off narrow v) s = .next (s.after (s.dev.escalate clsCtrlDecode srcBus Path.chip
      (putLE 1 id.val ++ putLE 1 3 ++ zeros 2 ++ putLE 4 off.toNat)))) ∧
  (∀ (id : Fin 13) (off : BitVec 24) (narrow : Bool) (s : State), s.dev.portIdle id = false → (narrow = true ∨ off.toNat % 4 ≠ 0) →
    exec (.rcRead id off narrow) s = .next (s.after ((s.dev.escalate clsCtrlDecode srcBus Path.chip
      (putLE 1 id.val ++ putLE 1 2 ++ zeros 2 ++ putLE 4 off.toNat)).setRead id 0)))

/-- A write of a PWR_ register by the hive changes each bit as its access type says, and no other register (R18, R19, R642). -/
def Obligations.PlainWritesFollowTheAccessTypes : Prop :=
  ∀ (off : BitVec 24) (r : RegRow) (v : Word) (s : State), s.dev.Quiet → off.toNat % 4 = 0 →
    (0x020000 ≤ off.toNat ∧ off.toNat < 0x030000) → off.toNat ≠ bistPowerCap → regRow off.toNat = some r →
    ∃ t, exec (.registerWrite 0 off false v) s = .next t ∧
      (∀ i, i < 32 → (t.dev.reg off.toNat).getLsbD i =
        (match r.acc with
         | .rw | .perId => if r.mask.getLsbD i then v.getLsbD i else (s.dev.reg off.toNat).getLsbD i
         | .w1c => (s.dev.reg off.toNat).getLsbD i && !(r.mask.getLsbD i && v.getLsbD i)
         | .w1s => (s.dev.reg off.toNat).getLsbD i || (r.mask.getLsbD i && v.getLsbD i)
         | _ => (s.dev.reg off.toNat).getLsbD i)) ∧
      (∀ o, o ≠ off.toNat → t.dev.reg o = s.dev.reg o)

/-- A read of an RC register returns its value and clears it; a read of a plain register returns its value and changes nothing (R19, R20). -/
def Obligations.ReadOfAnRcRegisterClearsIt : Prop :=
  (∀ (id : Fin 13) (off : BitVec 24) (r : RegRow) (s : State), s.dev.portIdle id = false → s.dev.Quiet → off.toNat % 4 = 0 →
    regRow off.toNat = some r → r.acc = .rc → s.dev.readOk id off.toNat = true →
    off.toNat < 0x200000 →
    ∃ t, exec (.rcRead id off false) s = .next t ∧ mget (fun _ => 0) t.dev.readData id.val = s.dev.reg off.toNat ∧
      t.dev.reg off.toNat = 0 ∧ ∀ o, o ≠ off.toNat → t.dev.reg o = s.dev.reg o) ∧
  (∀ (id : Fin 13) (off : BitVec 24) (r : RegRow) (s : State), s.dev.portIdle id = false → s.dev.Quiet → off.toNat % 4 = 0 →
    regRow off.toNat = some r → (r.acc = .ro ∨ r.acc = .rw ∨ r.acc = .w1c ∨ r.acc = .w1s) →
    s.dev.readOk id off.toNat = true → off.toNat < 0x200000 → s.dev.view id off.toNat = none →
    ∃ t, exec (.rcRead id off false) s = .next t ∧ mget (fun _ => 0) t.dev.readData id.val = s.dev.reg off.toNat ∧
      ∀ o, t.dev.reg o = s.dev.reg o)

/-- A read of a statistics counter's low word latches the high word and SAT for its reader; the high word returns the latch (R12). -/
def Obligations.StatisticsReadsLatchPerRequester : Prop :=
  (∀ (id : Fin 13) (off : BitVec 24) (r : RegRow) (s : State), s.dev.portIdle id = false → s.dev.Quiet → off.toNat % 4 = 0 →
    regRow off.toNat = some r → (r.acc = .statLo ∨ off.toNat = 0x200044) → s.dev.readOk id off.toNat = true →
    let c := if off.toNat = 0x200044 then mget (fun _ => Stat.zero) s.dev.fab.flowAcc (s.dev.fld fabFlowSel 0 12)
      else s.dev.stat off.toNat
    ∃ t, exec (.statLowRead id off) s = .next t ∧
      mget (fun _ => 0) t.dev.readData id.val = BitVec.ofNat 32 c.count.toNat ∧
      (t.dev.idReg id (off.toNat + 4)).toNat = c.count.toNat / 2 ^ 32 + (if c.sat then 2 ^ 31 else 0) ∧
      (∀ id' : Fin 13, id' ≠ id → t.dev.idReg id' (off.toNat + 4) = s.dev.idReg id' (off.toNat + 4)) ∧
      (∀ o, t.dev.stat o = s.dev.stat o) ∧ t.dev.fab = s.dev.fab) ∧
  (∀ (id : Fin 13) (off : BitVec 24) (r : RegRow) (s : State), s.dev.portIdle id = false → s.dev.Quiet → off.toNat % 4 = 0 →
    regRow off.toNat = some r → (r.acc = .statHi ∨ off.toNat = 0x200048) → s.dev.readOk id off.toNat = true →
    ∃ t, exec (.rcRead id off false) s = .next t ∧
      mget (fun _ => 0) t.dev.readData id.val = s.dev.idReg id off.toNat ∧
      ∀ (i : Fin 13) (o : Nat), t.dev.idReg i o = s.dev.idReg i o)

/-- A statistics counter stays at its largest value, sets SAT only when a count is lost, and wraps never; other counters stay or wrap (R11, R14). -/
def Obligations.StatisticsCountersSaturate : Prop :=
  (∀ (c : Stat) (n : Nat), c.count.toNat + n ≤ 0xFFFFFFFFFFFF →
    (c.add n).count.toNat = c.count.toNat + n ∧ (c.add n).sat = c.sat) ∧
  (∀ (c : Stat) (n : Nat), 0xFFFFFFFFFFFF < c.count.toNat + n →
    (c.add n).count.toNat = 0xFFFFFFFFFFFF ∧ (c.add n).sat = true) ∧
  (∀ (d : Dev) (off n : Nat), ((d.count off n).reg off).toNat = min ((d.reg off).toNat + n) 0xFFFFFFFF ∧
    ∀ o, o ≠ off → (d.count off n).reg o = d.reg o) ∧
  (∀ (d : Dev) (off : Nat), ((d.seqUp off).reg off).toNat = ((d.reg off).toNat + 1) % 2 ^ 32 ∧
    ∀ o, o ≠ off → (d.seqUp off).reg o = d.reg o)

/-- LOCK freezes the policies, PENDING is cleared by 1s and clears FIRST, INJECT raises a class of 0 to 20 where it is served (R30, R38, R39, R40, R41, R551). -/
def Obligations.ErrorPolicyRegisters : Prop :=
  (∀ (v : Word) (s : State), s.dev.Quiet →
    ∃ t, exec (.chipErrLock 0 v) s = .next t ∧ t.dev.rbit chipErrCtrl 0 = true ∧
      ∀ o, o ≠ chipErrCtrl → t.dev.reg o = s.dev.reg o) ∧
  (∀ (k : Fin 4) (v : Word) (s : State), s.dev.rbit chipErrCtrl 0 = true →
    exec (.registerWrite 0 (BitVec.ofNat 24 (chipErrPolicy k)) false v) s = .next (s.after s.dev)) ∧
  (∀ (v : Word) (s : State), s.dev.Quiet →
    ∃ t, exec (.chipErrPendingClear 0 v) s = .next t ∧
      t.dev.reg chipErrPending = s.dev.reg chipErrPending &&& ~~~v ∧
      t.dev.chip.forcedAlert = s.dev.chip.forcedAlert &&& (s.dev.reg chipErrPending &&& ~~~v) ∧
      t.dev.reg chipErrFirst = (if s.dev.reg chipErrPending &&& ~~~v = 0 then setBit (s.dev.reg chipErrFirst) 31 false
        else s.dev.reg chipErrFirst) ∧
      ∀ o, o ≠ chipErrPending → o ≠ chipErrFirst → t.dev.reg o = s.dev.reg o) ∧
  (∀ (v : Word) (s : State), s.dev.served 1 = true → v.toNat % 32 ≤ 20 →
    exec (.chipErrInject 0 v) s = .next (s.after (s.dev.escalate (v.toNat % 32) srcInjected Path.chip []))) ∧
  (∀ (v : Word) (s : State), s.dev.served 1 = true → 20 < v.toNat % 32 →
    exec (.chipErrInject 0 v) s = .next (s.after s.dev))

/-- An aligned register write is the owning block's write; a hive register refuses control ports; an idle control port does nothing (R16, R46, R48, R49, R73, R108, R173, R283, R573, R605, R610, R642). -/
def Obligations.RegisterWritesReachTheirBlock : Prop :=
  (∀ (id : Fin 13) (off : BitVec 24) (r : RegRow) (v : Word) (s : State), s.dev.portIdle id = false → off.toNat % 4 = 0 →
    regRow off.toNat = some r →
    exec (.registerWrite id off false v) s = .next (s.after (s.dev.blockWrite id r off.toNat v))) ∧
  (∀ (c : Instr) (id : Fin 13) (off : Nat) (s : State), busIdentity c = some id → hiveOffset c = some off → id ≠ 0 →
    s.dev.portIdle id = false →
    exec c s = .next (s.after (s.dev.escalate clsCtrlDecode srcBus Path.chip
      (putLE 1 id.val ++ putLE 1 1 ++ zeros 2 ++ putLE 4 off)))) ∧
  (∀ (c : Instr) (id : Fin 13) (s : State), busIdentity c = some id → s.dev.portIdle id = true →
    exec c s = .next (s.after s.dev)) ∧
  (∀ (d : Dev) (id : Fin 13), d.portIdle id = (decide (id ≠ 0) && d.rbit (rgnStatus (id.val - 1)) 31))

/-- SHUTDOWN_REQ and SHUTDOWN begin step 1 with the estimates taken; SHUTDOWN_DRAINED freezes every region and goes on (R634, R636, R637, R542, R644). -/
def Obligations.ShutdownIsRequestedAndDrains : Prop :=
  (∀ s : State, s.dev.Quiet → s.dev.running = true → s.dev.rbit pwrCtrl 1 = true → s.dev.sdStep = 0 →
    ∃ t x, exec .shutdownReqPin s = .next t ∧ t.dev.power.shutdown = some x ∧ t.dev.sdStep = 1 ∧
      t.dev.rbit bistStatus 30 = false ∧ x.byCommand = false ∧ x.selftest = s.dev.rbit pwrCtrl 0 ∧
      x.cap = s.dev.fld bistPowerCap 0 20 ∧ x.todo.length = 29 ∧ x.running = [] ∧
      (∀ o, o ≠ pwrStatus → o ≠ bistStatus → t.dev.reg o = s.dev.reg o)) ∧
  (∀ (r : Req) (rest : List Req) (s : State), s.dev.Takes 0x0900 r rest →
    checkParams r 8 [(0, 0xFE), (1, 0xFF), (2, 0xFF), (3, 0xFF)] [] = none → s.dev.sdStep = 0 → s.dev.ticketsFull = false →
    exec .shutdown s = .next (s.after (((s.dev.taken r rest).startTicketJob r .shutdown).shutdownBegin true
      ((r.u 1 0).testBit 0) (r.u 4 4)))) ∧
  (∀ (d : Dev) (b selftest : Bool) (cap : Nat), ∃ x, (d.shutdownBegin b selftest cap).power.shutdown = some x ∧
    x.byCommand = b ∧ x.selftest = selftest ∧ x.cap = (if cap = 0 then d.fld bistPowerCap 0 20 else cap) ∧
    x.todo.length = 29 ∧ x.running = [] ∧ (d.shutdownBegin b selftest cap).sdStep = 1 ∧
    (∀ o, o ≠ pwrStatus → o ≠ bistStatus → (d.shutdownBegin b selftest cap).reg o = d.reg o)) ∧
  (∀ (base : BitVec 20) (x : Shutdown) (s : State), s.dev.Quiet → s.dev.power.shutdown = some x → s.dev.sdStep = 1 →
    ∃ t, exec (.shutdownDrained base) s = .next t ∧ t.dev.reg bistBasePower = base.setWidth 32 ∧
      (∀ n, n < 12 → t.dev.rbit (rgnStatus n) rsnCommand = true) ∧
      ((x.selftest = false ∨ s.dev.inRetired = true) → t.dev.sdStep = 4)) ∧
  (∀ s : State, s.dev.running = false ∨ s.dev.rbit pwrCtrl 1 = false ∨ s.dev.sdStep ≠ 0 →
    exec .shutdownReqPin s = .next (s.after s.dev)) ∧
  (∀ (r : Req) (rest : List Req) (s : State), s.dev.Takes 0x0900 r rest →
    checkParams r 8 [(0, 0xFE), (1, 0xFF), (2, 0xFF), (3, 0xFF)] [] = none → s.dev.sdStep ≠ 0 ∨ s.dev.ticketsFull = true →
    exec .shutdown s = .next (s.answered (s.dev.taken r rest) r (if s.dev.sdStep = 5 then stBadParam else stBusy)
      (errPayload (if s.dev.sdStep = 5 then detState else if s.dev.sdStep ≠ 0 then detInProgress else detTicketsFull) 0))) ∧
  (∀ (base : BitVec 20) (s : State), s.dev.power.shutdown = none ∨ s.dev.sdStep ≠ 1 →
    exec (.shutdownDrained base) s = .next (s.after s.dev))

/-- SHUTDOWN_TEST_END records a test that runs and no other; HEALTH_RECORD_WRITTEN ends the shutdown with SHUTDOWN_DONE (R631, R634, R636, R639, R644, R647). -/
def Obligations.ShutdownTestsAndHealthRecord : Prop :=
  (∀ (n : Fin 12) (run : BitVec 16) (misr : Word) (s : State), s.dev.suiteRuns (isSuiteRegion n) = true →
    exec (.shutdownTestEnd (.region n run misr)) s = .next (s.after ((s.dev.endLogic n run.toNat (some misr)
      (if run.toNat < s.dev.patternsNeeded n ∨ s.dev.patternsNeeded n = 0 then tstIncomplete
       else if run.toNat = s.dev.patternsNeeded n ∧ misr = s.dev.signatureOf n then tstPass else tstFail)).suiteEnded
        (isSuiteRegion n)))) ∧
  (∀ (p : Fin 17) (failing : List (Fin 2048)) (spareBad : Fin 33) (s : State), s.dev.suiteRuns (isSuiteBank p) = true →
    exec (.shutdownTestEnd (.bank p failing spareBad)) s =
      .next (s.after ((s.dev.marchDone p failing spareBad.val).suiteEnded (isSuiteBank p)))) ∧
  (∀ (n : Fin 12) (run : BitVec 16) (misr : Word) (s : State), s.dev.suiteRuns (isSuiteRegion n) = false →
    exec (.shutdownTestEnd (.region n run misr)) s = .next (s.after s.dev)) ∧
  (∀ (p : Fin 17) (failing : List (Fin 2048)) (spareBad : Fin 33) (s : State), s.dev.suiteRuns (isSuiteBank p) = false →
    exec (.shutdownTestEnd (.bank p failing spareBad)) s = .next (s.after s.dev)) ∧
  (∀ (d : Dev) (n run : Nat) (misr : Word) (code : Nat), n < 12 → code < 8 →
    (d.endLogic n run (some misr) code).testCode n 1 = code ∧ (d.endLogic n run (some misr) code).reg (bistRgnMisr n) = misr ∧
    (code = tstFail → (d.endLogic n run (some misr) code).rbit (rgnStatus n) rsnLogicFail = true) ∧
    (code = tstPass → (d.endLogic n run (some misr) code).rbit (rgnStatus n) rsnLogicFail = false)) ∧
  (∀ (failing : List Nat) (x : Shutdown) (s : State), s.dev.Quiet → s.dev.power.shutdown = some x → s.dev.sdStep = 4 →
    s.dev.nvAwake = true → s.dev.nvReady = true → s.dev.nvHold = false → s.dev.store.move = .none →
    ∃ d, exec (.healthRecordWritten failing) s = .next (s.after d) ∧ d.sdStep = 5 ∧ d.rbit pwrStatus 31 = true ∧
      d.power.shutdown = none ∧ (d.Quiet → (s.after d).dev.out.shutdownDone = true)) ∧
  (∀ (failing : List Nat) (s : State), (s.dev.power.shutdown = none ∨ s.dev.sdStep ≠ 4 ∨ s.dev.nvAwake = false ∨ s.dev.nvReady = false ∨
    s.dev.nvHold = true ∨ s.dev.store.move ≠ .none) → exec (.healthRecordWritten failing) s = .next (s.after s.dev))

/-- REGION_SELFTEST freezes its region and waits; it starts, ends with its result, or times out as INCOMPLETE (R538, R629, R631, R632, R635, R646, R647). -/
def Obligations.RegionSelfTestRunsOnce : Prop :=
  (∀ (r : Req) (rest : List Req) (s : State), s.dev.Takes 0x0507 r rest →
    checkParams r 4 (zb [2, 3]) [(0, 1, 0, 11), (1, 1, 1, 2)] = none → s.dev.served 1 = true →
    s.dev.rbit (rgnStatus (r.u 1 0)) 9 = false → s.dev.rbit (rgnStatus (r.u 1 0)) rsnSelftest = false →
    s.dev.suiteRuns (isSuiteRegion (r.u 1 0)) = false → s.dev.ticketsFull = false →
    let e := (s.dev.taken r rest).estimate (r.u 1 0)
    exec .regionSelftest s = .next (s.after ((((e.2.startTicketJob r (.selftest (r.u 1 0) (r.u 1 1))).setTestCode (r.u 1 0)
      (r.u 1 1) tstWaiting).setFld (bistRgnStatus (r.u 1 0)) 0 20 e.1).setReason (r.u 1 0) rsnSelftest))) ∧
  (∀ (r : Req) (rest : List Req) (s : State), s.dev.Takes 0x0507 r rest →
    checkParams r 4 (zb [2, 3]) [(0, 1, 0, 11), (1, 1, 1, 2)] = none →
    let n := r.u 1 0
    let busy := s.dev.rbit (rgnStatus n) 9 || s.dev.rbit (rgnStatus n) rsnSelftest || s.dev.suiteRuns (isSuiteRegion n)
    (s.dev.served 1 = false → exec .regionSelftest s = .next (s.answered (s.dev.taken r rest) r stDeniedLifecycle (errPayload 0 0))) ∧
    (s.dev.served 1 = true → busy = true ∨ s.dev.ticketsFull = true → exec .regionSelftest s = .next (s.answered (s.dev.taken r rest) r
      stBusy (errPayload (if busy then detInProgress else detTicketsFull) 0)))) ∧
  (∀ (n : Fin 12) (k : Nat) (s : State), s.dev.selfKind n = some k →
    exec (.regionSelftestStart n) s = .next (s.after
      (if s.dev.testCode n k = tstWaiting ∧ s.dev.rbit pwrStatus 0 = false ∧
          s.dev.fld pwrTotal 0 20 + s.dev.fld (bistRgnStatus n) 0 20 ≤ s.dev.fld bistPowerCap 0 20 then
        (if k = 1 then s.dev.startLogic n (s.dev.fld (bistRgnStatus n) 0 20) else s.dev.setTestCode n 2 tstRunning)
       else s.dev))) ∧
  (∀ (n : Fin 12) (run : BitVec 16) (misr : Word) (fs : List (Fin 240)) (s : State), s.dev.selfKind n = some 1 →
    s.dev.testCode n 1 = tstRunning →
    exec (.regionSelftestDone n run misr fs) s = .next (s.after (s.dev.selfEnds n 1
      (logicResult run.toNat (s.dev.patternsNeeded n) misr (s.dev.signatureOf n)) run.toNat (s.dev.patternsNeeded n) (some misr)))) ∧
  (∀ (n : Fin 12) (s : State), s.dev.selfKind n = some 1 → s.dev.testCode n 1 = tstWaiting →
    exec (.selftestStartTimeout n) s = .next (s.after (s.dev.selfEnds n 1 tstIncomplete 0 (s.dev.patternsNeeded n) none))) ∧
  (∀ (n : Fin 12) (run : BitVec 16) (misr : Word) (fs : List (Fin 240)) (s : State), s.dev.selfKind n = some 2 →
    let ops := (s.dev.freeVal 32 : BitVec 32).toNat
    (s.dev.testCode n 2 = tstRunning → exec (.regionSelftestDone n run misr fs) s = .next (s.after
      ((s.dev.freeNext.zeroBram n).selfEnds n 2 (if fs = [] then tstPass else tstFail) ops ops none))) ∧
    (s.dev.testCode n 2 = tstWaiting → exec (.selftestStartTimeout n) s = .next (s.after
      (s.dev.freeNext.selfEnds n 2 tstIncomplete 0 ops none)))) ∧
  (∀ (n : Fin 12) (k : Nat) (run : BitVec 16) (misr : Word) (fs : List (Fin 240)) (s : State), s.dev.selfKind n = some k →
    (s.dev.testCode n k ≠ tstRunning → exec (.regionSelftestDone n run misr fs) s = .next (s.after s.dev)) ∧
    (s.dev.testCode n k ≠ tstWaiting → exec (.selftestStartTimeout n) s = .next (s.after s.dev))) ∧
  (∀ (d : Dev) (n : Fin 12) (m : Fin 240) (r : Fin 512), (d.zeroBram n).bramRow n m r = 0) ∧
  (∀ (d : Dev) (n code run need : Nat) (misr : Option Word), n < 12 → d.sdStep ≠ 3 →
    (d.selfEnds n 1 code run need misr).rbit (rgnStatus n) rsnSelftest = false) ∧
  (∀ (n : Fin 12) (run : BitVec 16) (misr : Word) (fs : List (Fin 240)) (s : State), s.dev.selfKind n = none →
    exec (.regionSelftestStart n) s = .next (s.after s.dev) ∧ exec (.regionSelftestDone n run misr fs) s = .next (s.after s.dev) ∧
    exec (.selftestStartTimeout n) s = .next (s.after s.dev))

/-- SPI and I2C WRITE bring a request to the hive, STATUS and READ return the status byte and the stored reply (R510, R514, R517, R518, R524, R525, R527, R585). -/
def Obligations.TransportsCarryRequestsAndReplies : Prop :=
  (∀ (d : Dev) (bs : List Byte), (d.setMiso bs).hive.spiOut = if d.misoDriven then bs else []) ∧
  (∀ (d : Dev) (alt : Bool), d.spiTakes alt = true ↔
    alt = d.altSpi ∧ (alt = true → d.pinUnpowered 220 = false)) ∧
  (∀ (alt : Bool) (bs : List Byte) (n : BitVec 16) (s : State), s.dev.spiTakes alt = false →
    exec (.spiWrite alt bs) s = .next (s.after (s.dev.setSpiOut [])) ∧
    exec (.spiStatus alt n) s = .next (s.after (s.dev.setSpiOut [])) ∧
    exec (.spiRead alt n) s = .next (s.after (s.dev.setSpiOut []))) ∧
  (∀ (alt : Bool) (bs : List Byte) (s : State), s.dev.spiTakes alt = true → s.dev.hive.ready = true → bs.head? = some 0xA7 →
    exec (.spiWrite alt bs) s = .next (s.after
      (((s.dev.setHport .spi { s.dev.hive.spi with rxErr := false }).reqArrive .spi bs).setMiso (zeros bs.length)))) ∧
  (∀ (alt : Bool) (bs : List Byte) (s : State), s.dev.Quiet → s.dev.spiTakes alt = true → s.dev.hive.ready = true →
    bs.head? ≠ some 0xA7 → ∃ t, exec (.spiWrite alt bs) s = .next t ∧ t.dev.hive.spi.rxErr = true ∧ t.dev.hive.waiting = s.dev.hive.waiting ∧
      (t.dev.reg (imfaBad 0)).toNat = min ((s.dev.reg (imfaBad 0)).toNat + 1) 0xFFFFFFFF ∧
      ∀ o, o ≠ imfaBad 0 → t.dev.reg o = s.dev.reg o) ∧
  (∀ (alt : Bool) (bs : List Byte) (s : State), s.dev.spiTakes alt = true → s.dev.hive.ready = false →
    exec (.spiWrite alt bs) s = .next (s.after (s.dev.setMiso (zeros bs.length)))) ∧
  (∀ (alt : Bool) (n : BitVec 16) (s : State), s.dev.spiTakes alt = true → exec (.spiStatus alt n) s = .next (s.after (s.dev.setMiso
    (if s.dev.hive.ready then List.replicate n.toNat (s.dev.statusByte .spi) else zeros n.toNat)))) ∧
  (∀ (alt : Bool) (n : BitVec 16) (s : State), s.dev.spiTakes alt = true → exec (.spiRead alt n) s = .next (s.after (s.dev.setMiso
    (if s.dev.hive.ready then fit n.toNat (0 :: s.dev.viaReply .spi) else zeros n.toNat)))) ∧
  (∀ (addr : BitVec 7) (bs : List Byte) (n : BitVec 16) (s : State), s.dev.hive.ready = true →
    addr.toNat = 0x48 + s.dev.hive.addr.toNat →
    exec (.i2cStatus addr n) s = .next (s.after (s.dev.setI2cOut (List.replicate n.toNat (s.dev.statusByte .i2c)))) ∧
    exec (.i2cRead addr n) s = .next (s.after (s.dev.setI2cOut (fit n.toNat (s.dev.viaReply .i2c)))) ∧
    (bs.head? = some 0xA7 →
      exec (.i2cWrite addr bs) s = .next (s.after ((s.dev.setHport .i2c { s.dev.hive.i2c with rxErr := false }).reqArrive .i2c bs)))) ∧
  (∀ (addr : BitVec 7) (bs : List Byte) (s : State), s.dev.Quiet → s.dev.hive.ready = true →
    addr.toNat = 0x48 + s.dev.hive.addr.toNat → bs.head? ≠ some 0xA7 →
    ∃ t, exec (.i2cWrite addr bs) s = .next t ∧ t.dev.hive.i2c.rxErr = true ∧ t.dev.hive.waiting = s.dev.hive.waiting ∧
      (t.dev.reg (imfaBad 1)).toNat = min ((s.dev.reg (imfaBad 1)).toNat + 1) 0xFFFFFFFF ∧
      ∀ o, o ≠ imfaBad 1 → t.dev.reg o = s.dev.reg o) ∧
  (∀ (addr : BitVec 7) (bs : List Byte) (n : BitVec 16) (s : State),
    s.dev.hive.ready = false ∨ addr.toNat ≠ 0x48 + s.dev.hive.addr.toNat →
    exec (.i2cWrite addr bs) s = .next (s.after s.dev) ∧ exec (.i2cRead addr n) s = .next (s.after (s.dev.setI2cOut [])) ∧
    exec (.i2cStatus addr n) s = .next (s.after (s.dev.setI2cOut []))) ∧
  (∀ (d : Dev) (v : Via) (bs : List Byte), bs.length = 20 + getLE 4 bs 8 → getLE 4 bs 8 ≤ viaLimit v →
    crc32c (bs.take 12) = getLE 4 bs 12 → getLE 1 bs 1 = 1 → crc32c (bs.take (16 + getLE 4 bs 8)) = getLE 4 bs (16 + getLE 4 bs 8) →
    opcodes.contains (getLE 2 bs 2) = true → getLE 2 bs 6 = 0 → v = .spi ∨ v = .i2c →
    let k := b2n d.requestWaits
    (d.reqArrive v bs).hive.waiting = d.hive.waiting.take k ++ (d.hive.waiting.drop k).filter (fun w => decide (w.via ≠ v)) ++
      [{ via := v, opcode := BitVec.ofNat 16 (getLE 2 bs 2), tag := BitVec.ofNat 16 (getLE 2 bs 4), flags := 0,
         params := slice bs 16 (getLE 4 bs 8) }])

/-- Under the instruction IMFA a scan captures, appends bytes, reads on or aborts; endpoint 48 takes whole request messages (R529, R530, R675). -/
def Obligations.JtagAndFabricCarryRequests : Prop :=
  (∀ (n : BitVec 2) (w : BitVec 16) (s : State), s.dev.jtag.ir = irImfa →
    let d : Dev := { s.dev with jtag := { s.dev.jtag with out := s.dev.imfaCapture } }
    exec (.imfaJtagWrite n w) s = .next (s.after (if n = 1 then d.appendByte (BitVec.ofNat 8 w.toNat)
      else if n = 2 then (d.appendByte (BitVec.ofNat 8 w.toNat)).appendByte (BitVec.ofNat 8 (w.toNat / 256)) else d))) ∧
  (∀ (d : Dev) (b : Byte), d.hive.ready = true → d.hive.jtag.discard = false → d.hive.jtag.part.length < 15 →
    (d.hive.jtag.part ≠ [] ∨ b = 0xA7) → (d.appendByte b).hive.jtag.part = d.hive.jtag.part ++ [b]) ∧
  (∀ (d : Dev) (b : Byte), d.hive.ready = true → d.hive.jtag.discard = false → d.hive.jtag.part = [] → b ≠ 0xA7 →
    d.appendByte b = { d with hive := { d.hive with jtag := { d.hive.jtag with rxErr := true } } }) ∧
  (∀ s : State, s.dev.Quiet → s.dev.jtag.ir = irImfa →
    ∃ t u, exec .imfaJtagRead s = .next t ∧ exec .imfaJtagAbort s = .next u ∧
      t.dev.jtag.out = s.dev.imfaCapture ∧ t.dev.hive.jtag = { s.dev.hive.jtag with rptr := s.dev.hive.jtag.rptr + s.dev.rcount } ∧
      u.dev.jtag.out = s.dev.imfaCapture ∧ u.dev.hive.jtag.part = [] ∧ u.dev.hive.jtag.reply = none ∧
      u.dev.hive.jtag.rxErr = false ∧ u.dev.hive.jtag.latest = s.dev.hive.jtag.latest ∧ (∀ o, u.dev.reg o = s.dev.reg o)) ∧
  (∀ (n : BitVec 2) (w : BitVec 16) (s : State), s.dev.jtag.ir ≠ irImfa →
    exec (.imfaJtagWrite n w) s = .next (s.after s.dev) ∧
    exec .imfaJtagRead s = .next (s.after s.dev) ∧
    exec .imfaJtagAbort s = .next (s.after s.dev)) ∧
  (∀ (f : BitVec 12) (m rest : List Cell) (c : Cell) (s : State), takeMessage f (s.dev.rxCells 48) = some (m, rest) →
    m.head? = some c → m.any (fun c => c.err) = false → getLE 1 (messageBytes m) 0 = 0xA7 →
    (s.dev.hive.ready = true → s.dev.ep48Waiting < 4 →
      exec (.ep48Message f) s = .next (s.after ((s.dev.setRx 48 rest).reqArrive (.ep48 (Fin.ofNat 52 c.src.toNat)) (messageBytes m)))) ∧
    (s.dev.hive.ready = true → 4 ≤ s.dev.ep48Waiting →
      exec (.ep48Message f) s = .next (s.after ((s.dev.setRx 48 rest).count imfaDrop))) ∧
    (s.dev.hive.ready = false → exec (.ep48Message f) s = .next (s.after (s.dev.setRx 48 rest)))) ∧
  (∀ (f : BitVec 12) (s : State), takeMessage f (s.dev.rxCells 48) = none → exec (.ep48Message f) s = .next (s.after s.dev)) ∧
  (∀ (f : BitVec 12) (m rest : List Cell) (s : State), takeMessage f (s.dev.rxCells 48) = some (m, rest) →
    m.any (fun c => c.err) = false → 1 ≤ getLE 1 (messageBytes m) 0 → getLE 1 (messageBytes m) 0 ≤ 4 →
    exec (.ep48Message f) s = .next (s.after s.dev)) ∧
  (∀ (f : BitVec 12) (m rest : List Cell) (s : State), takeMessage f (s.dev.rxCells 48) = some (m, rest) →
    (m.any (fun c => c.err) = true ∨ getLE 1 (messageBytes m) 0 = 0 ∨ 4 < getLE 1 (messageBytes m) 0 ∧ getLE 1 (messageBytes m) 0 ≠ 0xA7) →
    exec (.ep48Message f) s = .next (s.after ((s.dev.setRx 48 rest).count imfaDrop)))

/-- A command is taken up only by its opcode, a bad parameter field answered; SYS_NOP, SYS_INFO, SYS_RESET and tickets do what chapter 11 says (R514, R517, R519, R520, R521, R522, R531, R543). -/
def Obligations.SystemCommandsAndTickets : Prop :=
  (∀ (c : Instr) (op : Nat) (s : State), hiveOpcode c = some op →
    (s.dev.hive.ready = false ∨ s.dev.currentJob ≠ none ∨ ∀ r, s.dev.hive.waiting.head? = some r → r.opcode.toNat ≠ op) →
    exec c s = .next (s.after s.dev)) ∧
  (∀ (c : Instr) (op n : Nat) (z : List (Nat × Nat)) (g : List (Nat × Nat × Nat × Nat)) (r : Req) (rest : List Req) (a : Answer)
    (s : State), hiveOpcode c = some op → hiveParams c = some (n, z, g) → s.dev.Takes op r rest → checkParams r n z g = some a →
    exec c s = .next (s.answered (s.dev.taken r rest) r a.1 a.2)) ∧
  (∀ (r : Req) (rest : List Req) (s : State), s.dev.Takes 0x0000 r rest → r.params = [] →
    exec .sysNop s = .next (s.answered (s.dev.taken r rest) r stOk [])) ∧
  (∀ (r : Req) (rest : List Req) (s : State), s.dev.Takes 0x0001 r rest → r.params = [] →
    let d := s.dev.taken r rest
    exec .sysInfo s = .next (s.answered d r stOk (putLE 4 Config.idcode.toNat ++ serialBytes ++ putLE 4 (d.reg imfaFwVersion).toNat ++
      putLE 1 d.lcCode ++ putLE 1 (b2n d.hive.fwSlot) ++ zeros 2 ++ putLE 4 (d.reg cfgBoot).toNat ++
      (List.range 8).flatMap (fun i => putLE 4 (d.reg (cfgDigest i)).toNat)))) ∧
  (∀ (r : Req) (rest : List Req) (s : State), s.dev.Takes 0x0003 r rest → checkParams r 4 (zb [1, 2, 3]) [(0, 1, 1, 2)] = none →
    let d := s.dev.taken r rest
    exec .sysReset s = .next (s.answered
      { d with hive := { d.hive with due := d.hive.due ++ [if r.u 1 0 = 1 then .device else .hive] } } r stOk [])) ∧
  (∀ (r : Req) (rest : List Req) (s : State), s.dev.Takes 0x0002 r rest → r.params.length = 4 →
    let d := s.dev.taken r rest
    let t : Word := BitVec.ofNat 32 (r.u 4 0)
    (s.dev.hive.jobs.find? (fun j => decide (j.ticket = some t)) = none →
      exec .ticketPoll s = .next (s.answered d r stBadParam (errPayload detTicket 0))) ∧
    (∀ j, s.dev.hive.jobs.find? (fun j => decide (j.ticket = some t)) = some j → j.final = none →
      exec .ticketPoll s = .next (s.answered d r stPending (pendingPayload t j.progress))) ∧
    (∀ j st p, s.dev.hive.jobs.find? (fun j => decide (j.ticket = some t)) = some j → j.final = some (st, p) →
      exec .ticketPoll s = .next (s.answered (d.freeTicket t) r st.toNat p))) ∧
  (∀ s : State, s.dev.ticketsFull = false → exec .pendingReply s = .next (s.after s.dev.ticketCurrent) ∧
    s.dev.ticketCurrent.currentJob = none) ∧
  (∀ s : State, s.dev.ticketsFull = true → exec .pendingReply s = .next (s.after s.dev)) ∧
  (∀ (t : Word) (j : Job) (s : State), s.dev.Quiet → j ∈ s.dev.hive.jobs → j.ticket = some t → j.final ≠ none →
    ∃ u, exec (.ticketExpiry t) s = .next u ∧ u.dev.hive.jobs = s.dev.hive.jobs.filter (fun j => decide (j.ticket ≠ some t))) ∧
  (∀ (t : Word) (s : State), (∀ j ∈ s.dev.hive.jobs, j.ticket = some t → j.final = none) →
    exec (.ticketExpiry t) s = .next (s.after s.dev))

/-- REG_READ and REG_WRITE access the addresses in order as the hive until one is refused; REG_RMW reads, merges and writes (R513, R514, R532, R533, R19). -/
def Obligations.RegisterCommandsAccessTheBus : Prop :=
  (∀ (r : Req) (rest : List Req) (s : State), s.dev.Takes 0x0100 r rest → checkParams r 8 (zb [7]) [] = none →
    addressOk r = true → 1 ≤ r.u 2 4 → r.u 2 4 ≤ 1024 → r.u 1 6 ≤ 1 →
    ∃ d a, (s.dev.taken r rest).regReads (addressesOf r) (putLE 4 (r.u 4 0)) = (d, some a) ∧
      exec .regRead s = .next (s.answered d r a.1 a.2)) ∧
  (∀ (d : Dev) (out : List Byte), d.regReads [] out = (d, some (stOk, out))) ∧
  (∀ (d d' : Dev) (a : Nat) (v : Word) (l : List Nat) (out : List Byte), d.busRead 0 a false = (some v, d') →
    d.regReads (a :: l) out = d'.regReads l (out ++ putLE 4 v.toNat)) ∧
  (∀ (d d' : Dev) (a : Nat) (l : List Nat) (out : List Byte), d.busRead 0 a false = (none, d') →
    d.regReads (a :: l) out = (d', some (stBadParam, errPayload detDecode a))) ∧
  (∀ (r : Req) (rest : List Req) (s : State), s.dev.Takes 0x0101 r rest → 8 ≤ r.params.length →
    checkParams r (8 + 4 * r.u 2 4) (zb [7]) [] = none → addressOk r = true → 1 ≤ r.u 2 4 → r.u 2 4 ≤ 1024 → r.u 1 6 ≤ 1 →
    ∃ d a, (s.dev.taken r rest).regWrites (r.u 2 4) ((addressesOf r).zip ((List.range (r.u 2 4)).map
        (fun i => (BitVec.ofNat 32 (r.u 4 (8 + 4 * i)) : Word)))) = (d, some a) ∧
      exec .regWrite s = .next (s.answered d r a.1 a.2)) ∧
  (∀ (d : Dev) (n a : Nat) (v : Word) (l : List (Nat × Word)),
    d.regWrites n [] = (d, some (stOk, putLE 2 n ++ zeros 2)) ∧
    (d.decodeSince (d.busWrite 0 a false v) = false → d.regWrites n ((a, v) :: l) = (d.busWrite 0 a false v).regWrites n l) ∧
    (d.decodeSince (d.busWrite 0 a false v) = true →
      d.regWrites n ((a, v) :: l) = (d.busWrite 0 a false v, some (stBadParam, errPayload detDecode a)))) ∧
  (∀ (r : Req) (rest : List Req) (old : Word) (d' : Dev) (s : State), s.dev.Takes 0x0102 r rest → checkParams r 12 [] [] = none →
    addressOk r = true → (s.dev.taken r rest).busRead 0 (r.u 4 0) false = (some old, d') →
    let new := (old &&& ~~~(BitVec.ofNat 32 (r.u 4 4) : Word)) ||| (BitVec.ofNat 32 (r.u 4 8) &&& BitVec.ofNat 32 (r.u 4 4))
    let d := d'.busWrite 0 (r.u 4 0) false new
    exec .regRmw s = .next (if d'.decodeSince d = true then s.answered d r stBadParam (errPayload detDecode (r.u 4 0))
      else s.answered d r stOk (putLE 4 old.toNat ++ putLE 4 new.toNat))) ∧
  (∀ (r : Req) (rest : List Req) (d' : Dev) (s : State), s.dev.Takes 0x0102 r rest → checkParams r 12 [] [] = none →
    addressOk r = true → (s.dev.taken r rest).busRead 0 (r.u 4 0) false = (none, d') →
    exec .regRmw s = .next (s.answered d' r stBadParam (errPayload detDecode (r.u 4 0)))) ∧
  (∀ (c : Instr) (n : Nat) (r : Req) (rest : List Req) (s : State),
    (c = .regRead ∧ n = 0x0100 ∨ c = .regWrite ∧ n = 0x0101 ∨ c = .regRmw ∧ n = 0x0102) → s.dev.Takes n r rest →
    let bad := fun detail arg => s.answered (s.dev.taken r rest) r stBadParam (errPayload detail arg)
    let check := checkParams r (if n = 0x0100 then 8 else if n = 0x0101 then 8 + 4 * r.u 2 4 else 12)
      (if n = 0x0102 then [] else zb [7]) []
    (r.params.length < 8 → exec c s = .next (bad detLength 0)) ∧
    (8 ≤ r.params.length →
      (∀ a, check = some a → exec c s = .next (s.answered (s.dev.taken r rest) r a.1 a.2)) ∧
      (check = none → addressOk r = false → exec c s = .next (bad detRange 0)) ∧
      (check = none → addressOk r = true → n ≠ 0x0102 → (r.u 2 4 < 1 ∨ 1024 < r.u 2 4) → exec c s = .next (bad detRange 4)) ∧
      (check = none → addressOk r = true → n ≠ 0x0102 → 1 ≤ r.u 2 4 → r.u 2 4 ≤ 1024 → 1 < r.u 1 6 →
        exec c s = .next (bad detRange 6))))

/-- The NVS_ commands read, digest, program, erase, suspend, resume and start patrol, or are answered with the first refusal that applies (R369, R371, R372, R373, R375, R379, R394, R401, R534). -/
def Obligations.StoreCommandsReadProgramAndErase : Prop :=
  (∀ (r : Req) (rest : List Req) (s : State), s.dev.Takes 0x0200 r rest → r.params = [] →
    ∃ p, exec .nvsInfo s = .next (s.answered (s.dev.taken r rest) r stOk p) ∧ p.length = 136 ∧
      p.take 4 = putLE 4 ((s.dev.taken r rest).nvsReg 0x030000).toNat) ∧
  (∀ (drift : List (Nat × Nat)) (r : Req) (rest : List Req) (s : State), s.dev.Takes 0x0201 r rest →
    checkParams r 12 (zb [1, 2, 3]) [(0, 1, 0, 6)] = none → rangeCheck (r.u 1 0) (r.u 4 4) (r.u 4 8) 16384 = none →
    replyFits r (8 + r.u 4 8 + (r.u 4 8 + 63) / 64) = true →
    let d := s.dev.taken r rest
    let ws := partWords (r.u 1 0) (r.u 4 4) (r.u 4 8)
    d.readDenied (r.u 1 0) = none → d.nvBusy = none → d.unfinishedIn ws = none →
    let x := ((d.setStore (d.store.upset drift)).suspendFor ws).readWords ws
    let y := x.1.wordsBytes x.2.1
    exec (.nvsRead drift) s = .next (s.answered y.1 r (if x.2.2 then stWarnEcc else stOk)
      (putLE 4 (r.u 4 4) ++ putLE 4 (r.u 4 8) ++ y.2 ++ countBytes (x.2.1.map NvWord.count)))) ∧
  (∀ (drift : List (Nat × Nat)) (r : Req) (rest : List Req) (s : State), s.dev.Takes 0x0206 r rest →
    checkParams r 12 (zb [1, 2, 3]) [(0, 1, 0, 6)] = none →
    rangeCheck (r.u 1 0) (r.u 4 4) (r.u 4 8) (partCount (r.u 1 0) * sectorBytes) = none → r.u 1 0 < 5 →
    let d := s.dev.taken r rest
    let ws := partWords (r.u 1 0) (r.u 4 4) (r.u 4 8)
    d.inRetired = false → d.nvBusy = none → d.unfinishedIn ws = none →
    let x := ((d.setStore (d.store.upset drift)).suspendFor ws).readWords ws
    let y := x.1.wordsBytes x.2.1
    exec (.nvsDigest drift) s = .next (s.answered y.1 r (if x.2.2 then stWarnEcc else stOk) (sha256 y.2))) ∧
  (∀ (r : Req) (rest : List Req) (s : State), s.dev.Takes 0x0202 r rest → 40 ≤ r.len → r.len ≤ 16392 → r.len % 32 = 8 →
    checkParams r r.len (zb [1, 2, 3]) [(0, 1, 0, 6)] = none → rangeCheck (r.u 1 0) (r.u 4 4) (r.params.drop 8).length 16384 = none →
    r.u 4 4 / sectorBytes = (r.u 4 4 + (r.params.drop 8).length - 1) / sectorBytes →
    let d := s.dev.taken r rest
    let l := partBase (r.u 1 0) + r.u 4 4 / sectorBytes
    let ws := wordsOfData (r.u 4 4 % sectorBytes / 32) (r.params.drop 8)
    d.writeDenied (r.u 1 0) = none → d.nvBusy = none → d.ticketsFull = false → d.nvHold = false →
    d.unfinishedIn (partWords (r.u 1 0) (r.u 4 4) (r.params.drop 8).length) = none →
    (let e := (d.openJob r (.program (r.u 1 0) (r.u 4 4) (r.params.drop 8).length)).dispatchOp (.program l (r.u 4 4) ws)
     d.store.firstUsed l ws = none →
      (d.planeCode (d.store.phys l % 16) < 3 → exec .nvsProgram s = .next (s.after (e.readSuspend (d.store.phys l % 16)))) ∧
      (3 ≤ d.planeCode (d.store.phys l % 16) → exec .nvsProgram s = .next (s.after e))) ∧
    (∀ w, d.store.firstUsed l ws = some w →
      exec .nvsProgram s = .next (s.answered ((d.readSuspend (d.store.phys l % 16)).progRefused (r.u 1 0) (partOffset l w)).1 r
        stProgNotBlank (errPayload 0 (partOffset l w))))) ∧
  (∀ (r : Req) (rest : List Req) (s : State), s.dev.Takes 0x0203 r rest →
    checkParams r 8 (zb [1]) [(0, 1, 0, 6), (2, 2, 1, 256)] = none → r.u 4 4 + r.u 2 2 ≤ partCount (r.u 1 0) →
    let d := s.dev.taken r rest
    let k : JobKind := .erases (.nvs (r.u 1 0) (r.u 4 4)) ((List.range (r.u 2 2)).map (fun i => partBase (r.u 1 0) + r.u 4 4 + i)) false false 0
    (d.protectedSlot (r.u 1 0) = true →
      exec .nvsErase s = .next (s.answered (d.fenceRefuse 5 (r.u 1 0) 0) r ansFence.1 ansFence.2)) ∧
    (∀ a, d.protectedSlot (r.u 1 0) = false → firstOf [d.writeDenied (r.u 1 0), d.nvBusy] = some a →
      exec .nvsErase s = .next (s.answered d r a.1 a.2)) ∧
    (d.protectedSlot (r.u 1 0) = false → d.writeDenied (r.u 1 0) = none → d.nvBusy = none →
      (d.ticketsFull = false → exec .nvsErase s = .next (s.after ((d.openJob r k).erasesStep k))) ∧
      (d.ticketsFull = true →
        exec .nvsErase s = .next (s.answered d r (ansBusy detTicketsFull).1 (ansBusy detTicketsFull).2)))) ∧
  (∀ (r : Req) (rest : List Req) (s : State), s.dev.Takes 0x0203 r rest →
    checkParams r 8 (zb [1]) [(0, 1, 0, 6), (2, 2, 1, 256)] = none → partCount (r.u 1 0) < r.u 4 4 + r.u 2 2 →
    exec .nvsErase s = .next (s.answered (s.dev.taken r rest) r (ansBad detRange 4).1 (ansBad detRange 4).2)) ∧
  (∀ (drift : List (Nat × Nat)) (r : Req) (rest : List Req) (s : State) (a : Answer),
    let d := s.dev.taken r rest
    let ws := partWords (r.u 1 0) (r.u 4 4) (r.u 4 8)
    let data := r.params.drop 8
    (s.dev.Takes 0x0201 r rest → checkParams r 12 (zb [1, 2, 3]) [(0, 1, 0, 6)] = none →
      firstOf [rangeCheck (r.u 1 0) (r.u 4 4) (r.u 4 8) 16384,
        (if replyFits r (8 + r.u 4 8 + (r.u 4 8 + 63) / 64) then none else some (ansBad detTransport)),
        d.readDenied (r.u 1 0), d.nvBusy, d.unfinishedIn ws] = some a →
      exec (.nvsRead drift) s = .next (s.answered d r a.1 a.2)) ∧
    (s.dev.Takes 0x0206 r rest → checkParams r 12 (zb [1, 2, 3]) [(0, 1, 0, 6)] = none →
      firstOf [rangeCheck (r.u 1 0) (r.u 4 4) (r.u 4 8) (partCount (r.u 1 0) * sectorBytes),
        (if 5 ≤ r.u 1 0 then some ansFence else none), (if d.inRetired then some ansLife else none), d.nvBusy,
        d.unfinishedIn ws] = some a →
      exec (.nvsDigest drift) s = .next (s.answered d r a.1 a.2)) ∧
    (s.dev.Takes 0x0202 r rest → r.len < 40 ∨ 16392 < r.len ∨ r.len % 32 ≠ 8 →
      exec .nvsProgram s = .next (s.answered d r (ansBad detLength).1 (ansBad detLength).2)) ∧
    (s.dev.Takes 0x0202 r rest → 40 ≤ r.len → r.len ≤ 16392 → r.len % 32 = 8 →
      firstOf [checkParams r r.len (zb [1, 2, 3]) [(0, 1, 0, 6)], rangeCheck (r.u 1 0) (r.u 4 4) data.length 16384,
        (if r.u 4 4 / sectorBytes = (r.u 4 4 + data.length - 1) / sectorBytes then none else some (ansBad detRange 4)),
        d.writeDenied (r.u 1 0), d.nvBusy, d.needTicket, (if d.nvHold then some (ansBusy 0) else none),
        d.unfinishedIn (partWords (r.u 1 0) (r.u 4 4) data.length)] = some a →
      exec .nvsProgram s = .next (s.answered d r a.1 a.2)) ∧
    (firstOf [checkParams r 8 (zb [1, 2, 3]) [(0, 1, 0, 6), (4, 4, 0, partCount (r.u 1 0) - 1)], d.nvBusy] = some a →
      (s.dev.Takes 0x0204 r rest → exec .nvsSuspend s = .next (s.answered d r a.1 a.2)) ∧
      (s.dev.Takes 0x0205 r rest → exec .nvsResume s = .next (s.answered d r a.1 a.2))) ∧
    (s.dev.Takes 0x0207 r rest → r.params = [] → d.nvBusy = some a →
      exec .nvsPatrol s = .next (s.answered d r a.1 a.2))) ∧
  (∀ (r : Req) (rest : List Req) (s : State),
    checkParams r 8 (zb [1, 2, 3]) [(0, 1, 0, 6), (4, 4, 0, partCount (r.u 1 0) - 1)] = none →
    let d := s.dev.taken r rest
    let j := d.store.phys (partBase (r.u 1 0) + r.u 4 4) % 16
    d.nvBusy = none →
    (s.dev.Takes 0x0204 r rest →
      (d.planeCode j = 2 → exec .nvsSuspend s =
        .next (s.answered (d.setNvPlane j { d.nvPlane j with command := true }) r stOk (putLE 1 j ++ putLE 1 3))) ∧
      (3 ≤ d.planeCode j → exec .nvsSuspend s = .next (s.answered d r stOk (putLE 1 j ++ putLE 1 (d.planeCode j)))) ∧
      (d.planeCode j < 2 → exec .nvsSuspend s = .next (s.answered d r (ansBad detState).1 (ansBad detState).2))) ∧
    (s.dev.Takes 0x0205 r rest →
      let e := d.setNvPlane j { d.nvPlane j with command := false }
      exec .nvsResume s = .next (s.answered e r stOk (putLE 1 j ++ putLE 1 (e.planeCode j))))) ∧
  (∀ (r : Req) (rest : List Req) (s : State), s.dev.Takes 0x0207 r rest → r.params = [] →
    let d := s.dev.taken r rest
    d.nvBusy = none →
    exec .nvsPatrol s = .next (s.answered (d.setStore { d.store with extraPass := some 0 }) r stOk [])) ∧
  (∀ (v : Word) (s : State), s.dev.Quiet → v.getLsbD 0 = true →
    ∃ t, exec (.nvsClear 0 v) s = .next t ∧ t.dev.stat nvsCorrBits = Stat.zero ∧ t.dev.stat nvsErases = Stat.zero ∧
      (∀ o, o ≠ nvsCorrBits → o ≠ nvsErases → t.dev.stat o = s.dev.stat o) ∧ t.dev.regs = s.dev.regs ∧ t.dev.store = s.dev.store) ∧
  (∀ (v : Word) (s : State), v.getLsbD 0 = false → exec (.nvsClear 0 v) s = .next (s.after s.dev))

/-- Programs and erases complete, sources clear, gap moves, refresh, patrol, recovery and erase tokens go on as chapter 07 says (R374, R375, R378, R379, R383, R384, R392, R394, R395, R563). -/
def Obligations.StoreControllerRunsItsOperations : Prop :=
  (∀ (j : Fin 16) (l off : Nat) (ws : List (Nat × BitVec 256)) (s : State), s.dev.nvAwake = true →
    (s.dev.nvPlane j).op = some (.program l off ws) → (s.dev.nvPlane j).inner = none → (s.dev.nvPlane j).queue = [] →
    (s.dev.nvPlane j).innerQueue = [] → (ws.map Prod.fst).Nodup →
    (∀ x ∈ ws, (s.dev.store.word (s.dev.store.phys l) x.1).errs = 0) →
    ∃ d, exec (.nvsProgramDone j) s = .next (s.after d) ∧ (d.nvPlane j).op = none ∧
      ∀ x ∈ ws, d.store.word (s.dev.store.phys l) x.1 = { data := some x.2, errs := 0 }) ∧
  (∀ (j : Fin 16) (v : Bool) (failing : List Nat) (l : Option Nat) (ph cause tries : Nat) (s : State), s.dev.nvAwake = true → (s.dev.nvPlane j).code = 2 →
    (s.dev.nvPlane j).op = some (.erase l ph cause tries) → ph < 3072 →
    ∃ d, exec (.nvsEraseDone j v failing) s = .next (s.after d) ∧
      (∀ w, w < sectorWords → d.store.word ph w = NvWord.blank) ∧
      (v = false → tries < 3 → (d.nvPlane j).op = some (.erase l ph cause (tries + 1))) ∧
      (v = true ∨ 3 ≤ tries → (s.dev.nvPlane j).queue = [] → s.dev.hive.jobs = [] → (d.nvPlane j).op = none ∧
        (l = none → d.store.move = .none ∧ d.rbit nvsStatus 29 = false) ∧
        (∀ k, l = some k → d.store.tally = (if s.dev.store.tally = 31 then 0 else s.dev.store.tally + 1) ∧
          (v = true → k ∉ d.store.suspect)))) ∧
  (∀ (j : Fin 16) (v : Bool) (failing : List Nat) (s : State),
    s.dev.nvAwake = false ∨ ((s.dev.nvPlane j).op = none ∧ (s.dev.nvPlane j).inner = none) →
    exec (.nvsEraseDone j v failing) s = .next (s.after s.dev) ∧ exec (.nvsProgramDone j) s = .next (s.after s.dev)) ∧
  (∀ (j : Fin 16) (v : Bool) (failing : List Nat) (s : State), (s.dev.nvPlane j).code ≠ 2 → exec (.nvsEraseDone j v failing) s = .next (s.after s.dev)) ∧
  (∀ (drift : List (Nat × Nat)) (extra : Bool) (failing : List Nat) (s : State),
    (s.dev.nvAwake = false → exec (.gapMoveCopyDone drift) s = .next (s.after s.dev) ∧
      exec (.patrolSector extra drift) s = .next (s.after s.dev) ∧ exec (.nvsRecovery failing) s = .next (s.after s.dev)) ∧
    (s.dev.nvReady = false → exec (.gapMoveCopyDone drift) s = .next (s.after s.dev) ∧
      exec (.patrolSector extra drift) s = .next (s.after s.dev)) ∧
    (s.dev.nvHold = true → exec (.gapMoveCopyDone drift) s = .next (s.after s.dev) ∧
      exec (.nvsRecovery failing) s = .next (s.after s.dev)) ∧
    (s.dev.store.move = .none ∨ ((s.dev.nvPlane (s.dev.store.physAt s.dev.store.gap % 16)).code ≠ 0 ∧
      (s.dev.nvPlane (s.dev.store.physAt s.dev.store.gap % 16)).code ≠ 3) →
      exec (.gapMoveCopyDone drift) s = .next (s.after s.dev)) ∧
    (s.dev.rbit nvsStatus 30 = false → exec (.nvsRecovery failing) s = .next (s.after s.dev))) ∧
  (∀ (j : Fin 16) (s : State), s.dev.Quiet →
    ∃ t u, exec (.eraseReadResume j) s = .next t ∧ exec (.suspendCommandTimeout j) s = .next u ∧
      t.dev.nvPlane j = { s.dev.nvPlane j with read := false } ∧ u.dev.nvPlane j = { s.dev.nvPlane j with command := false } ∧
      (∀ i : Fin 16, i ≠ j → t.dev.nvPlane i = s.dev.nvPlane i ∧ u.dev.nvPlane i = s.dev.nvPlane i) ∧
      t.dev.regs = s.dev.regs ∧ u.dev.regs = s.dev.regs) ∧
  (∀ s : State, s.dev.moveReady = true → 0 < s.dev.store.movesDue →
    ∃ d, exec .gapMoveStart s = .next (s.after d) ∧ d.store.move = .copying false ∧ d.store.movesDue = s.dev.store.movesDue - 1 ∧
      d.rbit nvsStatus 29 = true) ∧
  (∀ s : State, s.dev.moveReady = true → s.dev.store.refresh ≠ [] →
    ∃ d, exec .refreshMove s = .next (s.after d) ∧ d.store.move = .copying true ∧ d.rbit nvsStatus 29 = true) ∧
  (∀ s : State, s.dev.store.movesDue = 0 → exec .gapMoveStart s = .next (s.after s.dev)) ∧
  (∀ s : State, s.dev.store.refresh = [] → exec .refreshMove s = .next (s.after s.dev)) ∧
  (∀ s : State, s.dev.moveReady = false → exec .gapMoveStart s = .next (s.after s.dev) ∧ exec .refreshMove s = .next (s.after s.dev)) ∧
  (∀ (drift : List (Nat × Nat)) (extra : Bool) (s : State), s.dev.store.move = .copying extra → s.dev.nvAwake = true →
    s.dev.nvHold = false → s.dev.nvReady = true →
    ((s.dev.nvPlane (s.dev.store.physAt s.dev.store.gap % 16)).code = 0 ∨
      (s.dev.nvPlane (s.dev.store.physAt s.dev.store.gap % 16)).code = 3) →
    ∃ d, exec (.gapMoveCopyDone drift) s = .next (s.after d) ∧ d.store.move = .erasing extra ∧
      d.store.gap = s.dev.store.moveSource ∧
      d.store.start = (if s.dev.store.gap = 0 then (s.dev.store.start + 1) % 3040 else s.dev.store.start)) ∧
  (∀ (drift : List (Nat × Nat)) (s : State), s.dev.nvAwake = true → s.dev.nvReady = true →
    ∃ d, exec (.patrolSector false drift) s = .next (s.after d) ∧
      d.store.patrolPos = (if s.dev.store.patrolPos + 1 = 3072 then 0 else s.dev.store.patrolPos + 1) ∧
      d.store.extraPass = s.dev.store.extraPass) ∧
  (∀ (drift : List (Nat × Nat)) (ph : Nat) (s : State), s.dev.nvAwake = true → s.dev.nvReady = true → s.dev.store.extraPass = some ph →
    ∃ d, exec (.patrolSector true drift) s = .next (s.after d) ∧ d.store.extraPass = (if ph + 1 = 3072 then none else some (ph + 1)) ∧
      d.store.patrolPos = s.dev.store.patrolPos) ∧
  (∀ (s : State), s.dev.store.extraPass = none → exec (.patrolSector true []) s = .next (s.after s.dev)) ∧
  (∀ (failing : List Nat) (s : State), s.dev.rbit nvsStatus 30 = true → s.dev.nvAwake = true → s.dev.nvHold = false →
    ∃ d, exec (.nvsRecovery failing) s = .next (s.after d) ∧ d.rbit nvsStatus 30 = false ∧ d.rbit nvsStatus 29 = false ∧
      d.rbit nvsStatus 31 = !s.dev.keys.wipePending) ∧
  (∀ s : State, s.dev.Quiet → s.dev.hive.jobs = [] →
    ∃ t, exec .eraseToken s = .next t ∧ t.dev.fld fenceErase 0 7 = min 64 (s.dev.fld fenceErase 0 7 + 1) ∧
      (∀ o, o ≠ fenceErase → t.dev.reg o = s.dev.reg o) ∧ t.dev.store = s.dev.store) ∧
  (∀ s : State, exec .eraseToken s = .next (s.after (s.dev.setFld fenceErase 0 7 (min 64 (s.dev.fld fenceErase 0 7 + 1))).erasesRetry))

/-- The user-data engine answers a read with the bytes asked for, an echo at once, and anything else with its reason (R50, R141, R142, R143, R144). -/
def Obligations.UserDataIsServedAtEndpoint48 : Prop :=
  (∀ (f : BitVec 12) (drift : List (Nat × Nat)) (m rest : List Cell) (s : State), takeMessage f (s.dev.rxCells 48) = some (m, rest) →
    m.any (fun c => c.err) = false →
    let bs := messageBytes m
    let d := s.dev.setRx 48 rest
    (getLE 1 bs 0 = 3 → exec (.userDataRead f drift) s = .next (s.after d)) ∧
    (getLE 1 bs 0 = 4 → getLE 2 bs 2 ≠ 0 → exec (.userDataRead f drift) s = .next (s.after (d.answerFail 48 0 0 bs 1 stBadParam))) ∧
    (getLE 1 bs 0 = 4 → getLE 2 bs 2 = 0 → exec (.userDataRead f drift) s = .next (s.after (d.answer 48 0 0 bs 2 0 stOk []))) ∧
    (getLE 1 bs 0 = 2 → userReason bs ≠ 0 →
      exec (.userDataRead f drift) s = .next (s.after (d.answerFail 48 0 0 bs (userReason bs) stBadParam))) ∧
    (let ws := partWords 4 (getLE 5 bs 8 - userBase) (getLE 2 bs 2)
     let x := ((d.setStore (d.store.upset drift)).suspendFor ws).readWords ws
     getLE 1 bs 0 = 2 → userReason bs = 0 → s.dev.nvReady = true → s.dev.nvHalt = false →
     ws.any (fun w => s.dev.unfinished w.1) = false →
     exec (.userDataRead f drift) s = .next (s.after
       (if x.2.1.any (fun x => decide (x.count = 0xF)) then x.1.answerFail 48 0 0 bs 7 stBadParam
        else x.1.answer 48 0 0 bs 0 0 stOk (((x.2.1.flatMap NvWord.bytes).drop ((getLE 5 bs 8 - userBase) % 32)).take (getLE 2 bs 2)))))) ∧
  (∀ (f : BitVec 12) (drift : List (Nat × Nat)) (m rest : List Cell) (s : State), takeMessage f (s.dev.rxCells 48) = some (m, rest) →
    m.any (fun c => c.err) = false → getLE 1 (messageBytes m) 0 = 1 → userReason (messageBytes m) ≠ 0 ∧
      exec (.userDataRead f drift) s = .next (s.after ((s.dev.setRx 48 rest).answerFail 48 0 0 (messageBytes m)
        (userReason (messageBytes m)) stBadParam))) ∧
  (∀ (f : BitVec 12) (drift : List (Nat × Nat)) (m rest : List Cell) (s : State), takeMessage f (s.dev.rxCells 48) = some (m, rest) →
    getLE 1 (messageBytes m) 0 = 2 → userReason (messageBytes m) = 0 →
    (s.dev.nvReady = false ∨ s.dev.nvHalt = true ∨ (partWords 4 (getLE 5 (messageBytes m) 8 - userBase)
      (getLE 2 (messageBytes m) 2)).any (fun w => s.dev.unfinished w.1) = true) →
    exec (.userDataRead f drift) s = .next (s.after s.dev)) ∧
  (∀ (f : BitVec 12) (drift : List (Nat × Nat)) (s : State), takeMessage f (s.dev.rxCells 48) = none →
    exec (.userDataRead f drift) s = .next (s.after s.dev)) ∧
  (∀ (f : BitVec 12) (drift : List (Nat × Nat)) (m rest : List Cell) (s : State), takeMessage f (s.dev.rxCells 48) = some (m, rest) →
    (m.any (fun c => c.err) = true ∨ getLE 1 (messageBytes m) 0 < 1 ∨ 4 < getLE 1 (messageBytes m) 0) →
    exec (.userDataRead f drift) s = .next (s.after s.dev))

/-- CFG_STREAM_OPEN, DATA, CLOSE and ABORT, the idle timeout and the test port run a session, or are refused, as chapter 06 says (R334, R335, R336, R337, R338, R341, R343, R536). -/
def Obligations.StreamSessionsLoadAndStage : Prop :=
  (∀ (r : Req) (rest : List Req) (s : State), s.dev.Takes 0x0301 r rest → checkParams r 8 (zb [1, 2, 3]) [] = none →
    let d := s.dev.taken r rest
    (targetOf (r.u 1 0) = none → exec .cfgStreamOpen s = .next (s.answered d r stBadParam (errPayload detRange 0))) ∧
    (∀ t, targetOf (r.u 1 0) = some t →
      let shut := firstOf [(if r.u 4 4 = 0 ∨ targetSize t < r.u 4 4 then some (ansBad detRange 4) else none), d.cfgDenied,
        (if t = .slot 2 && !d.inDeployed && !d.served 2 then some ansLife else none)]
      let later := firstOf [busyNow d.loading, (if isDirect t then none else d.nvBusy),
        (if !isDirect t && d.ticketsFull then some (ansBusy detTicketsFull) else none)]
      let open_ : Dev := { d with cfg := { d.cfg with session := some { target := t, length := r.u 4 4, bytes := [], load := .fresh } } }
      (∀ a, shut = some a → exec .cfgStreamOpen s = .next (s.answered d r a.1 a.2)) ∧
      (shut = none → isDirect t = false → d.protectedSlot (targetPart t) = true →
        exec .cfgStreamOpen s = .next (s.answered (d.fenceRefuse 5 (targetPart t) 0) r ansFence.1 ansFence.2)) ∧
      (∀ a, shut = none → isDirect t = true ∨ d.protectedSlot (targetPart t) = false → later = some a →
        exec .cfgStreamOpen s = .next (s.answered d r a.1 a.2)) ∧
      (shut = none → later = none → isDirect t = true →
        exec .cfgStreamOpen s = .next (s.answered (open_.cfgBegin opDirect 0xF) r stOk (putLE 4 (r.u 4 4)))) ∧
      (shut = none → later = none → isDirect t = false → d.protectedSlot (targetPart t) = false →
        exec .cfgStreamOpen s = .next (s.after (((open_.cfgBegin opStaging 0xF).setDir (targetDir t) 0 0).openErases r
          (.stream t (r.u 4 4)) ((List.range ((r.u 4 4 + sectorBytes - 1) / sectorBytes)).map
            (fun i => partBase (targetPart t) + targetOffset t / sectorBytes + i)) true).1)))) ∧
  (∀ (r : Req) (rest : List Req) (s : State), s.dev.Takes 0x0302 r rest →
    let d := s.dev.taken r rest
    (r.len < 5 ∨ 16388 < r.len → exec .cfgStreamData s = .next (s.answered d r stBadParam (errPayload detLength 0))) ∧
    (5 ≤ r.len → r.len ≤ 16388 →
      (∀ a, d.cfgDenied = some a → exec .cfgStreamData s = .next (s.answered d r a.1 a.2)) ∧
      (d.cfgDenied = none → d.hiveSession = none →
        exec .cfgStreamData s = .next (s.answered d r stBadParam (errPayload detNoSession 0))) ∧
      (∀ x, d.cfgDenied = none → d.hiveSession = some x →
        let y : Session := { x with bytes := x.bytes ++ r.params.drop 4 }
        let shut := firstOf [busyNow d.sessionErasing, (if r.u 4 0 ≠ x.bytes.length then some (ansBad detRange 0) else none),
          (if x.length < x.bytes.length + (r.params.drop 4).length then some (ansBad detRange 4) else none),
          busyNow (!isDirect x.target && d.nvHold),
          (if isDirect x.target then none else
            d.unfinishedIn (partWords (targetPart x.target) (targetOffset x.target + x.bytes.length) (r.params.drop 4).length))]
        (∀ a, shut = some a → exec .cfgStreamData s = .next (s.answered d r a.1 a.2)) ∧
        (shut = none → isDirect x.target = false →
          let p := d.stageNew y x.bytes.length
          (d.usedIn p.2 = none → exec .cfgStreamData s = .next (s.answered
            (({ p.1 with cfg := { p.1.cfg with session := some y } } : Dev).forEach p.2 Dev.submitOp) r stOk (putLE 4 y.bytes.length))) ∧
          (∀ l w, d.usedIn p.2 = some (l, w) → exec .cfgStreamData s = .next (s.answered (d.usedRefused l w).1 r
            stProgNotBlank (errPayload 0 (partOffset l w))))) ∧
        (shut = none → isDirect x.target = true →
          (∀ e, d.directRun y false = (e, .goes) →
            exec .cfgStreamData s = .next (s.answered e r stOk (putLE 4 y.bytes.length))) ∧
          (∀ e, d.directRun y false = (e, .busy) →
            exec .cfgStreamData s = .next (s.answered d r (ansBusy detInProgress).1 (ansBusy detInProgress).2)) ∧
          (∀ e st, d.directRun y false = (e, .refused st) →
            exec .cfgStreamData s = .next (s.answered e r st (putLE 4 (e.reg cfgFailAddr).toNat))))))) ∧
  (∀ s : State, s.dev.adm.loadWaits ≠ none ∨ s.dev.stagePending = true → exec .cfgStreamClose s = .next (s.after s.dev)) ∧
  (∀ (r : Req) (rest : List Req) (s : State), r.params = [] →
    let d := s.dev.taken r rest
    (∀ a, d.cfgDenied = some a →
      (s.dev.adm.loadWaits = none → s.dev.stagePending = false → s.dev.Takes 0x0303 r rest → exec .cfgStreamClose s = .next (s.answered d r a.1 a.2)) ∧
      (s.dev.Takes 0x0304 r rest → exec .cfgStreamAbort s = .next (s.answered d r a.1 a.2))) ∧
    (d.cfgDenied = none → d.hiveSession = none →
      (s.dev.adm.loadWaits = none → s.dev.stagePending = false → s.dev.Takes 0x0303 r rest →
        exec .cfgStreamClose s = .next (s.answered d r stBadParam (errPayload detNoSession 0))) ∧
      (s.dev.Takes 0x0304 r rest → exec .cfgStreamAbort s = .next (s.answered d r stBadParam (errPayload detNoSession 0)))) ∧
    (∀ x, d.cfgDenied = none → d.hiveSession = some x → d.sessionErasing = true →
      (s.dev.adm.loadWaits = none → s.dev.stagePending = false → s.dev.Takes 0x0303 r rest →
        exec .cfgStreamClose s = .next (s.answered d r (ansBusy detInProgress).1 (ansBusy detInProgress).2)) ∧
      (s.dev.Takes 0x0304 r rest → exec .cfgStreamAbort s = .next (s.answered d r (ansBusy detInProgress).1 (ansBusy detInProgress).2))) ∧
    (∀ x, d.cfgDenied = none → d.hiveSession = some x → d.sessionErasing = false →
      (s.dev.Takes 0x0304 r rest → exec .cfgStreamAbort s = .next (s.answered d.truncateSession r stOk [])) ∧
      (s.dev.adm.loadWaits = none → s.dev.stagePending = false → s.dev.Takes 0x0303 r rest →
        (x.bytes.length < x.length ∨ (isDirect x.target = true ∧ x.load.finished = false) → exec .cfgStreamClose s =
          .next (s.answered d.truncateSession r stCfgTruncated (putLE 4 (d.truncateSession.reg cfgFailAddr).toNat))) ∧
        (x.length ≤ x.bytes.length → isDirect x.target = true → x.load.finished = true → exec .cfgStreamClose s =
          .next (s.answered (d.dropSession.cfgEnd stOk) r stOk (putLE 4 x.length ++ slice x.bytes (x.length - 96) 32))) ∧
        (∀ a, x.length ≤ x.bytes.length → isDirect x.target = false →
          d.unfinishedIn (partWords (targetPart x.target) (targetOffset x.target) x.length) = some a →
          exec .cfgStreamClose s = .next (s.answered d r a.1 a.2)) ∧
        (x.length ≤ x.bytes.length → isDirect x.target = false →
          d.unfinishedIn (partWords (targetPart x.target) (targetOffset x.target) x.length) = none →
          exec .cfgStreamClose s = .next (s.answered (d.stageClose x).1 r (d.stageClose x).2.1 (d.stageClose x).2.2))))) ∧
  (∀ s : State, (s.dev.sessionErasing = false → exec .streamIdleTimeout s = .next (s.after s.dev.truncateSession)) ∧
    (s.dev.sessionErasing = true → exec .streamIdleTimeout s = .next (s.after s.dev))) ∧
  (∀ (v : Word) (s : State),
    let d : Dev := { s.dev with jtag := { s.dev.jtag with out := s.dev.reg cfgStatus } }
    (s.dev.jtag.ir ≠ irCfgLoad ∨ s.dev.power.por = true ∨ s.dev.power.resetN = true →
      exec (.cfgLoadUpdate v) s = .next (s.after s.dev)) ∧
    (s.dev.jtag.ir = irCfgLoad → s.dev.power.por = false → s.dev.power.resetN = false →
      (s.dev.inRetired = true → exec (.cfgLoadUpdate v) s = .next (s.after d)) ∧
      (∀ x, s.dev.inRetired = false → s.dev.cfg.session = some x → (x.target ≠ .direct true ∨ x.load.finished = true) →
        exec (.cfgLoadUpdate v) s = .next (s.after (d.setFld cfgStatus 0 16 stBusy))) ∧
      (s.dev.inRetired = false → s.dev.cfg.session = none → s.dev.adm.loadWaits = none →
        ∃ e, exec (.cfgLoadUpdate v) s = .next (s.after e) ∧ e.cfg.session =
          some { target := .direct true, length := 0, bytes := putLE 4 v.toNat, load := .fresh }) ∧
      (∀ x y, s.dev.inRetired = false → s.dev.cfg.session = some x → x.target = .direct true → x.load.finished = false →
        y = { x with bytes := x.bytes ++ putLE 4 v.toNat } →
        (∀ e z, d.directRun y true = (e, .goes) → e.cfg.session = some z → z.load.finished = false →
          exec (.cfgLoadUpdate v) s = .next (s.after e)) ∧
        (∀ e z, d.directRun y true = (e, .goes) → e.cfg.session = some z → z.load.finished = true → e.adm.loadWaits = none →
          exec (.cfgLoadUpdate v) s = .next (s.after (e.dropSession.cfgEnd stOk))) ∧
        (∀ e, d.directRun y true = (e, .busy) → exec (.cfgLoadUpdate v) s = .next (s.after (e.dropSession.cfgEnd stBusy))) ∧
        (∀ e st, d.directRun y true = (e, .refused st) → exec (.cfgLoadUpdate v) s = .next (s.after e))))) ∧
  (∀ d : Dev, d.truncateSession.cfg.session = none) ∧
  (∀ (d : Dev) (x : Session), d.cfg.session = some x → x.load.finished = false →
    d.truncateSession.fld cfgStatus 0 16 = stCfgTruncated ∧ d.truncateSession.rbit cfgStatus 31 = false)

/-- CFG_INFO, COMMIT, region load, freeze, thaw, library erase, readback, the chain and the scrubber complete or are refused as chapter 06 says (R305, R326, R339, R340, R348, R349, R350, R353, R360, R535, R536). -/
def Obligations.LoaderCommandsAndScrubbing : Prop :=
  (∀ (r : Req) (rest : List Req) (s : State), s.dev.Takes 0x0300 r rest → r.params = [] →
    let d := s.dev.taken r rest
    (d.inRetired = false →
      ∃ p, exec .cfgInfo s = .next (s.answered d r stOk p) ∧ p.length = 128 ∧ p.take 4 = putLE 4 (d.reg cfgBoot).toNat) ∧
    (d.inRetired = true → exec .cfgInfo s = .next (s.answered d r ansLife.1 ansLife.2))) ∧
  (∀ (r : Req) (rest : List Req) (s : State), s.dev.Takes 0x0305 r rest →
    checkParams r 4 [(1, 0xFE), (2, 0xFF), (3, 0xFF)] [(0, 1, 0, 1)] = none →
    let d := s.dev.taken r rest
    let shut := firstOf [d.cfgDenied, (if d.dirValid (r.u 1 0) then none else some (ansBad detState)), d.nvBusy]
    (∀ a, shut = some a → exec .cfgCommit s = .next (s.answered d r a.1 a.2)) ∧
    (shut = none → ∃ e, exec .cfgCommit s = .next (s.answered e r stOk []) ∧ e.store.active = some (r.u 1 0) ∧
      e.hive.due = (if r.u 1 1 = 1 then d.hive.due ++ [.commit] else d.hive.due))) ∧
  (∀ (r : Req) (rest : List Req) (s : State), s.dev.Takes 0x0306 r rest → checkParams r 1 [] [(0, 1, 0, 15)] = none →
    let d := s.dev.taken r rest
    let shut := firstOf [d.cfgDenied, (if d.rbit pwrStatus 31 then some (ansBad detState) else none), busyNow d.loading,
      (if d.dirValid (16 + r.u 1 0) then none else some (ansBad detState)),
      busyNow (d.testing [bits (d.dirOf (16 + r.u 1 0)).1 16 4]), d.nvBusy, d.unfinishedIn (d.entryWords (r.u 1 0))]
    (∀ a, shut = some a → exec .regionLoad s = .next (s.answered d r a.1 a.2)) ∧
    (shut = none → exec .regionLoad s =
      .next (s.answered (d.regionReload (r.u 1 0)).1 r (d.regionReload (r.u 1 0)).2.1 (d.regionReload (r.u 1 0)).2.2))) ∧
  (∀ (d : Dev) (e : Nat),
    let n := bits (d.dirOf (16 + e)).1 16 4
    let head := ((d.cfgBegin opReload n).loadBegins [n]).loaderRead 3 (targetOffset (.lib e)) 0x800
    let tail := head.1.loaderRead 3 (targetOffset (.lib e) + imgLen head.2.1 - 96) 32
    (head.2.2 ++ tail.2.2 ≠ [] ∨ getLE 8 (sha256 head.2.1) 0 ≠ (d.dirOf (16 + e)).2.toNat ∨ sha256 head.2.1 ≠ tail.2.1 →
      (d.regionReload e).1 = tail.1.reloadRefused n (d.imageValid n) ∧ (d.regionReload e).2.1 = stCfgAuth) ∧
    (d.regionReload e).1.rbit cfgStatus 31 = false) ∧
  (∀ (d : Dev) (n : Nat), n < 12 → (d.setReason n rsnCommand).rbit (rgnStatus n) rsnCommand = true ∧
    (d.thawCommand n).rbit (rgnStatus n) rsnCommand = false ∧ (d.thawCommand n).rbit (rgnStatus n) rsnPolicy = false) ∧
  (∀ (r : Req) (rest : List Req) (s : State), checkParams r 1 [] [(0, 1, 0, 11)] = none →
    let d := s.dev.taken r rest
    (s.dev.Takes 0x0307 r rest → exec .regionFreeze s = .next (s.answered (d.setReason (r.u 1 0) rsnCommand) r stOk
      (putLE 4 ((d.setReason (r.u 1 0) rsnCommand).reg (rgnStatus (r.u 1 0))).toNat))) ∧
    (s.dev.Takes 0x0308 r rest →
      (d.rbit pwrStatus 31 = false → exec .regionThaw s = .next (s.answered (d.thawCommand (r.u 1 0)) r stOk
        (putLE 4 ((d.thawCommand (r.u 1 0)).reg (rgnStatus (r.u 1 0))).toNat))) ∧
      (d.rbit pwrStatus 31 = true → exec .regionThaw s = .next (s.answered d r stBadParam (errPayload detState 0))))) ∧
  (∀ (r : Req) (rest : List Req) (s : State), s.dev.Takes 0x0309 r rest → checkParams r 1 [] [(0, 1, 0, 15)] = none →
    let d := s.dev.taken r rest
    let mine := match d.cfg.session with | some x => decide (x.target = .lib (r.u 1 0)) | none => false
    let shut := firstOf [d.cfgDenied, busyNow mine, d.nvBusy, d.needTicket]
    let e := d.setDir (16 + r.u 1 0) 0 0
    let k : JobKind := .erases (.lib (r.u 1 0)) ((List.range 48).map (fun i => partBase 3 + 48 * r.u 1 0 + i)) false false 0
    (∀ a, shut = some a → exec .cfgLibErase s = .next (s.answered d r a.1 a.2)) ∧
    (shut = none → exec .cfgLibErase s = .next (s.after ((e.openJob r k).erasesStep k)))) ∧
  (∀ (r : Req) (rest : List Req) (s : State), s.dev.Takes 0x030A r rest → checkParams r 6 (zb [3]) [(4, 2, 1, 64)] = none →
    let d := s.dev.taken r rest
    let as_ := frameRun (r.u 2 4) (r.u 3 0)
    let shut := firstOf [(if as_.all (fun a => isLogicFrame a || isChipFrame a) then none else some (ansBad detRange 0)),
      (if replyFits r (260 * as_.length) then none else some (ansBad detTransport)), (if d.served 0 then none else some ansLife)]
    (∀ a, shut = some a → exec .cfgReadback s = .next (s.answered d r a.1 a.2)) ∧
    (shut = none →
      (d.cfg.session = none → exec .cfgReadback s = .next (s.answered ((d.cfgBegin 5 (frameRegion (r.u 3 0))).cfgEnd stOk) r stOk
        (as_.flatMap (fun a => putLE 4 a ++ d.frameHeld a)))) ∧
      (d.cfg.session ≠ none → exec .cfgReadback s = .next (s.answered d r stOk
        (as_.flatMap (fun a => putLE 4 a ++ d.frameHeld a)))))) ∧
  (∀ (sfdp : List Byte) (s : State),
    let opened : Dev := { s.dev with cfg := { s.dev.cfg with chainOpen := true, chainAddr := (sfdpTable sfdp).map flashAddr } }
    (s.dev.fld cfgBoot 16 3 = 2 → s.dev.power.por = false → s.dev.power.resetN = false →
      (sfdpTable sfdp ≠ none → exec (.chainReadStart sfdp) s = .next (s.after opened)) ∧
      (sfdpTable sfdp = none → exec (.chainReadStart sfdp) s = .next (s.after opened.chainEnds))) ∧
    (s.dev.fld cfgBoot 16 3 ≠ 2 ∨ s.dev.power.por = true ∨ s.dev.power.resetN = true →
      exec (.chainReadStart sfdp) s = .next (s.after s.dev))) ∧
  (∀ (bs : List Byte) (a b : BitVec 16) (s : State),
    (s.dev.cfg.chainOpen = false ∨ s.dev.cfg.chainEnded = true ∨ s.dev.power.por = true ∨ s.dev.power.resetN = true →
      exec (.chainSegment bs a b) s = .next (s.after s.dev)) ∧
    (s.dev.cfg.chainOpen = true → s.dev.cfg.chainEnded = false → s.dev.power.por = false → s.dev.power.resetN = false →
      let data := (bs.drop 16).take (segLen bs)
      let short := decide (data.length < segLen bs)
      let last (e : Dev) : Dev := if short || segLast bs then e.chainEnds else e
      let c := s.dev.chainClock bs
      (bs.length < 16 → exec (.chainSegment bs a b) s = .next (s.after s.dev.chainEnds)) ∧
      (16 ≤ bs.length → segOk bs = false → exec (.chainSegment bs a b) s =
        .next (s.after (if segPos bs ≤ 7 then s.dev.chainState (segPos bs) 3 else s.dev).chainEnds)) ∧
      (16 ≤ bs.length → segOk bs = true →
        (1 ≤ segPos bs → exec (.chainSegment bs a b) s = .next (s.after (last (Dev.chainState
          { c with cfg := { c.cfg with chainOut := forwarded bs data } } (segPos bs) (if short then 2 else 1))))) ∧
        (segPos bs = 0 → c.cfg.chainWanted = true → exec (.chainSegment bs a b) s =
          .next (s.after (last (c.chainOwn data (segLen bs) a b)))) ∧
        (segPos bs = 0 → c.cfg.chainWanted = false → exec (.chainSegment bs a b) s =
          .next (s.after (last (if c.fld cfgBoot 28 4 ≠ 0 ∧ c.fld cfgBoot 28 4 ≠ sourceChain then c.chainState 0 4 else c))))))) ∧
  (∀ d : Dev, d.cfg.chainWanted = false → d.chainEnds = { d with cfg := { d.cfg with chainEnded := true, chainWanted := false } }) ∧
  (∀ (n : Fin 12) (flips : List Nat) (shift : Bool) (s : State), s.dev.imageValid n = true →
    let x := s.dev.scrubOne n flips shift
    let d := x.1.cond (decide (mget (fun _ => 0) s.dev.cfg.scrub n = 6399)) (fun d => d.seqUp (rgnScrubPass n))
    exec (.scrubFrame n flips shift) s = .next (s.after (if x.2.1 = 0 then d else if x.2.1 = 1 then d.count (rgnScrubCorr n)
      else ((d.count (rgnScrubUncorr n)).setRbit (rgnFault n) 0 true).escalate clsScrub srcRegion (Path.rgn n) (putLE 4 x.2.2)))) ∧
  (∀ (n : Fin 12) (flips : List Nat) (shift : Bool) (s : State), s.dev.imageValid n = false →
    exec (.scrubFrame n flips shift) s = .next (s.after s.dev)) ∧
  (∀ (n : Fin 12) (flips : List Nat) (shift : Bool) (d : Dev),
    let i := mget (fun _ => 0) d.cfg.scrub n
    let x := d.scrubOne n flips shift
    mget (fun _ => 0) x.1.cfg.scrub n = (if i = 6399 then 0 else i + 1) ∧ x.2.2 = scrubAddr n i ∧
    (x.2.1 = 1 → ∀ b ∈ x.1.frameUpsets x.2.2, b ∈ Config.maskedBits x.2.2 (d.frame x.2.2)) ∧
    (2 ≤ x.2.1 → x.1.frameUpsets x.2.2 = mergeFlips (d.frameUpsets x.2.2) flips) ∧
    (shift = true → Config.maskedBits (scrubAddr n i) (d.frame (scrubAddr n i)) ≠ [] → x.2.1 = 0)) ∧
  (∀ (flips : List Nat) (s : State),
    (s.dev.cfg.chip = [] → exec (.scrubChipFrame flips) s = .next (s.after s.dev)) ∧
    (s.dev.cfg.chip ≠ [] →
      let x := s.dev.scrubOne 15 flips false
      exec (.scrubChipFrame flips) s = .next (s.after (if x.2.1 < 2 then x.1 else x.1.escalate clsScrub srcLoader Path.chip (putLE 4 x.2.2)))))

/-- FLOW_ADMIT, TEARDOWN, QUERY, REPACK and PAIR_SWITCH, drains, suspension and the selector act as chapter 04 says (R200, R201, R210, R211, R212, R215, R218, R219, R228, R239, R537). -/
def Obligations.AdmissionEngineServesItsRequests : Prop :=
  (∀ s : State, s.dev.requestWaits = true ∨
      (s.dev.adm.loadWaits ≠ none ∧ s.dev.adm.loadBehind = false ∧ s.dev.engineNext = true) →
    exec .flowAdmit s = .next (s.after s.dev) ∧ exec .flowTeardown s = .next (s.after s.dev) ∧
    exec .flowQuery s = .next (s.after s.dev) ∧
    exec .flowRepack s = .next (s.after s.dev) ∧ exec .pairSwitch s = .next (s.after s.dev)) ∧
  (∀ (r : Req) (rest : List Req) (s : State), s.dev.requestWaits = false → s.dev.adm.loadWaits = none →
    let d := s.dev.taken r rest
    (s.dev.Takes 0x0400 r rest →
      (r.params.length = 32 →
        exec .flowAdmit s = .next (s.answered (d.flowAdmit r.params).1 r (d.flowAdmit r.params).2.1 (d.flowAdmit r.params).2.2)) ∧
      (r.params.length ≠ 32 → exec .flowAdmit s = .next (s.answered d r stBadParam (errPayload detLength 0)))) ∧
    (s.dev.Takes 0x0401 r rest →
      let x := d.flowTeardown (r.u 2 0)
      (checkParams r 4 (zb [2, 3]) [(0, 2, 0, 4095)] = none → exec .flowTeardown s = .next (s.answered x.1 r x.2.1 x.2.2)) ∧
      (∀ a, checkParams r 4 (zb [2, 3]) [(0, 2, 0, 4095)] = some a → exec .flowTeardown s = .next (s.answered d r a.1 a.2))) ∧
    (s.dev.Takes 0x0403 r rest →
      let x := d.flowRepack (r.u 1 0)
      (checkParams r 4 (zb [1, 2, 3]) [(0, 1, 0, 51)] = none → exec .flowRepack s = .next (s.answered x.1 r x.2.1 x.2.2)) ∧
      (∀ a, checkParams r 4 (zb [1, 2, 3]) [(0, 1, 0, 51)] = some a → exec .flowRepack s = .next (s.answered d r a.1 a.2))) ∧
    (s.dev.Takes 0x0404 r rest →
      let x := d.pairSwitch (r.u 1 0) (r.u 1 1)
      (checkParams r 4 (zb [2, 3]) [(0, 1, 0, 5)] = none → exec .pairSwitch s = .next (s.answered x.1 r x.2.1 x.2.2)) ∧
      (∀ a, checkParams r 4 (zb [2, 3]) [(0, 1, 0, 5)] = some a → exec .pairSwitch s = .next (s.answered d r a.1 a.2)))) ∧
  (∀ (r : Req) (rest : List Req) (s : State), s.dev.requestWaits = false → s.dev.adm.loadWaits ≠ none → s.dev.adm.loadBehind = true →
    let d := s.dev.taken r rest
    let goOn (x : Dev × Nat × List Byte) : Dev :=
      let e := x.1.jobReply r x.2
      { e with adm := { e.adm with loadBehind := false } }
    (s.dev.Takes 0x0400 r rest → r.params.length = 32 →
      exec .flowAdmit s = .next (s.after (goOn (d.flowAdmit r.params)).flowsDue)) ∧
    (s.dev.Takes 0x0401 r rest → checkParams r 4 (zb [2, 3]) [(0, 2, 0, 4095)] = none →
      exec .flowTeardown s = .next (s.after (goOn (d.flowTeardown (r.u 2 0))).flowsDue)) ∧
    (s.dev.Takes 0x0403 r rest → checkParams r 4 (zb [1, 2, 3]) [(0, 1, 0, 51)] = none →
      exec .flowRepack s = .next (s.after (goOn (d.flowRepack (r.u 1 0))).flowsDue)) ∧
    (s.dev.Takes 0x0404 r rest → checkParams r 4 (zb [2, 3]) [(0, 1, 0, 5)] = none →
      exec .pairSwitch s = .next (s.after (goOn (d.pairSwitch (r.u 1 0) (r.u 1 1))).flowsDue)) ∧
    (s.dev.Takes 0x0402 r rest → checkParams r 2 [] [(0, 2, 0, 4095)] = none →
      exec .flowQuery s = .next (s.after (goOn (d, stOk, (d.flow (r.u 2 0)).bytes (r.u 2 0))).flowsDue))) ∧
  (∀ (r : Req) (rest : List Req) (s : State), s.dev.requestWaits = false → s.dev.adm.loadWaits = none →
    s.dev.Takes 0x0402 r rest → checkParams r 2 [] [(0, 2, 0, 4095)] = none →
    let d := s.dev.taken r rest
    exec .flowQuery s = .next (s.answered d r stOk ((d.flow (r.u 2 0)).bytes (r.u 2 0)))) ∧
  (∀ (d : Dev) (p : List Byte),
    let f := getLE 2 p 0 % 4096
    let v := d.copiedAll.checkAdmit f (flowOfBytes p) (reservedSet p)
    let x := d.flowAdmit p
    (v.status = stOk → x.2.1 = stOk ∧ (x.1.flow f).state = (if (flowOfBytes p).n = 0 then .live else .pending) ∧
      (x.1.reg admAdmitted).toNat = min ((d.copiedAll.reg admAdmitted).toNat + 1) 0xFFFFFFFF) ∧
    (v.status ≠ stOk → x.2.1 = v.status ∧ x.1.reg admRefusalStatus = BitVec.ofNat 32 v.status ∧
      (x.1.flow f).state = (d.copiedAll.flow f).state ∧ (x.1.flow f).detail = BitVec.ofNat 8 v.detail)) ∧
  (∀ (d : Dev) (f : Nat),
    let o := d.copiedAll.flow f
    let x := d.flowTeardown f
    (f = 0 ∨ o.state = .free → x.2.1 = stBadParam ∧ (x.1.flow f).state = o.state) ∧
    (f ≠ 0 → o.state = .moving → x.2.1 = stBusy ∧ (x.1.flow f).state = .moving) ∧
    (f ≠ 0 → o.state = .live → o.n ≠ 0 → x.2.1 = stOk ∧ (x.1.flow f).state = .draining) ∧
    (f ≠ 0 → o.state = .live → o.n = 0 → x.2.1 = stOk ∧ (x.1.flow f).state = .free) ∧
    (f ≠ 0 → o.state = .pending → x.2.1 = stOk ∧ (x.1.flow f).state = .free) ∧
    (f ≠ 0 → o.state = .draining → x.2.1 = stOk ∧ (x.1.flow f).state = .draining)) ∧
  (∀ (d : Dev) (e : Nat),
    (d.copiedAll.shedHold = true → (d.flowRepack e).2.1 = stBusy) ∧
    (d.copiedAll.shedHold = false → d.copiedAll.inTransition e = true → (d.flowRepack e).2.1 = stBusy) ∧
    (d.copiedAll.shedHold = false → d.copiedAll.inTransition e = false → d.copiedAll.degraded = true →
      (d.flowRepack e).2.1 = stEndpointState)) ∧
  (∀ (d : Dev) (k target : Nat), 5 < k ∨ (target ≠ 2 * k ∧ target ≠ 2 * k + 1) ∨ (d.copiedAll.pair k).declared = false →
    (d.pairSwitch k target).2.1 = stBadParam ∧ (d.pairSwitch k target).1.adm = d.copiedAll.adm) ∧
  (∀ (f : Fin 4096) (s : State),
    ((s.dev.flow f).state = .draining → (s.dev.flow f).slotsOut = false →
      s.dev.cellsLeft f (fun _ => true) = false → s.dev.stagingShut = false →
      ∃ d, exec (.flowDrainDone f) s = .next (s.after d) ∧ (d.flow f).slotsOut = true ∧ (d.flow f).swapDue = true ∧
        bit d.fab.swapPend (s.dev.flow f).dest.toNat = decide ((s.dev.flow f).dest.toNat < 52)) ∧
    ((s.dev.flow f).state ≠ .draining ∨ (s.dev.flow f).slotsOut = true ∨ s.dev.cellsLeft f (fun _ => true) = true ∨
      s.dev.stagingShut = true → exec (.flowDrainDone f) s = .next (s.after s.dev))) ∧
  (∀ (k : Fin 6) (s : State),
    let left := (s.dev.pair k).flows.any (fun f => (s.dev.flow f).reserved &&
      s.dev.cellsLeft f (fun c => c.acc && decide (c.num < (s.dev.flow f).movedAt)))
    ((s.dev.pair k).step = 2 → (s.dev.pair k).slotsOut = false → left = false → s.dev.stagingShut = false →
      ∃ d, exec (.pairDrainDone k) s = .next (s.after d) ∧ d.pair k = { s.dev.pair k with slotsOut := true } ∧
        (∀ j : Fin 6, j ≠ k → d.pair j = s.dev.pair j) ∧
        (∀ f ∈ (s.dev.pair k).flows, (s.dev.flow f).reserved = true → (d.flow f).swapDue = true)) ∧
    ((s.dev.pair k).step ≠ 2 ∨ (s.dev.pair k).slotsOut = true ∨ left = true ∨ s.dev.stagingShut = true →
      exec (.pairDrainDone k) s = .next (s.after s.dev))) ∧
  (∀ (e : Fin 52) (s : State),
    (s.dev.suspendedEp e = false → s.dev.epCauses e ≠ 0 →
      ∃ d n, exec (.endpointSuspend e) s = .next (s.after d) ∧ d.suspendedEp e = true ∧
        d.log.intake = s.dev.log.intake ++ [n] ∧ n.code = 0x20 ∧ (∀ i : Fin 52, i ≠ e → d.suspendedEp i = s.dev.suspendedEp i)) ∧
    (s.dev.suspendedEp e = true ∨ s.dev.epCauses e = 0 → exec (.endpointSuspend e) s = .next (s.after s.dev))) ∧
  (∀ (e : Fin 52) (s : State),
    let x := if e.val = 48 then s.dev.hiveResetEnds else if e.val < 16 then s.dev.txAgain e else s.dev
    (x.suspendedEp e = true → x.epCauses e = 0 →
      ∃ d n, exec (.endpointResume e) s = .next (s.after d) ∧ d.suspendedEp e = false ∧
        d.log.intake = s.dev.log.intake ++ [n] ∧ n.code = 0x21 ∧ (∀ i : Fin 52, i ≠ e → d.suspendedEp i = s.dev.suspendedEp i)) ∧
    (x.suspendedEp e = false ∨ x.epCauses e ≠ 0 → exec (.endpointResume e) s = .next (s.after x))) ∧
  (∀ (id : Fin 13) (v : Word) (s : State), s.dev.portIdle id = false → s.dev.Quiet →
    ∃ t, exec (.admFlowSel id v) s = .next t ∧ (t.dev.idReg id admFlowSel).toNat = v.toNat % 4096 ∧
      mget (fun _ => zeros 64) t.dev.adm.snaps id.val = (s.dev.flow (v.toNat % 4096)).bytes (v.toNat % 4096) ∧
      (∀ i : Fin 13, i ≠ id → mget (fun _ => zeros 64) t.dev.adm.snaps i.val = mget (fun _ => zeros 64) s.dev.adm.snaps i.val) ∧
      t.dev.regs = s.dev.regs ∧ t.dev.adm.flows = s.dev.adm.flows)

/-- TX_CELL, INGRESS_HEAD, slots, boundaries, arrival, acknowledgement, credit, handover and the FAB_ commands complete with the effects of chapter 03 (R124, R126, R128, R129, R130, R150, R154, R158, R168, R176, R182, R190). -/
def Obligations.FabricMovesCells : Prop :=
  (∀ (e : Fin 52) (flow : BitVec 12) (dest : BitVec 6) (som eom err : Bool) (bytes : BitVec 6) (cls : BitVec 2) (aspace : BitVec 6)
     (data : BitVec 512) (s : State),
    let c : Cell :=
      { flow := flow, som := som, eom := eom, err := err, acc := false, cls := cls, aspace := aspace, src := 0, dest := dest,
        bytes := bytes, astamp := 0, payload := putLE 64 data.toNat, num := 0 }
    (16 ≤ e.val → s.dev.epAwake e = true → (s.dev.ing e).queue.length < 32 →
      exec (.txCell e flow dest som eom err bytes cls aspace data) s = .next (s.after (s.dev.takeCell e c))) ∧
    (e.val < 16 ∨ s.dev.epAwake e = false ∨ 32 ≤ (s.dev.ing e).queue.length →
      exec (.txCell e flow dest som eom err bytes cls aspace data) s = .next (s.after s.dev))) ∧
  (∀ (d : Dev) (e : Nat) (c : Cell),
    let fr := d.framing e c.flow.toNat
    let t := d.takeCell e c
    let bad := c.flow = 0 ∧ 51 < c.dest.toNat
    (bad → (t.ing e).queue = (d.ing e).queue ++ [c]) ∧
    (¬ bad → fr.skip = true → (t.ing e).queue = (d.ing e).queue) ∧
    (¬ bad → fr.skip = false → c.som = fr.isOpen → t = (d.markErr e c.flow.toNat).igDiscard e) ∧
    (¬ bad → fr.skip = false → c.som ≠ fr.isOpen → c.som = true → d.classOk e c.cls = false →
      (t.ing e).queue = (d.ing e).queue ∧ t.rbit (fabEpStatus e) 1 = true) ∧
    (¬ bad → fr.skip = false → c.som ≠ fr.isOpen → (c.som = true → d.classOk e c.cls = true) →
      let n := if c.som then 1 else fr.count + 1
      let cut := !c.eom && decide (d.msgLimit e c.flow.toNat ≤ n)
      ∃ c', (t.ing e).queue = (d.ing e).queue ++ [c'] ∧ c'.flow = c.flow ∧ c'.payload = c.payload ∧ c'.som = c.som ∧
        c'.eom = (c.eom || cut) ∧ (cut = true → c'.err = true) ∧ (c.eom = true → c'.err = (c.err || fr.errNext)) ∧
        (t.framing e c.flow.toNat).isOpen = !(c.eom || cut))) ∧
  (∀ (e : Fin 52) (s : State), (s.dev.ing e).queue = [] → exec (.ingressHead e) s = .next (s.after (s.dev.feed e))) ∧
  (∀ (e : Fin 52) (c : Cell) (rest : List Cell) (s : State), (s.dev.ing e).queue = c :: rest →
    let x := s.dev.flow c.flow.toNat
    let d := s.dev.unqueue e 0
    (c.flow.toNat = 0 → 51 < c.dest.toNat → exec (.ingressHead e) s = .next (s.after ((d.igDiscard e).feed e))) ∧
    (c.flow.toNat ≠ 0 → x.openAt e = false → exec (.ingressHead e) s = .next (s.after ((d.count (admEpNotlive e)).feed e))) ∧
    (c.flow.toNat ≠ 0 → x.openAt e = true → x.judged = true →
      (x.tokens ≠ 0 → x.credits ≠ 0 → exec (.ingressHead e) s = .next (s.after ((d.acceptCell e c).feed e))) ∧
      (x.tokens = 0 ∨ x.credits = 0 → exec (.ingressHead e) s = .next (s.after (s.dev.feed e)))) ∧
    ((c.flow.toNat = 0 ∧ c.dest.toNat ≤ 51) ∨ (c.flow.toNat ≠ 0 ∧ x.openAt e = true ∧ x.judged = false) →
      ((s.dev.ing e).be.length < 64 → exec (.ingressHead e) s = .next (s.after ((d.carryCell e c).feed e))) ∧
      (64 ≤ (s.dev.ing e).be.length → exec (.ingressHead e) s = .next (s.after (s.dev.feed e))))) ∧
  (∀ (d : Dev) (e : Nat) (c : Cell),
    let y := (d.acceptCell e c).flow c.flow.toNat
    y.tokens = (d.flow c.flow.toNat).tokens - 1 ∧ y.credits = (d.flow c.flow.toNat).credits - 1 ∧
    (∃ r, ((d.acceptCell e c).ing e).replay = (d.ing e).replay ++ [r] ∧ r.sent = false ∧ r.cell.acc = true ∧
      r.cell.flow = c.flow ∧ r.cell.som = c.som ∧ r.cell.eom = c.eom ∧ r.cell.payload = c.payload) ∧
    (∃ b, ((d.carryCell e c).ing e).be = (d.ing e).be ++ [b] ∧ b.acc = false ∧ b.flow = c.flow ∧ b.som = c.som ∧
      b.eom = c.eom ∧ b.payload = c.payload) ∧ ((d.ing e).outbox = [] → d.feed e = d)) ∧
  (∀ (bad : Bool) (s : State),
    (s.dev.fab.slotSet = true → s.dev.boundaryDue = false →
      ∃ d, exec (.slotStart bad) s = .next (s.after d) ∧ d.fab.nextSlot = s.dev.fab.nextSlot + 1 ∧
        d.fab.beStart = (s.dev.fab.beStart + 1) % 52) ∧
    (s.dev.fab.slotSet = false ∨ s.dev.boundaryDue = true → exec (.slotStart bad) s = .next (s.after s.dev))) ∧
  (∀ (skew : BitVec 31) (s : State),
    (s.dev.fab.slotSet = true → s.dev.adm.loadWaits = none → s.dev.adm.handed = none →
      ∃ d, exec (.periodBoundary skew) s = .next (s.after d) ∧ d.fab.begun = true ∧ d.fab.nextSlot.toNat % 512 = 0 ∧
        d.fab.period.toNat = d.fab.nextSlot.toNat / 512 ∧ d.fab.swapPend = 0) ∧
    (s.dev.fab.slotSet = true → exec (.periodBoundary skew) s = .next (s.after (s.dev.periodBoundary skew).engineDue)) ∧
    (s.dev.fab.slotSet = false → exec (.periodBoundary skew) s = .next (s.after s.dev))) ∧
  (∀ s : State, exec .calCopyDone s = .next (s.after s.dev.copiedAll.engineDue) ∧
    (s.dev.adm.loadWaits = none → s.dev.adm.handed = none → s.dev.copiedAll.engineDue = s.dev.copiedAll) ∧ ∀ e, e < 52 → bit s.dev.copiedAll.fab.copyPend e = false) ∧
  (∀ (e : Fin 52) (flips : List (Fin 5 × Fin 160)) (s : State),
    s.dev.fab.flight.find? (fun x => decide (x.cell.dest.toNat = e.val)) = none →
    exec (.cellEgressArrival e flips) s = .next (s.after s.dev)) ∧
  (∀ (e : Fin 52) (flips : List (Fin 5 × Fin 160)) (fl : Flight) (s : State),
    s.dev.fab.flight.find? (fun x => decide (x.cell.dest.toNat = e.val)) = some fl →
    let x := fl.cross flips
    let c := if x.good then x.cell else fl.cell
    let skips := decide (c.flow.toNat ≠ 0) && (s.dev.flow c.flow.toNat).skipToSom && !c.som
    ∃ d, exec (.cellEgressArrival e flips) s = .next (s.after d) ∧
      d.fab.flight = s.dev.fab.flight.eraseP (fun x => decide (x.cell.dest.toNat = e.val)) ∧
      (s.dev.suspendedEp e = true ∨ skips = true → d.pool e = s.dev.pool e) ∧
      (s.dev.suspendedEp e = false → skips = false → x.good = true →
        d.pool e = s.dev.pool e ++ [{ cell := x.cell, missed := false, payloadOk := true }]) ∧
      (s.dev.suspendedEp e = false → skips = false → x.good = false → fl.cell.acc = true → fl.second = false →
        d.pool e = s.dev.pool e ∧ (fl.seq ≠ none →
          d.fab.acks = s.dev.fab.acks ++ [{ ingress := fl.ingress, num := fl.cell.num, good := false }])) ∧
      (s.dev.suspendedEp e = false → skips = false → x.good = false → fl.cell.acc = false ∨ fl.second = true →
        ∃ y, d.pool e = s.dev.pool e ++ [y] ∧ y.cell.err = true ∧ y.missed = fl.cell.acc ∧ y.payloadOk = false)) ∧
  (∀ (e : Fin 52) (s : State), s.dev.fab.acks.find? (fun a => decide (a.ingress = e.val)) = none →
    exec (.ackArrival e) s = .next (s.after s.dev)) ∧
  (∀ (e : Fin 52) (a : Ack) (s : State), s.dev.Quiet → s.dev.fab.acks.find? (fun a => decide (a.ingress = e.val)) = some a →
    ∃ t, exec (.ackArrival e) s = .next t ∧ t.dev.fab.acks = s.dev.fab.acks.eraseP (fun a => decide (a.ingress = e.val)) ∧
      (t.dev.ing e).replay = (if a.good then (s.dev.ing e).replay.filter (fun r => decide (r.cell.num ≠ a.num))
        else (s.dev.ing e).replay.map (fun r => if r.cell.num = a.num then { r with due := true } else r))) ∧
  (∀ (f : Fin 4096) (s : State),
    (s.dev.Quiet → f.val ∈ s.dev.fab.credits →
      ∃ t, exec (.creditReturn f) s = .next t ∧ t.dev.fab.credits = s.dev.fab.credits.erase f.val ∧
        t.dev.flow f = { s.dev.flow f with credits := (s.dev.flow f).credits + 1 }) ∧
    (f.val ∉ s.dev.fab.credits → exec (.creditReturn f) s = .next (s.after s.dev))) ∧
  (∀ (e : Fin 52) (f : Fin 4096) (be : Bool) (s : State),
    (s.dev.epCauses e ≠ 0 → exec (.cellHandover e f be) s = .next (s.after s.dev)) ∧
    (s.dev.epCauses e = 0 → isLaneEp e = true →
      (s.dev.portMessage e f = none → exec (.cellHandover e f be) s = .next (s.after s.dev)) ∧
      (∀ m, s.dev.portMessage e f = some m → exec (.cellHandover e f be) s = .next (s.after (s.dev.handMessage e m)))) ∧
    (s.dev.epCauses e = 0 → isLaneEp e = false →
      (s.dev.nextCell e f be = none → exec (.cellHandover e f be) s = .next (s.after s.dev)) ∧
      (∀ p, s.dev.nextCell e f be = some p →
        let drops := decide ((if p.cell.som then s.dev.routeOf e p.cell else s.dev.msgRoute (msgKey e p.cell)) = 1)
        let full := isGatewayEp e && !drops && !s.dev.gateRoom e p.cell
        let shut := decide (e.val = 49 ∨ e.val = 50) && s.dev.storeShut (e.val - 49) p.cell.flow.toNat
        (full = true ∨ shut = true → exec (.cellHandover e f be) s = .next (s.after s.dev)) ∧
        (full = false → shut = false → exec (.cellHandover e f be) s = .next (s.after (s.dev.handCell e p)))))) ∧
  (∀ (d : Dev) (e : Nat) (m : List PoolEnt) (p : PoolEnt),
    (d.handMessage e m).pool e = (d.pool e).filter (fun q => !m.contains q) ∧
    (e = 48 ∨ e = 51 ∨ isGatewayEp e = true → (d.handCell e p).pool e = (d.pool e).filter (fun q => !decide (q = p)))) ∧
  (∀ (v : Word) (s : State), s.dev.Quiet →
    (∃ t, exec (.beStop 0 v) s = .next t ∧ t.dev.reg fabCtrl = v &&& 3 ∧ ∀ o, o ≠ fabCtrl → t.dev.reg o = s.dev.reg o) ∧
    (∃ t, exec (.fabFlowSel 0 v) s = .next t ∧ (t.dev.reg fabFlowSel).toNat = v.toNat % 4096 ∧
      (∀ o, o ≠ fabFlowSel → t.dev.reg o = s.dev.reg o) ∧
      (v.getLsbD 31 = true → mget (fun _ => Stat.zero) t.dev.fab.flowAcc (v.toNat % 4096) = Stat.zero) ∧
      (v.getLsbD 31 = false → t.dev.fab = s.dev.fab))) ∧
  (∀ (e : Fin 52) (v : Word) (s : State),
    (s.dev.Quiet → v.getLsbD 0 = true → ∃ t, exec (.fabEpClear 0 e v) s = .next t ∧
      (∀ o, o ∈ [fabEpAcc e, fabEpCarry e, fabEpDrop e, fabEpCells e, fabEpBytes e] → t.dev.stat o = Stat.zero) ∧
      (∀ o, o ∉ [fabEpAcc e, fabEpCarry e, fabEpDrop e, fabEpCells e, fabEpBytes e] → t.dev.stat o = s.dev.stat o) ∧
      t.dev.regs = s.dev.regs) ∧
    (v.getLsbD 0 = false → exec (.fabEpClear 0 e v) s = .next (s.after s.dev))) ∧
  (∀ (p : Fin 16) (v : Word) (s : State), s.dev.Quiet →
    ∃ t, exec (.fabClsClear 0 p v) s = .next t ∧ t.dev.stat (clsHit p) = Stat.zero ∧ t.dev.stat (clsMissCnt p) = Stat.zero ∧
      t.dev.reg (fabCls p) = v &&& 0xC03F0FFF) ∧
  (∀ (p : Fin 16) (i : BitVec 12) (s : State),
    (s.dev.Quiet → s.dev.rbit (clsCmd p) 31 = false →
      ∃ t u, exec (.clsEntryWrite 0 p i) s = .next t ∧ exec (.clsEntryRead 0 p i) s = .next u ∧
      t.dev.rbit (clsCmd p) 31 = true ∧ t.dev.fld (clsCmd p) 24 2 = 1 ∧ t.dev.fld (clsCmd p) 0 12 = i.toNat ∧ t.dev.fld (clsCmd p) 12 12 = i.toNat ∧
      u.dev.rbit (clsCmd p) 31 = true ∧ u.dev.fld (clsCmd p) 24 2 = 2 ∧ u.dev.fld (clsCmd p) 0 12 = i.toNat ∧ u.dev.fld (clsCmd p) 12 12 = i.toNat) ∧
    (s.dev.rbit (clsCmd p) 31 = true → exec (.clsEntryWrite 0 p i) s = .next (s.after s.dev) ∧
      exec (.clsEntryRead 0 p i) s = .next (s.after s.dev))) ∧
  (∀ (p : Fin 16) (s : State), s.dev.Quiet → s.dev.rbit (clsCmd p) 31 = true →
    let i := s.dev.fld (clsCmd p) 12 12
    let x : ClsEntry :=
      { key := s.dev.clsKeyReg p, valid := s.dev.rbit (clsResult p) 31, flow := BitVec.ofNat 12 (s.dev.reg (clsResult p)).toNat }
    ∃ t, exec (.clsAccessDone p) s = .next t ∧ t.dev.rbit (clsCmd p) 31 = false ∧ t.dev.fld (clsCmd p) 0 12 = s.dev.fld (clsCmd p) 0 12 ∧
      (s.dev.fld (clsCmd p) 24 2 = 1 → s.dev.clsDup p i = false → t.dev.rbit (clsCmd p) 30 = false ∧ t.dev.clsEntry p i = x) ∧
      (s.dev.fld (clsCmd p) 24 2 = 1 → s.dev.clsDup p i = true → t.dev.rbit (clsCmd p) 30 = true ∧ t.dev.fab = s.dev.fab) ∧
      (s.dev.fld (clsCmd p) 24 2 ≠ 1 → t.dev.rbit (clsCmd p) 30 = s.dev.rbit (clsCmd p) 30 ∧ t.dev.fab = s.dev.fab ∧
        t.dev.clsKeyReg p = (s.dev.clsEntry p i).key ∧ t.dev.rbit (clsResult p) 31 = (s.dev.clsEntry p i).valid)) ∧
  (∀ (p : Fin 16) (s : State), s.dev.rbit (clsCmd p) 31 = false → exec (.clsAccessDone p) s = .next (s.after s.dev))

/-- A gateway performs whole messages, a port grants in order, a handover, a wipe, a march and a migration run to their ends (R411, R412, R413, R415, R418, R420, R427, R430, R431, R433, R434, R443). -/
def Obligations.BanksServeMoveAndTest : Prop :=
  (∀ (k : Fin 16) (cls : BitVec 2) (f : BitVec 12) (us : List (BitVec 16 × BitVec 3 × Bool)) (m rest : List Cell) (s : State),
    s.dev.gateReady (classKey k cls) f = some (m, rest) → s.dev.mayExecute (classKey k cls) f = true →
    let d := s.dev.portUsed (classKey k cls) (s.dev.portAsks (classKey k cls) f)
    (getLE 1 (messageBytes m) 0 = 1 → exec (.gatewayExecuteWrite k cls f us) s =
      .next (s.after (d.gateExecute (classKey k cls) m rest us))) ∧
    (getLE 1 (messageBytes m) 0 = 2 → exec (.gatewayExecuteRead k cls f us) s =
      .next (s.after (d.gateExecute (classKey k cls) m rest us))) ∧
    (getLE 1 (messageBytes m) 0 = 4 → d = s.dev ∧ exec (.gatewayExecuteFence k cls f) s =
      .next (s.after (s.dev.gateExecute (classKey k cls) m rest [])))) ∧
  (∀ (k : Fin 16) (cls : BitVec 2) (f : BitVec 12) (us : List (BitVec 16 × BitVec 3 × Bool)) (s : State),
    let other (type : Nat) : Prop := ∀ m rest, s.dev.gateReady (classKey k cls) f = some (m, rest) →
      getLE 1 (messageBytes m) 0 ≠ type ∨ s.dev.mayExecute (classKey k cls) f = false
    (other 1 → exec (.gatewayExecuteWrite k cls f us) s = .next (s.after s.dev)) ∧
    (other 2 → exec (.gatewayExecuteRead k cls f us) s = .next (s.after s.dev)) ∧
    (other 4 → exec (.gatewayExecuteFence k cls f) s = .next (s.after s.dev))) ∧
  (∀ (d : Dev) (key : Nat) (m rest : List Cell) (us : List (BitVec 16 × BitVec 3 × Bool)), getLE 1 (messageBytes m) 0 = 4 →
    (d.gateExecute key m rest us).bank.words = d.bank.words ∧ (d.gateExecute key m rest us).bankQ key = rest) ∧
  (∀ (d : Dev) (p o a : Nat) (data : List Byte),
    (d.writeWord p o data a).bword p a = mergeWord (d.bword p a) o data a ∧
    ∀ q b, wordKey q b ≠ wordKey p a → (d.writeWord p o data a).bword q b = d.bword q b) ∧
  (∀ (w : BitVec 512) (o a i : Nat) (data : List Byte), i < 64 → wordByte (mergeWord w o data a) i =
    if o ≤ 64 * a + i ∧ 64 * a + i < o + data.length then data.getD (64 * a + i - o) 0 else wordByte w i) ∧
  (∀ (p : Fin 17) (us : List (BitVec 16 × BitVec 3 × Bool)) (s : State),
    ∃ d, exec (.bankPortCycle p us) s = .next (s.after d) ∧ (d.bankPort p).last =
      (if (s.dev.bankPort p).second then .second else s.dev.portGrant p)) ∧
  (∀ (d : Dev) (p : Nat), (d.bankWiping p = true → d.portGrant p = .wipe) ∧
    (∀ m, d.bankWiping p = false → d.march? p = some m → d.portGrant p = if m.stopped then .none else .march) ∧
    (d.bankWiping p = false → d.march? p = none → d.portBank p = none → d.portGrant p = .none)) ∧
  (∀ (d : Dev) (p k : Nat), d.bankWiping p = false → d.march? p = none → d.portBank p = some k →
    let cpu := d.readyIn p (k * 4 + 1)
    let x := d.bankPort p
    let late := d.copyDue p = true ∧ 256 ≤ x.copyWait
    let noCpu := x.sinceCpu < 3 ∨ cpu = []
    (∀ sc f l, 3 ≤ x.sinceCpu → cpu = (sc, f) :: l → d.portGrant p = .cpu sc f) ∧
    (noCpu → late → d.portGrant p = .copy) ∧
    (∀ sc f, noCpu → ¬ late → d.dataFirst p k = some (sc, f) → d.portGrant p = .data sc f) ∧
    (∀ sc f l, noCpu → ¬ late → d.dataFirst p k = none → d.readyIn p (k * 4 + 3) = (sc, f) :: l →
      d.portGrant p = .dma sc f) ∧
    (noCpu → ¬ late → d.dataFirst p k = none → d.readyIn p (k * 4 + 3) = [] → d.portGrant p =
      (if mget (fun _ => []) d.bank.writeback p ≠ [] then .writeBack else if d.copyDue p then .copy else .none))) ∧
  (∀ (k : Fin 16) (v : Word) (s : State), s.dev.Quiet → ownerOk (v.toNat % 64) = true →
    (s.dev.reg (bankOwner k)).getLsbD 31 = false →
    ∃ t, exec (.bankOwnerWrite 0 k v) s = .next t ∧ (t.dev.reg (bankOwner k)).getLsbD 31 = true ∧
      t.dev.fld (bankOwner k) 8 6 = v.toNat % 64 ∧ t.dev.fld (bankOwner k) 0 6 = s.dev.fld (bankOwner k) 0 6 ∧
      ∀ o, o ≠ bankOwner k → t.dev.reg o = s.dev.reg o) ∧
  (∀ (id : Fin 13) (k : Fin 16) (v : Word) (s : State), s.dev.portIdle id = false →
    let e := v.toNat % 64
    let claim := s.dev.granted id 7 = true ∧ s.dev.fld (bankOwner k) 0 6 = ownerNone ∧ isRegionEp e = true ∧ epRegion e = id.val - 1
    (id = 0 ∨ s.dev.ownsBank id k = true ∨ claim →
      exec (.bankOwnerWrite id k v) s = .next (s.after (s.dev.startHandover k e)) ∧
      (ownerOk e = false ∨ (s.dev.reg (bankOwner k)).getLsbD 31 = true → s.dev.startHandover k e = s.dev)) ∧
    (id ≠ 0 → s.dev.ownsBank id k = false → ¬ claim →
      exec (.bankOwnerWrite id k v) s = .next (s.after (s.dev.ctrlDecode id true false (bankOwner k))))) ∧
  (∀ (k : Fin 16) (s : State), (s.dev.reg (bankOwner k)).getLsbD 31 = true →
    (∀ c, c ∈ [1, 2, 3] → s.dev.bankQ (k.val * 4 + c) = []) → s.dev.rbit (bankCtrl k) 31 = false →
    s.dev.rbit (bankCtrl k) 1 = true → s.dev.bankDown (s.dev.physOf k) = false →
    exec (.bankHandoverDrained k) s = .next (s.after (s.dev.startWipe k))) ∧
  (∀ (k : Fin 16) (s : State), (s.dev.reg (bankOwner k)).getLsbD 31 = false ∨ s.dev.rbit (bankCtrl k) 31 = true ∨
    (∃ c, c ∈ [1, 2, 3] ∧ s.dev.bankQ (k.val * 4 + c) ≠ []) → exec (.bankHandoverDrained k) s = .next (s.after s.dev)) ∧
  (∀ (k : Fin 16) (s : State), (s.dev.reg (bankOwner k)).getLsbD 31 = true →
    (∀ c, c ∈ [1, 2, 3] → s.dev.bankQ (k.val * 4 + c) = []) → s.dev.rbit (bankCtrl k) 31 = false →
    s.dev.rbit (bankCtrl k) 1 = false ∨ s.dev.bankDown (s.dev.physOf k) = true →
    ∃ d : Dev, exec (.bankHandoverDrained k) s =
        .next (s.after (d.endJob (fun j => decide (j = .ownerSet k.val)) (stOk, d.ownerPayload k))) ∧
      (d.reg (bankOwner k)).toNat = s.dev.fld (bankOwner k) 8 6 ∧ d.rbit (bankCtrl k) 1 = false ∧
      d.reg (bankGuestR k) = 0 ∧ d.reg (bankGuestW k) = 0 ∧ d.reg (bankAspace k 0) = 0xFFFFFFFF ∧
      d.reg (bankAspace k 1) = 0xFFFFFFFF) ∧
  (∀ (id : Fin 13) (k : Fin 16) (s : State), s.dev.portIdle id = false → s.dev.Quiet → s.dev.ownsBank id k = true →
    s.dev.secureMaster (s.dev.fld (bankOwner k) 0 6) = true → s.dev.rbit pwrStatus 2 = false →
    (∃ t, exec (.bankSecureWrite id k true) s = .next t ∧ t.dev.reg (bankCtrl k) = setBit (s.dev.reg (bankCtrl k)) 1 true ∧
      t.dev.bank = s.dev.bank) ∧
    (s.dev.bankDown (s.dev.physOf k) = false → ∃ t, exec (.bankSecureWrite id k false) s = .next t ∧
      t.dev.rbit (bankCtrl k) 31 = true ∧ ∀ a, 64512 ≤ a → a < 65536 →
        t.dev.bword (s.dev.physOf k) a = 0)) ∧
  (∀ (k : Fin 16) (secure : Bool) (s : State), s.dev.Quiet → s.dev.rbit pwrStatus 2 = false →
    ∃ t, exec (.bankSecureWrite 0 k secure) s = .next t ∧ t.dev.reg (bankCtrl k) = s.dev.reg (bankCtrl k)) ∧
  (∀ (id : Fin 13) (k : Fin 16) (secure : Bool) (s : State), s.dev.portIdle id = false → id ≠ 0 →
    (s.dev.ownsBank id k = false → exec (.bankSecureWrite id k secure) s =
      .next (s.after (s.dev.ctrlDecode id true false (bankCtrl k)))) ∧
    (s.dev.ownsBank id k = true → s.dev.secureMaster (s.dev.fld (bankOwner k) 0 6) = false → s.dev.rbit pwrStatus 2 = false →
      s.dev.Quiet → ∃ t, exec (.bankSecureWrite id k secure) s = .next t ∧ t.dev.reg (bankCtrl k) = s.dev.reg (bankCtrl k) ∧
        t.dev.bank = s.dev.bank)) ∧
  (∀ (k : Fin 16) (s : State), (s.dev.reg (bankCtrl k)).getLsbD 31 = true →
    ∃ d, exec (.bankWipeDone k) s = .next (s.after d) ∧
      d.reg (bankCtrl k) = setBit (setBit (s.dev.reg (bankCtrl k)) 31 false) 1 false) ∧
  (∀ (k : Fin 16) (s : State), (s.dev.reg (bankCtrl k)).getLsbD 31 = false → exec (.bankWipeDone k) s = .next (s.after s.dev)) ∧
  (∀ (p : Fin 17) (v : Word) (s : State),
    (s.dev.served 1 = true → s.dev.marchBusy p = 0 → ∃ d, exec (.bankTestGo 0 p v) s = .next (s.after d) ∧
      d.inService p = false ∧ (∃ wait, d.march? p =
        some { checker := v.getLsbD 0, preserving := v.getLsbD 4, cause := .command, stopped := wait } ∧
        (s.dev.bank.running = [] → wait = s.dev.bankWiping p)) ∧
      d.fld (bankTestStatus p) 30 2 = 1 ∧ d.fld (bankTestStatus p) 0 3 = 1) ∧
    (s.dev.served 1 = true → s.dev.marchBusy p ≠ 0 → exec (.bankTestGo 0 p v) s = .next (s.after s.dev)) ∧
    (s.dev.served 1 = false → exec (.bankTestGo 0 p v) s =
      .next (s.after (s.dev.ctrlDecode 0 true false (0x482000 + 0x40 * p.val))))) ∧
  (∀ (p : Fin 17) (failing : List (Fin 2048)) (bad : Fin 33) (s : State),
    (s.dev.march? p = none → exec (.bankMarchDone p failing bad) s = .next (s.after s.dev.suiteWalk)) ∧
    (∀ m, s.dev.march? p = some m → m.cause = .suite → exec (.bankMarchDone p failing bad) s = .next (s.after s.dev)) ∧
    (∀ m, s.dev.march? p = some m → m.cause ≠ .suite → m.stopped = true →
      exec (.bankMarchDone p failing bad) s = .next (s.after s.dev.suiteWalk))) ∧
  (∀ (p : Fin 17) (failing : List (Fin 2048)) (bad : Fin 33) (m : MarchRun) (s : State), s.dev.march? p = some m →
    m.stopped = false → m.cause ≠ .suite → s.dev.rbit pwrStatus 2 = false →
    let n := ((List.range 2048).filter (fun r => failing.any (fun f => decide (f.val = r)))).length
    ∃ (d : Dev) (a : Answer), exec (.bankMarchDone p failing bad) s = .next (s.after (d.endJob (fun j => decide (j = .march p.val)) a).suiteWalk) ∧
      d.march? p = none ∧
      (n ≤ s.dev.bankFree p - bad.val → a.1 = stOk ∧ d.inService p = true ∧ d.fld (bankTestStatus p) 0 3 = resPass) ∧
      (s.dev.bankFree p - bad.val < n → a.1 = stInTest ∧ d.inService p = false ∧ d.fld (bankTestStatus p) 0 3 = resFail)) ∧
  (∀ s : State, (s.dev.fld bankRemap 8 17 ≠ 65536 ∨ s.dev.remapState ≠ 1 → exec .bankMigrateDone s = .next (s.after s.dev)) ∧
    (s.dev.fld bankRemap 8 17 ≠ 65536 ∨ s.dev.remapState ≠ 3 → exec .bankRemapUndoDone s = .next (s.after s.dev))) ∧
  (∀ s : State, s.dev.fld bankRemap 8 17 = 65536 →
    (s.dev.remapState = 1 → ∃ d : Dev, exec .bankMigrateDone s = .next (s.after
        (d.endJob (fun j => decide (j = .migrate s.dev.remapTarget)) (stOk, putLE 4 (d.reg bankRemap).toNat))) ∧
      d.remapState = 2 ∧ d.physOf s.dev.remapTarget = 16 ∧ ∀ o, o ≠ bankRemap → d.reg o = s.dev.reg o) ∧
    (s.dev.remapState = 3 → ∃ d : Dev, exec .bankRemapUndoDone s = .next (s.after
        (d.endJob (fun j => decide (j = .remapUndo s.dev.remapTarget)) (stOk, putLE 4 (d.reg bankRemap).toNat))) ∧
      d.remapState = 0 ∧ (∀ k, d.physOf k = k) ∧ ∀ o, o ≠ bankRemap → d.reg o = s.dev.reg o)) ∧
  (∀ (k : Fin 16) (s : State), s.dev.Quiet → ∃ t, exec (.bankClear 0 k) s = .next t ∧
    t.dev.stat (bankWordsR k) = Stat.zero ∧ t.dev.stat (bankWordsW k) = Stat.zero ∧ t.dev.regs = s.dev.regs) ∧
  (∀ (r : Req) (rest : List Req) (s : State) (a : Answer),
    let d := s.dev.taken r rest
    (s.dev.Takes 0x0500 r rest → checkParams r 0 [] [] = none → d.bankDenied = some a →
      exec .bankInfo s = .next (s.answered d r a.1 a.2)) ∧
    (s.dev.Takes 0x0501 r rest → checkParams r 4 (zb [2, 3]) [(0, 1, 0, 15)] = none →
      firstOf [(if ownerOk (r.u 1 1) then none else some (ansBad detRange 1)), d.bankDenied, d.needTicket,
        busyNow (d.rbit (bankOwner (r.u 1 0)) 31)] = some a →
      exec .bankOwnerSet s = .next (s.answered d r a.1 a.2)) ∧
    (s.dev.Takes 0x0502 r rest → checkParams r 12 (zb [1, 2, 3] ++ [(7, 0xF0), (11, 0xF0)]) [(0, 1, 0, 15)] = none →
      d.bankDenied = some a → exec .bankGuestSet s = .next (s.answered d r a.1 a.2)) ∧
    (s.dev.Takes 0x0503 r rest → checkParams r 4 (zb [2, 3]) [(0, 1, 0, 15), (1, 1, 0, 1)] = none →
      d.bankDenied = some a → exec .bankRetain s = .next (s.answered d r a.1 a.2)) ∧
    (s.dev.Takes 0x0504 r rest → checkParams r 4 (zb [3]) [(0, 1, 0, 16), (1, 1, 0, 1), (2, 1, 0, 1)] = none →
      firstOf [(if d.served 1 then none else some ansLife), d.needTicket,
        (if d.marchBusy (r.u 1 0) = 2 then some (ansBusy detState) else none), busyNow (decide (d.marchBusy (r.u 1 0) = 1))] = some a →
      exec .bankMarch s = .next (s.answered d r a.1 a.2)) ∧
    (s.dev.Takes 0x0505 r rest → checkParams r 4 (zb [1, 2, 3]) [(0, 1, 0, 15)] = none →
      firstOf [d.bankDenied, d.needTicket,
        busyNow (decide (d.remapState ≠ 0) || (d.march? 16).isSome || (d.march? (r.u 1 0)).isSome),
        (if d.marchGood 16 then none else some (ansBad detState))] = some a →
      exec .bankMigrate s = .next (s.answered d r a.1 a.2)) ∧
    (s.dev.Takes 0x0506 r rest → checkParams r 4 (zb [1, 2, 3]) [(0, 1, 0, 15)] = none →
      firstOf [d.bankDenied, d.needTicket,
        (if d.remapState = 2 ∧ d.remapTarget = r.u 1 0 then none else some (ansBad detState)),
        (if d.bank.retested = true ∧ d.fld (bankTestStatus (r.u 1 0)) 0 3 = resPass then none else some (ansBad detState))] = some a →
      exec .bankRemapUndo s = .next (s.answered d r a.1 a.2))) ∧
  (∀ (r : Req) (rest : List Req) (s : State), s.dev.Takes 0x0500 r rest → checkParams r 0 [] [] = none →
    let d := s.dev.taken r rest
    d.inRetired = false → exec .bankInfo s = .next (s.answered d r stOk
      (putLE 4 (d.reg bankReady).toNat ++ putLE 4 (d.reg bankRemap).toNat ++ putLE 4 (d.reg bankShed).toNat ++
        (List.range 16).flatMap (fun k => d.bankInfoOf (d.fld (bankOwner k) 0 6)
          (b2n (d.rbit (bankCtrl k) 1) + 2 * b2n (d.rbit (bankCtrl k) 0) + 4 * b2n (d.rbit (bankOwner k) 31)) (d.physOf k)) ++
        d.bankInfoOf 0x3F 0 16))) ∧
  (∀ (r : Req) (rest : List Req) (s : State), s.dev.Takes 0x0501 r rest →
    checkParams r 4 (zb [2, 3]) [(0, 1, 0, 15)] = none →
    let d := s.dev.taken r rest
    ownerOk (r.u 1 1) = true → d.inRetired = false → d.ticketsFull = false → d.rbit (bankOwner (r.u 1 0)) 31 = false →
    exec .bankOwnerSet s = .next (s.after ((d.openJob r (.ownerSet (r.u 1 0))).startHandover (r.u 1 0) (r.u 1 1)))) ∧
  (∀ (r : Req) (rest : List Req) (s : State), s.dev.Takes 0x0502 r rest →
    checkParams r 12 (zb [1, 2, 3] ++ [(7, 0xF0), (11, 0xF0)]) [(0, 1, 0, 15)] = none →
    let d := s.dev.taken r rest
    d.inRetired = false → exec .bankGuestSet s = .next (s.answered
      ((d.setReg (bankGuestR (r.u 1 0)) (BitVec.ofNat 32 (r.u 4 4))).setReg (bankGuestW (r.u 1 0)) (BitVec.ofNat 32 (r.u 4 8)))
      r stOk [])) ∧
  (∀ (r : Req) (rest : List Req) (s : State), s.dev.Takes 0x0503 r rest →
    checkParams r 4 (zb [2, 3]) [(0, 1, 0, 15), (1, 1, 0, 1)] = none →
    let d := s.dev.taken r rest
    let e := d.setRbit (bankCtrl (r.u 1 0)) 0 (decide (r.u 1 1 = 1))
    d.inRetired = false → exec .bankRetain s = .next (s.answered (e.bankRung (r.u 1 0)) r stOk []) ∧
      (d.rbit pwrStatus 2 = false → e.bankRung (r.u 1 0) = e)) ∧
  (∀ (r : Req) (rest : List Req) (s : State), s.dev.Takes 0x0504 r rest →
    checkParams r 4 (zb [3]) [(0, 1, 0, 16), (1, 1, 0, 1), (2, 1, 0, 1)] = none →
    let d := s.dev.taken r rest
    d.served 1 = true → d.ticketsFull = false →
    d.marchBusy (r.u 1 0) = 0 → exec .bankMarch s = .next (s.after
      (((d.startTicketJob r (.march (r.u 1 0))).finishRuns (r.u 1 0)).startMarch (r.u 1 0)
        { checker := decide (r.u 1 1 = 1), preserving := decide (r.u 1 2 = 1), cause := .command, stopped := false }))) ∧
  (∀ (r : Req) (rest : List Req) (s : State), s.dev.Takes 0x0505 r rest →
    checkParams r 4 (zb [1, 2, 3]) [(0, 1, 0, 15)] = none →
    let d := s.dev.taken r rest
    d.inRetired = false → d.ticketsFull = false → d.remapState = 0 → d.march? 16 = none → d.march? (r.u 1 0) = none →
    d.marchGood 16 = true →
    exec .bankMigrate s = .next (s.after ((d.startTicketJob r (.migrate (r.u 1 0))).startCopy 1 (r.u 1 0)))) ∧
  (∀ (r : Req) (rest : List Req) (s : State), s.dev.Takes 0x0506 r rest →
    checkParams r 4 (zb [1, 2, 3]) [(0, 1, 0, 15)] = none →
    let d := s.dev.taken r rest
    d.inRetired = false → d.ticketsFull = false → d.remapState = 2 → d.remapTarget = r.u 1 0 → d.bank.retested = true →
    d.fld (bankTestStatus (r.u 1 0)) 0 3 = resPass →
    exec .bankRemapUndo s = .next (s.after ((d.startTicketJob r (.remapUndo (r.u 1 0))).startCopy 3 (r.u 1 0))))

/-- Writes of SDS_CFG, SDS_RATE, SDS_CTRL and MAC_CFG, the steps of bring-up, link up and down and losses of lock complete with their effects (R245, R249, R261, R263, R264, R267, R268, R269, R283, R285, R287, R292). -/
def Obligations.LanesAreConfiguredComeUpAndFall : Prop :=
  (∀ (id : Fin 13) (n : Fin 16) (rate : Bool) (v : Word) (s : State),
    (s.dev.portIdle id = false → id ≠ 0 →
      exec (.sdsCfgWrite id n rate v) s =
        .next (s.after (s.dev.ctrlDecode id true false (if rate then sdsRate n else sdsCfg n))) ∧
      exec (.sdsCtrlWrite id n v) s = .next (s.after (s.dev.ctrlDecode id true false (sdsCtrl n))) ∧
      exec (.macCfgWrite id n v) s = .next (s.after (s.dev.ctrlDecode id true false (macCfg n)))) ∧
    (s.dev.portIdle id = true → exec (.sdsCfgWrite id n rate v) s = .next (s.after s.dev) ∧
      exec (.sdsCtrlWrite id n v) s = .next (s.after s.dev) ∧ exec (.macCfgWrite id n v) s = .next (s.after s.dev))) ∧
  (∀ (n : Fin 16) (v : Word) (s : State), bits v 24 4 ≤ 4 →
    (s.dev.laneReset n = true ∨ v &&& 0x8F300000 = s.dev.reg (sdsCfg n) →
      ∃ d : Dev, exec (.sdsCfgWrite 0 n false v) s = .next (s.after d) ∧ d.reg (sdsCfg n) = v &&& 0x8F300000 ∧
        bit d.serial.exempt n = true ∧
        (bits v 24 4 ≠ 0 → ∀ o, o ≠ sdsCfg n → d.reg o = s.dev.reg o) ∧
        (bits v 24 4 = 0 → ∀ b, b ∈ [30, 29, 28, 27, 26] → d.rbit (sdsStatus n) b = false)) ∧
    (s.dev.laneReset n = false → v &&& 0x8F300000 ≠ s.dev.reg (sdsCfg n) →
      exec (.sdsCfgWrite 0 n false v) s = .next (s.after (s.dev.ctrlDecode 0 true false (sdsCfg n))))) ∧
  (∀ (n : Fin 16) (v : Word) (s : State), 4 < bits v 24 4 → exec (.sdsCfgWrite 0 n false v) s = .next (s.after s.dev)) ∧
  (∀ (n : Fin 16) (v : Word) (s : State),
    (s.dev.laneReset n = true ∨ v &&& 0xFFFFFF = s.dev.reg (sdsRate n) →
      ∃ d : Dev, exec (.sdsCfgWrite 0 n true v) s = .next (s.after d) ∧ d.reg (sdsRate n) = v &&& 0xFFFFFF ∧
        ∀ o, o ≠ sdsRate n → d.reg o = s.dev.reg o) ∧
    (s.dev.laneReset n = false → v &&& 0xFFFFFF ≠ s.dev.reg (sdsRate n) →
      exec (.sdsCfgWrite 0 n true v) s = .next (s.after (s.dev.ctrlDecode 0 true false (sdsRate n))))) ∧
  (∀ (n : Fin 16) (v : Word) (s : State), bits v 28 3 ≤ 4 →
    (v.getLsbD 1 = false ∨ s.dev.rbit (sdsCtrl n) 1 = true ∨ s.dev.lanePermit n = true →
      ∃ d : Dev, exec (.sdsCtrlWrite 0 n v) s = .next (s.after d) ∧
        d.rbit (sdsCtrl n) 1 = v.getLsbD 1 ∧ d.rbit (sdsCtrl n) 2 = v.getLsbD 2 ∧
        d.rbit (sdsCtrl n) 0 = (v.getLsbD 0 || decide (2 ≤ s.dev.fld pwrStatus 28 3)) ∧
        d.rbit (sdsCtrl n) 31 = (v.getLsbD 31 && (!s.dev.inRetired || s.dev.rbit (sdsCtrl n) 31)) ∧
        d.fld (sdsCtrl n) 28 3 = (if bits v 28 3 = 0 ∨ d.laneTest n = true then bits v 28 3 else s.dev.fld (sdsCtrl n) 28 3) ∧
        (v.getLsbD 0 = true → ∀ b, b ∈ [30, 29, 28, 27, 26] → d.rbit (sdsStatus n) b = false) ∧
        (s.dev.rbit (sdsCtrl n) 2 = true → v.getLsbD 2 = false →
          ∀ b, b ∈ [30, 28, 27, 26] → d.rbit (sdsStatus n) b = false) ∧
        (let own := [sdsEvent n, sdsPrbsStatus n, sdsPrbsErr n, sdsRawUnderrun n, sdsRawTxdrop n, sdsRawLate n, sdsLockLoss n]
        (d.rbit (sdsCtrl n) 0 = true ∨ s.dev.rbit (sdsCtrl n) 0 = true → (∀ o, o ∈ own → d.reg o = 0) ∧
          d.stat (sdsPrbsBits n) = Stat.zero ∧ (d.rawLane n).txQueue = [] ∧ (d.rawLane n).txSeq = 0 ∧ (d.rawLane n).rxSeq = 0) ∧
        (d.rbit (sdsCtrl n) 0 = false → s.dev.rbit (sdsCtrl n) 0 = false → (∀ o, o ∈ own → d.reg o = s.dev.reg o) ∧
          d.stat (sdsPrbsBits n) = s.dev.stat (sdsPrbsBits n) ∧ (d.rawLane n).txQueue = (s.dev.rawLane n).txQueue) ∧
        (∀ o, o ≠ sdsCtrl n → o ≠ sdsStatus n → o ∉ own → (∀ p : Fin 16, o ≠ macStatus p ∧ o ≠ macLinkChanges p ∧ o ≠ macEvent p) →
          d.reg o = s.dev.reg o))) ∧
    (v.getLsbD 1 = true → s.dev.rbit (sdsCtrl n) 1 = false → s.dev.lanePermit n = false →
      exec (.sdsCtrlWrite 0 n v) s =
        .next (s.after ((s.dev.fenceRefuse 2 n (sdsCtrl n)).ctrlDecode 0 true false (sdsCtrl n))))) ∧
  (∀ (n : Fin 16) (v : Word) (s : State), 4 < bits v 28 3 → exec (.sdsCtrlWrite 0 n v) s = .next (s.after s.dev)) ∧
  (∀ (n : Fin 16) (s : State),
    (s.dev.laneMode n ≠ 0 → s.dev.laneReset n = false → s.dev.rbit (sdsCtrl n) 1 = true →
      ∃ d : Dev, exec (.txPllLock n) s = .next (s.after d) ∧ d.reg (sdsStatus n) = setBit (s.dev.reg (sdsStatus n)) 29 true ∧
        ∀ o, o ≠ sdsStatus n → d.reg o = s.dev.reg o) ∧
    (s.dev.laneMode n = 0 ∨ s.dev.laneReset n = true ∨ s.dev.rbit (sdsCtrl n) 1 = false →
      exec (.txPllLock n) s = .next (s.after s.dev)) ∧
    (s.dev.laneMode n ≠ 0 → s.dev.laneReset n = false → s.dev.rbit (sdsCtrl n) 2 = true →
      ∃ d : Dev, exec (.cdrLockAcquired n) s = .next (s.after d) ∧ (∀ b, b ∈ [30, 28, 27] → d.rbit (sdsStatus n) b = true) ∧
        (∀ o, o ≠ sdsStatus n → d.reg o = s.dev.reg o) ∧ bit d.serial.exempt n = false) ∧
    (s.dev.laneMode n = 0 ∨ s.dev.laneReset n = true ∨ s.dev.rbit (sdsCtrl n) 2 = false →
      exec (.cdrLockAcquired n) s = .next (s.after s.dev))) ∧
  (∀ (n : Fin 16) (s : State),
    (s.dev.portOn n = true → (∀ i, i ∈ s.dev.portLanes n → s.dev.laneMode i = 1 ∧ s.dev.rbit (sdsStatus i) 28 = true) →
      ∃ d : Dev, exec (.pcsLock n) s = .next (s.after d) ∧ d.rbit (macStatus n) 30 = true ∧
        (∀ i, i ∈ s.dev.members n → d.rbit (sdsStatus i) 26 = true) ∧
        ∀ o, o ≠ macStatus n → (∀ i, i ∈ s.dev.members n → o ≠ sdsStatus i) → d.reg o = s.dev.reg o) ∧
    (s.dev.portOn n = false ∨ (∃ i, i ∈ s.dev.portLanes n ∧ (s.dev.laneMode i ≠ 1 ∨ s.dev.rbit (sdsStatus i) 28 = false)) →
      exec (.pcsLock n) s = .next (s.after s.dev))) ∧
  (∀ (p : Fin 16) (s : State),
    (s.dev.portOn p = true → s.dev.rbit (macStatus p) 30 = true → s.dev.fld (macCfg p) 14 2 ≠ 0 →
      ∃ d : Dev, exec (.fecLock p) s = .next (s.after d) ∧ d.reg (macStatus p) = setBit (s.dev.reg (macStatus p)) 29 true ∧
        ∀ o, o ≠ macStatus p → d.reg o = s.dev.reg o) ∧
    (s.dev.portOn p = false ∨ s.dev.rbit (macStatus p) 30 = false ∨ s.dev.fld (macCfg p) 14 2 = 0 →
      exec (.fecLock p) s = .next (s.after s.dev))) ∧
  (∀ (p : Fin 16) (s : State),
    (s.dev.portLocked p = true →
      ∃ d : Dev, exec (.linkUp p) s = .next (s.after d) ∧ d.rbit (macStatus p) 31 = true ∧ d.rbit (macStatus p) 28 = false ∧
        d.rbit (macStatus p) 27 = false ∧
        (s.dev.rbit (macStatus p) 31 = false → d.rbit (macEvent p) 0 = true ∧
          (d.reg (macLinkChanges p)).toNat = min ((s.dev.reg (macLinkChanges p)).toNat + 1) 0xFFFFFFFF) ∧
        (s.dev.rbit (macStatus p) 31 = true → ∀ o, o ≠ macStatus p → d.reg o = s.dev.reg o) ∧
        mget (fun _ => []) d.serial.lineOut p = (if mget (fun _ => []) s.dev.serial.lineOut p = remoteFault then []
          else mget (fun _ => []) s.dev.serial.lineOut p)) ∧
    (s.dev.portLocked p = false → exec (.linkUp p) s = .next (s.after s.dev))) ∧
  (∀ (p : Fin 16) (blocks : BitVec 16) (pcs fec lf rf : Bool) (s : State),
    let lost := pcs = true ∨ ∃ i, i ∈ s.dev.members p ∧ (bit blocks i = true ∨ s.dev.rbit (sdsStatus i) 30 = false ∨
      s.dev.rbit (sdsStatus i) 28 = false ∨ s.dev.rbit (sdsStatus i) 26 = false)
    (s.dev.rbit (macCfg p) 31 = true → lost ∨ fec = true ∨ lf = true ∨ rf = true →
      ∃ d : Dev, exec (.linkDown p blocks pcs fec lf rf) s = .next (s.after d) ∧ d.rbit (macStatus p) 31 = false ∧
        (lost → d.rbit (macStatus p) 30 = false ∧ d.rbit (macStatus p) 29 = false) ∧
        (fec = true → d.rbit (macStatus p) 29 = false) ∧
        (lf = true → d.rbit (macStatus p) 28 = true ∧
          (s.dev.txOn p = true → mget (fun _ => []) d.serial.lineOut p = remoteFault)) ∧
        (rf = true → d.rbit (macStatus p) 27 = true) ∧
        (∀ i, i ∈ s.dev.members p → bit blocks i = true → d.rbit (sdsStatus i) 26 = false ∧
          (s.dev.rbit (sdsStatus i) 26 = true → d.rbit (sdsEvent i) 2 = true)) ∧
        (s.dev.rbit (macStatus p) 31 = true → d.rbit (macEvent p) 0 = true ∧
          (d.reg (macLinkChanges p)).toNat = min ((s.dev.reg (macLinkChanges p)).toNat + 1) 0xFFFFFFFF)) ∧
    (s.dev.rbit (macCfg p) 31 = false ∨ ¬ (lost ∨ fec = true ∨ lf = true ∨ rf = true) →
      exec (.linkDown p blocks pcs fec lf rf) s = .next (s.after s.dev))) ∧
  (∀ (n : Fin 16) (sig cdr : Bool) (s : State),
    let a := sig && s.dev.rbit (sdsStatus n) 30
    let c := cdr && s.dev.rbit (sdsStatus n) 28
    let m := b2n a + 2 * b2n c
    let told := !bit s.dev.serial.exempt n && s.dev.rbit (sdsCtrl n) 2 && !s.dev.laneTest n
    ((a || c) = true → ∃ d : Dev, exec (.laneSignalLoss n sig cdr) s =
        .next (s.after (if told then d.escalate clsLane srcLane (Path.lane n) [BitVec.ofNat 8 m] else d)) ∧
      (a = true → d.rbit (sdsStatus n) 30 = false) ∧
      (c = true → (∀ b, b ∈ [28, 27, 26] → d.rbit (sdsStatus n) b = false) ∧
        ∀ p k, s.dev.portOfLane n = some (p, k) → d.rbit (macStatus p) 30 = false ∧ d.rbit (macStatus p) 29 = false) ∧
      (s.dev.isRaw n = true → (d.rawLane n).lost = true) ∧ d.raised = s.dev.raised ∧
      d.reg (sdsEvent n) = (if told then s.dev.reg (sdsEvent n) ||| BitVec.ofNat 32 m else s.dev.reg (sdsEvent n)) ∧
      (d.reg (sdsLockLoss n)).toNat = (if c && !bit s.dev.serial.exempt n
        then min ((s.dev.reg (sdsLockLoss n)).toNat + 1) 0xFFFFFFFF else (s.dev.reg (sdsLockLoss n)).toNat)) ∧
    ((a || c) = false → exec (.laneSignalLoss n sig cdr) s = .next (s.after s.dev))) ∧
  (∀ (n : Fin 16) (s : State),
    (s.dev.laneMode n = 3 → s.dev.rbit (sdsStatus n) 26 = true →
      ∃ d : Dev, exec (.blockLockLoss n) s = .next (s.after d) ∧
        d.reg (sdsStatus n) = setBit (s.dev.reg (sdsStatus n)) 26 false ∧
        d.reg (sdsEvent n) = setBit (s.dev.reg (sdsEvent n)) 2 true ∧
        ∀ o, o ≠ sdsStatus n → o ≠ sdsEvent n → d.reg o = s.dev.reg o) ∧
    (s.dev.laneMode n ≠ 3 ∨ s.dev.rbit (sdsStatus n) 26 = false → exec (.blockLockLoss n) s = .next (s.after s.dev))) ∧
  (∀ (p : Fin 16) (v : Word) (s : State),
    let w := v &&& 0x8F0FC000
    let known := 1 ≤ bits v 24 4 ∧ bits v 24 4 ≤ 6 ∧ bits v 16 4 ∈ [1, 2, 4, 8] ∧ bits v 14 2 ≠ 3
    let same := setBit w 31 false = setBit (s.dev.reg (macCfg p)) 31 false
    (v.getLsbD 31 = true → s.dev.macCfgOk p w = true → s.dev.rbit (macCfg p) 31 = false ∨ same →
      ∃ d : Dev, exec (.macCfgWrite 0 p v) s = .next (s.after d) ∧ d.reg (macCfg p) = w ∧
        ∀ o, o ≠ macCfg p → d.reg o = s.dev.reg o) ∧
    (v.getLsbD 31 = true → ¬ known ∨ (s.dev.macCfgOk p w = false ∧ (s.dev.rbit (macCfg p) 31 = false ∨ same)) →
      ∃ d : Dev, exec (.macCfgWrite 0 p v) s = .next (s.after d) ∧ d.rbit (macEvent p) 3 = true ∧
        ∀ o, o ≠ macEvent p → d.reg o = s.dev.reg o) ∧
    (v.getLsbD 31 = false → known → s.dev.rbit (macCfg p) 31 = false →
      ∃ d : Dev, exec (.macCfgWrite 0 p v) s = .next (s.after d) ∧ d.reg (macCfg p) = w ∧
        ∀ o, o ≠ macCfg p → d.reg o = s.dev.reg o) ∧
    (v.getLsbD 31 = false → known → s.dev.rbit (macCfg p) 31 = true → same →
      ∃ d : Dev, exec (.macCfgWrite 0 p v) s = .next (s.after d) ∧ d.reg (macCfg p) = w ∧
        ∀ b, b ∈ [31, 30, 29] → d.rbit (macStatus p) b = false) ∧
    (known → s.dev.rbit (macCfg p) 31 = true → ¬ same →
      exec (.macCfgWrite 0 p v) s = .next (s.after (s.dev.ctrlDecode 0 true false (macCfg p)))) ∧
    (v.getLsbD 31 = false → ¬ known → exec (.macCfgWrite 0 p v) s = .next (s.after s.dev))) ∧
  (∀ (d : Dev) (p : Nat) (w : Word), d.macCfgOk p w = true ↔
    (bits w 24 4, bits w 16 4, bits w 14 2) ∈ [(1, 1, 0), (2, 1, 0), (2, 1, 1), (3, 1, 2), (4, 1, 2), (4, 4, 0), (4, 4, 1),
      (5, 2, 2), (5, 4, 2), (6, 4, 2), (6, 8, 2)] ∧ p % bits w 16 4 = 0 ∧
    ∀ i, i < bits w 16 4 → d.laneMode (p + i) = 1 ∧ ∀ q k, d.portOfLane (p + i) = some (q, k) → q = p)

/-- Received and sent frames, stamps, raw cells, patterns, PORT_CONFIG and LANE_TEST complete with the effects of chapter 05 (R250, R251, R252, R253, R256, R259, R260, R264, R266, R274, R290, R541). -/
def Obligations.FramesRawCellsAndPatternsPass : Prop :=
  (∀ (p : Fin 16) (frame : List Byte) (fcs code : Bool) (corr uncorr : BitVec 16) (skew : BitVec 34) (s : State),
    let long := decide (s.dev.fld (macMaxFrame p) 0 15 < frame.length + 4)
    let runt := decide (frame.length + 4 < 64)
    let bad := code || decide (uncorr ≠ 0)
    let up (d : Dev) (o k : Nat) : Prop := (d.reg o).toNat = min ((s.dev.reg o).toNat + k) 0xFFFFFFFF
    (s.dev.portLocked p = true → (fcs || runt || long || bad) = true →
      ∃ d : Dev, exec (.macFrameReceive p frame fcs code corr uncorr skew) s = .next (s.after d) ∧ d.fab = s.dev.fab ∧
        up d (macRxFcsErr p) (b2n fcs) ∧ up d (macRxRunt p) (b2n runt) ∧ up d (macRxOversize p) (b2n long) ∧
        up d (macRxCodeErr p) (b2n bad) ∧ up d (macFecUncorr p) uncorr.toNat ∧
        d.stat (macFecCorr p) = (s.dev.stat (macFecCorr p)).add corr.toNat ∧ d.stat (macRxFrames p) = s.dev.stat (macRxFrames p)) ∧
    (s.dev.portLocked p = true → (fcs || runt || long || bad) = false →
      ∃ d : Dev, exec (.macFrameReceive p frame fcs code corr uncorr skew) s =
          .next (s.after (d.portIngress p (s.dev.members p) frame (frame ++
            (if s.dev.fld (macCtrl p) 28 2 = 2 ∨ (s.dev.fld (macCtrl p) 28 2 = 1 ∧ (s.dev.ptpAt p frame).isSome)
              then stampTrailer (s.dev.stampAt skew (s.dev.reg (sdsRxCorr p))) else [])))) ∧ d.fab = s.dev.fab ∧
        d.stat (macRxFrames p) = (s.dev.stat (macRxFrames p)).add 1 ∧
        d.stat (macRxBytes p) = (s.dev.stat (macRxBytes p)).add (frame.length + 4) ∧
        d.stat (macFecCorr p) = (s.dev.stat (macFecCorr p)).add corr.toNat) ∧
    (s.dev.portLocked p = false → s.dev.farLoop p = true → ∃ (d : Dev) (x : Word),
      exec (.macFrameReceive p frame fcs code corr uncorr skew) s = .next (s.after d) ∧ d.fab = s.dev.fab ∧
      mget (fun _ => []) d.serial.lineOut p = preamble ++ frame ++ putLE 4 x.toNat ∧
      (fcs = false → x = BitVec.ofNat 32 (fcs32 frame)) ∧ ∀ o, d.reg o = s.dev.reg o) ∧
    (s.dev.portLocked p = false → s.dev.farLoop p = false →
      exec (.macFrameReceive p frame fcs code corr uncorr skew) s = .next (s.after s.dev))) ∧
  (∀ (d : Dev) (p : Nat) (ms : List Nat) (frame msg : List Byte),
    (16384 < msg.length → d.portIngress p ms frame msg = d.count (clsOversize p)) ∧
    (msg.length ≤ 16384 → 32768 < d.stagingUse ms + msg.length → d.portIngress p ms frame msg = d.count (clsStageDrop p)) ∧
    (msg.length ≤ 16384 → d.stagingUse ms + msg.length ≤ 32768 → d.rbit (fabCls p) 31 = false → d.rbit (fabCls p) 30 = true →
      d.portIngress p ms frame msg = d.statUp (clsMissCnt p))) ∧
  (∀ (p : Fin 16) (skew : BitVec 34) (s : State),
    (s.dev.macTx p = [] → exec (.macTransmit p skew) s = .next (s.after s.dev)) ∧
    (∀ m q, s.dev.macTx p = m :: q →
      let bs := fit (max 60 m.bytes.length) m.bytes
      let mode := s.dev.fld (macCtrl p) 30 2
      let t := s.dev.stampAt skew (s.dev.reg (sdsTxCorr p))
      (s.dev.rbit (macStatus p) 31 = true → ∃ d : Dev, exec (.macTransmit p skew) s = .next (s.after d) ∧ d.macTx p = q ∧
        d.stat (macTxFrames p) = (s.dev.stat (macTxFrames p)).add 1 ∧
        (s.dev.ptpAt p bs = none ∨ (mode ≠ 1 ∧ mode ≠ 2) → mget (fun _ => []) d.serial.lineOut p = lineFrame bs ∧
          d.stat (macTxBytes p) = (s.dev.stat (macTxBytes p)).add (bs.length + 4) ∧
          d.txtsOf p = s.dev.txtsOf p ∧ ∀ o, d.reg o = s.dev.reg o) ∧
        (∀ at_ v ip, s.dev.ptpAt p bs = some (at_, v, ip) →
          let one := mode = 2 ∧ getBE 1 bs at_ % 16 = 0 ∧ bit (bs.getD (at_ + 6) 0) 1 = false ∧ at_ + 44 ≤ bs.length
          (one → mget (fun _ => []) d.serial.lineOut p = lineFrame (oneStep bs at_ v ip t) ∧ d.txtsOf p = s.dev.txtsOf p) ∧
          (mode = 1 ∨ mode = 2 → ¬ one → mget (fun _ => []) d.serial.lineOut p = lineFrame bs ∧
            ((s.dev.txtsOf p).length < 64 → d.txtsOf p = s.dev.txtsOf p ++ [stampEntry bs at_ t]) ∧
            (64 ≤ (s.dev.txtsOf p).length → d.txtsOf p = s.dev.txtsOf p ∧
              (d.reg (macTxtsOvf p)).toNat = min ((s.dev.reg (macTxtsOvf p)).toNat + 1) 0xFFFFFFFF)))) ∧
      (s.dev.rbit (macStatus p) 31 = false → ∃ d : Dev, exec (.macTransmit p skew) s = .next (s.after d) ∧ d.macTx p = q ∧
        (d.reg (macTxDrop p)).toNat = min ((s.dev.reg (macTxDrop p)).toNat + 1) 0xFFFFFFFF ∧
        d.rbit (macEvent p) 2 = true ∧ d.serial.lineOut = s.dev.serial.lineOut))) ∧
  (∀ (id : Fin 13) (p : Fin 16) (s : State), s.dev.portIdle id = false →
    (s.dev.granted id 2 = true → ∃ d : Dev, exec (.macTxtsPop id p) s = .next (s.after d) ∧
      (∀ x q, s.dev.txtsOf p = x :: q → mget (fun _ => 0) d.readData id.val = setBit x.tag 31 true ∧ d.txtsOf p = q) ∧
      (s.dev.txtsOf p = [] → mget (fun _ => 0) d.readData id.val = 0 ∧ d.txtsOf p = []) ∧ ∀ o, d.reg o = s.dev.reg o) ∧
    (s.dev.granted id 2 = false →
      exec (.macTxtsPop id p) s = .next (s.after ((s.dev.ctrlDecode id false false (macTxts3 p)).setRead id 0))) ∧
    (id = 0 → ∃ d : Dev, exec (.macClear id p) s = .next (s.after d) ∧
      (∀ o, o ∈ [macRxFrames p, macRxBytes p, macTxFrames p, macTxBytes p, macFecCorr p] → d.stat o = Stat.zero) ∧
      (∀ o, o ∉ [macRxFrames p, macRxBytes p, macTxFrames p, macTxBytes p, macFecCorr p] → d.stat o = s.dev.stat o) ∧
      ∀ o, d.reg o = s.dev.reg o) ∧
    (id ≠ 0 → exec (.macClear id p) s = .next (s.after (s.dev.ctrlDecode id true false (macClear p))) ∧
      (∀ v, exec (.sdsPrbsCtrlWrite id p v) s = .next (s.after (s.dev.ctrlDecode id true false (sdsPrbsCtrl p)))) ∧
      exec (.prbsInject id p) s = .next (s.after (s.dev.ctrlDecode id true false (sdsPrbsCtrl p))))) ∧
  (∀ (id : Fin 13) (p : Fin 16) (s : State), s.dev.portIdle id = true → ∀ c, c ∈ [Instr.macTxtsPop id p, .macClear id p,
    .prbsInject id p] ∨ (∃ v, c = .sdsPrbsCtrlWrite id p v) → exec c s = .next (s.after s.dev)) ∧
  (∀ (n : Fin 16) (line : BitVec 800) (skew : BitVec 34) (s : State),
    let t := s.dev.stampAt skew (s.dev.reg (sdsRxCorr n))
    let los := (s.dev.rawLane n).lost || !s.dev.rbit (sdsStatus n) 30 || !s.dev.rbit (sdsStatus n) 28
    let f := s.dev.fld (sdsRawCfg n) 0 12
    (s.dev.rawOn n = true → s.dev.rbit (sdsCtrl n) 2 = true → ∃ (d : Dev) (flags : Byte) (units : List Byte),
      let head := putLE 2 (s.dev.rawLane n).rxSeq.toNat ++ [flags, 0]
      let bs := (if s.dev.dense n then head else putLE 4 (nsOf t) ++ head) ++ units
      exec (.rawRxCell n line skew) s = .next (s.after (if f ≠ 0 ∧ (s.dev.flow f).liveFrom n = true
        then d.judgeMessage n (cellsOf (BitVec.ofNat 12 f) (BitVec.ofNat 6 (s.dev.flow f).dest.toNat) 0 0 bs)
        else d.count (clsStale n))) ∧
      flags.getLsbD 0 = los ∧ ((s.dev.rawLane n).aligned = true → flags.getLsbD 2 = true) ∧ bs.length = 64 ∧
      (s.dev.laneMode n = 4 → flags.getLsbD 2 = (s.dev.rawLane n).aligned) ∧
      (s.dev.laneMode n = 4 → los = false → units = (putLE 60 line.toNat).take (if s.dev.dense n then 60 else 56) ∧
        flags.getLsbD 1 = false) ∧
      (d.rawLane n).rxSeq = (s.dev.rawLane n).rxSeq + 1 ∧ (d.rawLane n).lost = false ∧ (d.rawLane n).aligned = false ∧
      d.fab = s.dev.fab) ∧
    (s.dev.rawOn n = false ∨ s.dev.rbit (sdsCtrl n) 2 = false →
      (s.dev.isRaw n = true → s.dev.farLoop n = true → s.dev.loopback n ≠ 4 → ∃ d : Dev,
        exec (.rawRxCell n line skew) s = .next (s.after d) ∧
        mget (fun _ => []) d.serial.lineOut n = putLE 60 line.toNat ∧ d.fab = s.dev.fab ∧ ∀ o, d.reg o = s.dev.reg o) ∧
      (s.dev.isRaw n = true → s.dev.farLoop n = true → s.dev.loopback n = 4 → ∃ d : Dev,
        exec (.rawRxCell n line skew) s = .next (s.after d) ∧ d.fab = s.dev.fab ∧
        mget (fun _ => []) d.serial.lineOut n =
          ((s.dev.takeUnits n line.toNat).dev.unitsBack n (s.dev.takeUnits n line.toNat)).2 ∧
        (s.dev.laneMode n = 4 → mget (fun _ => []) d.serial.lineOut n =
          (putLE 60 line.toNat).take (if s.dev.dense n then 60 else 56))) ∧
      (s.dev.isRaw n = false ∨ s.dev.farLoop n = false → exec (.rawRxCell n line skew) s = .next (s.after s.dev)))) ∧
  (∀ (n : Fin 16) (s : State),
    let x := s.dev.rawLane n
    let line (d : Dev) : List Byte := mget (fun _ => []) d.serial.lineOut n
    (s.dev.rawOn n = true → ∃ d : Dev, exec (.rawTxCell n) s = .next (s.after d) ∧
      (s.dev.txOn n = false → d.serial.lineOut = s.dev.serial.lineOut) ∧
      (x.txQueue = [] → (d.rawLane n).txQueue = [] ∧ (s.dev.txOn n = true → line d = (s.dev.rawFill n).2) ∧
        ∀ o, d.reg o = s.dev.reg o) ∧
      (∀ c q, x.txQueue = c :: q →
        let bs := fit 64 c.payload
        let timed := s.dev.dense n = false ∧ bit (bs.getD 6 0) 7 = true
        let stays := timed ∧ laterSeq 32 (getLE 4 bs 0) (s.dev.ns.toNat % 2 ^ 32) = true ∧ x.waits = true
        (stays → (d.rawLane n).txQueue = c :: q ∧ (d.rawLane n).waits = true ∧
          (s.dev.txOn n = true → line d = (s.dev.rawFill n).2) ∧ ∀ o, d.reg o = s.dev.reg o) ∧
        (¬ stays → (d.rawLane n).txQueue = q ∧ (d.rawLane n).txSeq = x.txSeq + 1 ∧ (d.rawLane n).waits = s.dev.rawHead n q ∧
          (s.dev.txOn n = true → line d = (s.dev.rawUnits n bs).2) ∧
          (timed → x.waits = false → (d.reg (sdsRawLate n)).toNat = min ((s.dev.reg (sdsRawLate n)).toNat + 1) 0xFFFFFFFF) ∧
          (¬ timed ∨ x.waits = true → d.reg (sdsRawLate n) = s.dev.reg (sdsRawLate n)) ∧
          (d.reg (sdsRawUnderrun n)).toNat = (if q = [] then min ((s.dev.reg (sdsRawUnderrun n)).toNat + 1) 0xFFFFFFFF
            else (s.dev.reg (sdsRawUnderrun n)).toNat)))) ∧
    (s.dev.rawOn n = false → s.dev.laneTest n = true → s.dev.rbit (sdsPrbsCtrl n) 31 = true →
      ∃ d : Dev, exec (.rawTxCell n) s = .next (s.after d) ∧ (∀ o, d.reg o = s.dev.reg o) ∧
        let taps := prbsTaps (s.dev.fld (sdsPrbsCtrl n) 0 3)
        let seed := mget (fun _ => 0) s.dev.serial.prbs n
        let r := prbsBits taps 64 seed
        let sent := lineBits (s.dev.lanePam4 n) (if s.dev.rbit (sdsPrbsCtrl n) 29 then 2 ^ 64 - 1 - r.1 else r.1)
        (seed.toNat % 2 ^ taps.1 ≠ 0 → mget (fun _ => 0) d.serial.prbs n = r.2 ∧
          (s.dev.txOn n = true → line d = sent) ∧
          (s.dev.nearLoop n = true → mget (fun _ => []) d.serial.loopIn n = sent ∧ line d = line s.dev))) ∧
    (s.dev.rawOn n = false → s.dev.laneTest n = false ∨ s.dev.rbit (sdsPrbsCtrl n) 31 = false →
      (s.dev.isRaw n = true → s.dev.nearLoop n = true → s.dev.laneReset n = false →
        ∃ d : Dev, exec (.rawTxCell n) s = .next (s.after d) ∧ (∀ o, d.reg o = s.dev.reg o) ∧
          mget (fun _ => []) d.serial.loopIn n = (s.dev.rawFill n).2 ∧ line d = line s.dev) ∧
      (s.dev.isRaw n = false ∨ s.dev.nearLoop n = false ∨ s.dev.laneReset n = true →
        exec (.rawTxCell n) s = .next (s.after s.dev)))) ∧
  (∀ (n : Fin 16) (v : Word) (s : State),
    (bits v 0 3 ≤ 4 → ∃ d : Dev, exec (.sdsPrbsCtrlWrite 0 n v) s = .next (s.after d) ∧
      bits (d.reg (sdsPrbsCtrl n)) 0 3 = bits v 0 3 ∧ d.rbit (sdsPrbsCtrl n) 29 = v.getLsbD 29 ∧
      d.rbit (sdsPrbsCtrl n) 31 = (v.getLsbD 31 && (s.dev.laneTest n || s.dev.rbit (sdsPrbsCtrl n) 31)) ∧
      d.rbit (sdsPrbsCtrl n) 30 = (v.getLsbD 30 && (s.dev.laneTest n || s.dev.rbit (sdsPrbsCtrl n) 30)) ∧
      (d.rbit (sdsPrbsCtrl n) 30 = false → d.rbit (sdsPrbsStatus n) 31 = false) ∧
      (d.rbit (sdsPrbsCtrl n) 30 = true → s.dev.rbit (sdsPrbsCtrl n) 30 = false → v.getLsbD 28 = false →
        d.reg (sdsPrbsErr n) = 0 ∧ d.stat (sdsPrbsBits n) = Stat.zero) ∧
      ∀ o, o ≠ sdsPrbsCtrl n → o ≠ sdsPrbsErr n → o ≠ sdsPrbsStatus n → d.reg o = s.dev.reg o) ∧
    (4 < bits v 0 3 → exec (.sdsPrbsCtrlWrite 0 n v) s = .next (s.after s.dev))) ∧
  (∀ (n : Fin 16) (s : State), bits (s.dev.reg (sdsPrbsCtrl n)) 0 3 ≤ 4 →
    ∃ d : Dev, exec (.prbsInject 0 n) s = .next (s.after d) ∧ d.reg (sdsPrbsCtrl n) = s.dev.reg (sdsPrbsCtrl n) &&& 0xE0000007 ∧
      mget (fun _ => 0) d.serial.prbsInject n =
        mget (fun _ => 0) s.dev.serial.prbsInject n + (if s.dev.rbit (sdsPrbsCtrl n) 31 then 1 else 0) ∧
      (d.reg (sdsPrbsErr n)).toNat = (if s.dev.rbit (sdsPrbsCtrl n) 31 && s.dev.rbit (sdsPrbsCtrl n) 30 &&
          s.dev.rbit (sdsPrbsStatus n) 31 && s.dev.nearLoop n
        then min ((s.dev.reg (sdsPrbsErr n)).toNat + 1) 0xFFFFFFFF else (s.dev.reg (sdsPrbsErr n)).toNat)) ∧
  (∀ (n : Fin 16) (errs : Word) (k : BitVec 48) (s : State),
    (s.dev.rbit (sdsPrbsCtrl n) 30 = true → s.dev.laneTest n = true →
      ∃ d : Dev, exec (.prbsCheckerLock n errs k) s = .next (s.after d) ∧
        d.rbit (sdsPrbsStatus n) 31 = true ∧ d.stat (sdsPrbsBits n) = (s.dev.stat (sdsPrbsBits n)).add k.toNat ∧
        (d.reg (sdsPrbsErr n)).toNat =
          min ((s.dev.reg (sdsPrbsErr n)).toNat + (if s.dev.nearLoop n then 0 else errs.toNat)) 0xFFFFFFFF) ∧
    (s.dev.rbit (sdsPrbsCtrl n) 30 = false ∨ s.dev.laneTest n = false →
      exec (.prbsCheckerLock n errs k) s = .next (s.after s.dev)) ∧
    (s.dev.rbit (sdsPrbsStatus n) 31 = true → 32 ≤ errs.toNat → errs.toNat ≤ k.toNat →
      ∃ d : Dev, exec (.prbsCheckerLoss n errs k) s = .next (s.after d) ∧ d.rbit (sdsPrbsStatus n) 31 = false ∧
        d.stat (sdsPrbsBits n) = (s.dev.stat (sdsPrbsBits n)).add k.toNat ∧
        (d.reg (sdsPrbsErr n)).toNat = min ((s.dev.reg (sdsPrbsErr n)).toNat + errs.toNat) 0xFFFFFFFF) ∧
    (s.dev.rbit (sdsPrbsStatus n) 31 = false ∨ errs.toNat < 32 ∨ k.toNat < errs.toNat →
      exec (.prbsCheckerLoss n errs k) s = .next (s.after s.dev))) ∧
  (∀ (r : Req) (rest : List Req) (s : State), s.dev.Takes 0x0800 r rest →
    checkParams r 24 (zb [1, 2, 3, 21, 22, 23] ++ [(20, 0xFE)]) [(0, 1, 0, 15)] = none →
    let d := s.dev.taken r rest
    let p := r.u 1 0
    let sds : Word := BitVec.ofNat 32 (r.u 4 4)
    let mac : Word := BitVec.ofNat 32 (r.u 4 12)
    let ms := memberLanes p sds mac
    let x := d.portSteps (ms.map (fun n => fixedWrite (sdsCfg n) sds) ++ [fixedWrite (sdsRate p) (BitVec.ofNat 32 (r.u 4 8))])
    let y := x.1.portSteps [fixedWrite (macCfg p) mac]
    let refused := mac.getLsbD 31 = true ∧ x.1.macCfgOk p (mac &&& 0x8F0FC000) = false
    let z := y.1.portSteps (fixedWrite (macCtrl p) (BitVec.ofNat 32 (r.u 4 16)) ::
      (if r.u 1 20 % 2 = 1 then ms.map bringUpWrite else []))
    (∀ a, x.2 = some a → exec .portConfig s = .next (s.answered x.1 r a.1 a.2)) ∧
    (∀ a, x.2 = none → y.2 = some a → exec .portConfig s = .next (s.answered y.1 r a.1 a.2)) ∧
    (x.2 = none → y.2 = none → refused → exec .portConfig s = .next (s.answered y.1 r stBadParam (errPayload detState 0))) ∧
    (∀ a, x.2 = none → y.2 = none → ¬ refused → z.2 = some a → exec .portConfig s = .next (s.answered z.1 r a.1 a.2)) ∧
    (x.2 = none → y.2 = none → ¬ refused → z.2 = none →
      exec .portConfig s = .next (s.answered z.1 r stOk
        (putLE 4 (z.1.seen (sdsStatus p)).toNat ++ putLE 4 (z.1.seen (macStatus p)).toNat)))) ∧
  (∀ (d : Dev) (off : Nat) (v : Dev → Word) (l : List (Nat × (Dev → Word))),
    ((d.hiveWriteReg off (v d)).2 = true → d.portSteps ((off, v) :: l) = (d.hiveWriteReg off (v d)).1.portSteps l) ∧
    ((d.hiveWriteReg off (v d)).2 = false → d.portSteps ((off, v) :: l) = ((d.hiveWriteReg off (v d)).1,
      if 0x300000 ≤ off ∧ off < 0x380000 ∧ (off - 0x300000) % 0x8000 = 8 then some ansFence else some (ansBad detDecode off)))) ∧
  (∀ (r : Req) (rest : List Req) (s : State), s.dev.Takes 0x0801 r rest →
    checkParams r 8 ([(4, 0xF8)] ++ zb [5, 6, 7]) [(0, 1, 0, 15), (1, 1, 0, 1), (2, 1, 0, 4), (3, 1, 0, 4)] = none →
    ((s.dev.taken r rest).inRetired = false →
      let n := r.u 1 0
      let d := (s.dev.taken r rest).laneTestWrites n r
      let e := d.rcRead (sdsPrbsErr n)
      let l := e.2.statLatch 0 (sdsPrbsBits n) (e.2.stat (sdsPrbsBits n))
      exec .laneTest s = .next (s.answered l.2 r stOk (putLE 4 (d.reg (sdsPrbsStatus n)).toNat ++ putLE 4 e.1.toNat ++
        putLE 4 l.1.toNat ++ putLE 4 (l.2.idReg 0 (sdsPrbsBits n + 4)).toNat))) ∧
    ((s.dev.taken r rest).inRetired = true →
      exec .laneTest s = .next (s.answered (s.dev.taken r rest) r stDeniedLifecycle (errPayload 0 0)))) ∧
  (∀ (d : Dev) (n : Fin 16) (r : Req), d.inRetired = false → r.u 1 2 ≤ 4 → r.u 1 3 ≤ 4 →
    (r.u 1 1 = 1 → (d.laneTestWrites n r).rbit (sdsCtrl n) 31 = true ∧ (d.laneTestWrites n r).fld (sdsCtrl n) 28 3 = r.u 1 2 ∧
      (d.laneTestWrites n r).fld (sdsPrbsCtrl n) 0 3 = r.u 1 3 ∧
      (d.laneTestWrites n r).rbit (sdsPrbsCtrl n) 31 = (r.u 1 4).testBit 0 ∧
      (d.laneTestWrites n r).rbit (sdsPrbsCtrl n) 30 = (r.u 1 4).testBit 1) ∧
    (r.u 1 1 = 0 → bits (d.reg (sdsPrbsCtrl n)) 0 3 ≤ 4 → (d.laneTestWrites n r).rbit (sdsCtrl n) 31 = false ∧
      (d.laneTestWrites n r).fld (sdsCtrl n) 28 3 = 0 ∧
      (d.laneTestWrites n r).rbit (sdsPrbsCtrl n) 31 = false ∧ (d.laneTestWrites n r).rbit (sdsPrbsCtrl n) 30 = false))

/-- The DMA_CH_CTRL commands, DMA_ISSUE, the answers, retries and the wait limit, and the XLT_ commands complete with the effects of chapter 10 (R479, R480, R486, R490, R491, R493, R494, R495, R496, R498, R500, R503). -/
def Obligations.DmaChannelsRunFaultAndTranslate : Prop :=
  (∀ (id : Fin 13) (e : Fin 2) (c : Fin 16) (k : Nat) (v : Word) (s : State), k ∈ [29, 30, 31] →
    let cmd : Instr := if k = 31 then .dmaChGo id e c v else if k = 30 then .dmaChResume id e c v else .dmaChAbort id e c v
    let w := setBit v k true
    let may := id = 0 ∨ (s.dev.granted id 5 = true ∧ s.dev.ownsChan id e c = true)
    let x := s.dev.dmaChan e c
    let started (d : Dev) : Prop := (d.dmaChan e c).state = .active ∨ ((d.dmaChan e c).state = .preempted ∧
      ∃ h, (s.dev.dmaEng e).holder = some h ∧ s.dev.chPriority e h < s.dev.chPriority e c)
    (s.dev.portIdle id = true → exec cmd s = .next (s.after s.dev)) ∧
    (s.dev.portIdle id = false → ¬ may → exec cmd s = .next (s.after (s.dev.ctrlDecode id true false (dmaChBase e c + 4)))) ∧
    (s.dev.portIdle id = false → may →
      (x.state = .idle → bit w 31 = true → ∃ d : Dev, exec cmd s = .next (s.after d) ∧
        started d ∧ (d.dmaChan e c).errMsg = false ∧ (d.dmaChan e c).desc = [] ∧
        (d.dmaChan e c).result = x.result ∧ d.regs = s.dev.regs ∧
        ∀ i j, i < 2 → j < 16 → (i ≠ e.val ∨ j ≠ c.val) → d.dmaChan i j = s.dev.dmaChan i j ∨
          ((s.dev.dmaEng i).holder ≠ none ∧ (s.dev.dmaChan i j).state = .active ∧
            d.dmaChan i j = { s.dev.dmaChan i j with state := .preempted })) ∧
      (x.state = .faulted → bit w 30 = true → bit w 29 = false → ∃ d : Dev, exec cmd s = .next (s.after d) ∧
        started d ∧ d.dmaChan e c = { x with state := (d.dmaChan e c).state } ∧ (∀ r, r ∈ (d.dmaEng e).fq → recChan r ≠ e.val * 16 + c.val) ∧
        (∀ r, r ∈ d.dma.slq → recChan r ≠ e.val * 16 + c.val) ∧ d.regs = s.dev.regs) ∧
      (x.state ≠ .idle → bit w 29 = true → ∃ d : Dev, exec cmd s = .next (s.after d) ∧
        ((∀ r, r ∈ (s.dev.dmaEng e).reqs → r.chan ≠ c ∨ r.lost = true) → (d.dmaChan e c).state = .idle ∧ (d.dmaChan e c).result = 1) ∧
        ((∃ r, r ∈ (s.dev.dmaEng e).reqs ∧ r.chan = c ∧ r.lost = false) → (d.dmaChan e c).state = .aborting ∧ (d.dmaChan e c).ending = 1) ∧
        (d.dmaChan e c).fault = none ∧ (∀ r, r ∈ (d.dmaEng e).fq → recChan r ≠ e.val * 16 + c.val) ∧
        (∀ r, r ∈ d.dma.slq → recChan r ≠ e.val * 16 + c.val)) ∧
      ((x.state = .idle ∧ bit w 31 = false) ∨ (x.state ≠ .idle ∧ bit w 29 = false ∧ (bit w 30 = false ∨ x.state ≠ .faulted)) →
        exec cmd s = .next (s.after s.dev)))) ∧
  (∀ (id : Fin 13) (e : Fin 2) (v : Word) (s : State), s.dev.portIdle id = false →
    (id = 0 ∨ (s.dev.granted id 5 = true ∧ s.dev.ownsEngine id e = true) →
      (v.getLsbD 0 = true → ∃ d : Dev, exec (.dmaFqPop id e v) s = .next (s.after d) ∧
        d.dmaEng e = { s.dev.dmaEng e with fq := (s.dev.dmaEng e).fq.tail } ∧ d.regs = s.dev.regs) ∧
      (v.getLsbD 0 = false → exec (.dmaFqPop id e v) s = .next (s.after s.dev))) ∧
    (¬ (id = 0 ∨ (s.dev.granted id 5 = true ∧ s.dev.ownsEngine id e = true)) →
      exec (.dmaFqPop id e v) s = .next (s.after (s.dev.ctrlDecode id true false (dmaBase e + 0xC)))) ∧
    (id = 0 → v.getLsbD 0 = true →
      (∃ d : Dev, exec (.dmaClear id e v) s = .next (s.after d) ∧ d.stat (dmaBytes e) = Stat.zero ∧
        (∀ c, c < 16 → d.stat (dmaChBytes e c) = Stat.zero) ∧ d.regs = s.dev.regs) ∧
      (∃ d : Dev, exec (.xltSlqPop id v) s = .next (s.after d) ∧ d.dma = { s.dev.dma with slq := s.dev.dma.slq.tail } ∧
        d.regs = s.dev.regs) ∧
      (∃ d : Dev, exec (.xltClear id v) s = .next (s.after d) ∧ d.stat xltWalks = Stat.zero ∧ d.stat xltMiss = Stat.zero ∧
        d.dma = s.dev.dma ∧ d.regs = s.dev.regs)) ∧
    (id = 0 → v.getLsbD 0 = false → exec (.dmaClear id e v) s = .next (s.after s.dev) ∧
      exec (.xltSlqPop id v) s = .next (s.after s.dev) ∧ exec (.xltClear id v) s = .next (s.after s.dev)) ∧
    (id ≠ 0 → exec (.dmaClear id e v) s = .next (s.after (s.dev.ctrlDecode id true false (dmaBase e + 0x44))) ∧
      exec (.xltSlqPop id v) s = .next (s.after (s.dev.ctrlDecode id true false 0x580014)) ∧
      exec (.xltClear id v) s = .next (s.after (s.dev.ctrlDecode id true false 0x580050)) ∧
      exec (.xltInval id v) s = .next (s.after (s.dev.ctrlDecode id true false xltInval)) ∧
      ∀ (a : Fin 64) (r : Fin 3), exec (.xltSpaceWrite id a r v) s =
        .next (s.after (s.dev.ctrlDecode id true false (xltAsCfg a + 4 * r.val))))) ∧
  (∀ (id : Fin 13) (e : Fin 2) (v : Word) (s : State), s.dev.portIdle id = true →
    exec (.dmaFqPop id e v) s = .next (s.after s.dev) ∧ exec (.dmaClear id e v) s = .next (s.after s.dev) ∧
    exec (.xltSlqPop id v) s = .next (s.after s.dev) ∧ exec (.xltClear id v) s = .next (s.after s.dev) ∧
    exec (.xltInval id v) s = .next (s.after s.dev) ∧
    ∀ (a : Fin 64) (r : Fin 3), exec (.xltSpaceWrite id a r v) s = .next (s.after s.dev)) ∧
  (∀ (e : Fin 2) (c : Nat) (ahead behind : List Nat) (s : State) (d' : Dev),
    let d0 := (s.dev.dmaSuspend e).flowsGone e
    d0.dmaOrder e = ahead ++ c :: behind → (∀ j, j ∈ ahead → d0.chanAct e j = none) → d0.chanAct e c = some d' →
    ∃ d : Dev, exec (.dmaIssue e) s = .next (s.after d) ∧ (d.dmaEng e).reqs = (d'.dmaEng e).reqs ∧
      (d.dmaEng e).walk = (d'.dmaEng e).walk ∧
      ((d'.dmaChan e c).state = .active ∨ (d'.dmaChan e c).state = .preempted →
        (d.dmaChan e c).state = .active ∧ (d.dmaEng e).holder = some (Fin.ofNat 16 c))) ∧
  (∀ (e : Fin 2) (s : State), (s.dev.dmaEng e).reqs = [] →
    (∀ j, j < 16 → (s.dev.dmaChan e j).state ∉ [ChState.active, .preempted, .waitTest]) →
    ∃ d : Dev, exec (.dmaIssue e) s = .next (s.after d) ∧ (d.dmaEng e).holder = none ∧ (d.dmaEng e).reqs = [] ∧
      (d.dmaEng e).walk = (s.dev.dmaEng e).walk ∧ (d.dmaEng e).fq = (s.dev.dmaEng e).fq ∧
      ∀ j, j < 16 → (d.dmaChan e j).state = (s.dev.dmaChan e j).state) ∧
  (∀ (e : Fin 2) (c : Fin 16) (s : State), (s.dev.dmaEng e).reqs = [] → (s.dev.dmaEng e).walk = none →
    (s.dev.dmaChan e c).groups = [] → (s.dev.dmaChan e c).fault = none →
    (∀ j, j < 16 → j ≠ c.val → (s.dev.dmaChan e j).state = .idle) →
    let x := s.dev.dmaChan e c
    let bypass := s.dev.rbit (xltAsCfg (s.dev.chSpace e c)) 31 = true ∧ s.dev.rbit (xltAsCfg (s.dev.chSpace e c)) 30 = true
    let goes (va k cells : Nat) : Prop := s.dev.serverOf va = some k ∧ s.dev.routeOk e k = true ∧
      s.dev.serverSuspended k = false ∧ s.dev.canSend e k cells = true
    (x.state = .active → x.desc = [] → x.asked = false → s.dev.chDesc e c % 32 ≠ 0 →
      ∃ d, exec (.dmaIssue e) s = .next (s.after d) ∧ (d.dmaChan e c).state = .idle ∧ (d.dmaChan e c).result = 2) ∧
    (∀ k, x.desc = [] → x.asked = false → s.dev.chDesc e c % 32 = 0 → bypass → goes (s.dev.chDesc e c) k 1 →
      (x.state = .active → ∃ d tag, exec (.dmaIssue e) s = .next (s.after d) ∧ (d.dmaChan e c).asked = true ∧
        (d.dmaEng e).reqs = [{ tag := tag, chan := c, kind := .desc, server := k, cells := 1, dead := false, lost := false }]) ∧
      (x.state = .waitTest → x.trying = none →
        ∃ d tag, exec (.dmaWaitTestRetry e c) s = .next (s.after d) ∧ (d.dmaChan e c).trying = some tag ∧
        (d.dmaChan e c).state = .waitTest ∧
        (d.dmaEng e).reqs = [{ tag := tag, chan := c, kind := .desc, server := k, cells := 1, dead := false, lost := false }])) ∧
    (∀ va n k k2, x.state = .active → bypass →
      ((isM2M x.desc = true ∧ x.next < x.stop ∧ x.kept = [] ∧ m2mSpan x.desc x.next = (n, [(va, n)]) ∧
          s.dev.serverOf ((dDst x.desc + x.next) % 2 ^ 40) = some k2 ∧ k2 ≠ 20 ∧ s.dev.routeOk e k2 = true) ∨
        (isM2F x.desc = true ∧ s.dev.flowOk e x.desc = true ∧ x.sent < dLen x.desc ∧ x.next < x.stop ∧
          va = (dSrc x.desc + x.next) % 2 ^ 40 ∧ n = min (dLen x.desc - x.next) (4096 - va % 4096))) →
      goes va k ((79 + n) / 64) →
      ∃ d tag, exec (.dmaIssue e) s = .next (s.after d) ∧ (d.dmaChan e c).next = x.next + n ∧
        (d.dmaChan e c).groups = [{ off := x.next, len := n, parts := [(va, n)], data := [], st := .reading }] ∧
        (d.dmaEng e).reqs =
          [{ tag := tag, chan := c, kind := .read x.next, server := k, cells := (79 + n) / 64, dead := false, lost := false }]) ∧
    (x.state = .active → isM2M x.desc = true → x.next = x.stop →
      ∃ d, exec (.dmaIssue e) s = .next (s.after d) ∧
        (dChain x.desc = false → (d.dmaChan e c).state = .idle ∧ (d.dmaChan e c).result = 0) ∧
        (dChain x.desc = true → (d.dmaChan e c).state = .active ∧ (d.dmaChan e c).desc = [] ∧
          d.chDesc e c = dNext x.desc))) ∧
  (∀ (e : Fin 2) (c : Fin 16) (s : State), (s.dev.dmaEng e).reqs = [] →
    (s.dev.dmaChan e c).state ≠ .waitTest ∨ (s.dev.dmaChan e c).trying ≠ none →
    ∃ d : Dev, exec (.dmaWaitTestRetry e c) s = .next (s.after d) ∧ (d.dmaEng e).reqs = [] ∧
      (∀ j, j < 16 → d.dmaChan e j = s.dev.dmaChan e j) ∧ d.regs = s.dev.regs) ∧
  (∀ (e : Fin 2) (c : Fin 16) (g : DmaGroup) (k : Nat) (s : State), (s.dev.dmaEng e).reqs = [] →
    (s.dev.dmaChan e c).state = .waitTest → (s.dev.dmaChan e c).trying = none → isM2M (s.dev.dmaChan e c).desc = true →
    ((s.dev.dmaChan e c).groups.filter (s.dev.dmaChan e c).unsent).head? = some g → g.st = .toWrite →
    (s.dev.dmaChan e c).groups.find? (fun h => decide (h.off = g.off)) = some g → (s.dev.dmaEng e).walk = none →
    s.dev.rbit (xltAsCfg (s.dev.chSpace e c)) 31 = true → s.dev.rbit (xltAsCfg (s.dev.chSpace e c)) 30 = true →
    s.dev.serverOf ((s.dev.dmaChan e c).dstOf g) = some k → k ≠ 20 → s.dev.routeOk e k = true →
    s.dev.serverSuspended k = false → s.dev.canSend e k 1 = true →
    ∃ d tag, exec (.dmaWaitTestRetry e c) s = .next (s.after d) ∧ (d.dmaChan e c).trying = some tag ∧
      (d.dmaEng e).reqs = [{ tag := tag, chan := c, kind := .write g.off, server := k, cells := 1, dead := false, lost := false }]) ∧
  (∀ (e : Fin 2) (f : BitVec 12) (m rest : List Cell) (r : DmaReq) (s : State), s.dev.isReplyFlow e f.toNat = true →
    takeMessage f (s.dev.rxCells (49 + e.val)) = some (m, rest) →
    (s.dev.dmaEng e).reqs.find? (fun r => decide (r.tag.toNat = getLE 2 (messageBytes m) 6)) = some r →
    let bs := messageBytes m
    let status := getLE 2 bs 14
    let alone := ∀ q, q ∈ (s.dev.dmaEng e).reqs → q.chan = r.chan → q.tag = r.tag
    let cmd : Instr := match r.kind with
      | .desc => .dmaDescFetched e f
      | .walk => .dmaWalkDone e f
      | .read _ => .dmaAnswer e f
      | .write _ => .dmaAnswer e f
    (∀ i, i ∈ [Instr.dmaDescFetched e f, .dmaWalkDone e f, .dmaAnswer e f] → i ≠ cmd → exec i s = .next (s.after s.dev)) ∧
    (r.dead = true → ∃ d : Dev, exec cmd s = .next (s.after d) ∧
      (d.dmaEng e).reqs = (s.dev.dmaEng e).reqs.filter (fun q => decide (q.tag ≠ r.tag)) ∧
      ((s.dev.dmaChan e r.chan).state = .aborting → alone →
        (d.dmaChan e r.chan).state = .idle ∧ (d.dmaChan e r.chan).result = (s.dev.dmaChan e r.chan).ending)) ∧
    (∀ w, r.dead = false → r.kind = .walk → (s.dev.dmaEng e).walk = some w → w.stale = true →
      ∃ d : Dev, exec cmd s = .next (s.after d) ∧ (d.dmaChan e r.chan).state = (s.dev.dmaChan e r.chan).state ∧
        (d.dmaEng e).walk = some { w with
          level := 1, entry := entryAddr (s.dev.rootOf w.space) 1 w.va, asked := false,
          stale := s.dev.dma.inval.any (fun x => x.names w.space w.va) }) ∧
    (r.dead = false → s.dev.staleWalk e r = none → m.any (fun c => c.err) = false → (s.dev.dmaChan e r.chan).state = .active →
      (s.dev.dmaChan e r.chan).fault = none →
      (r.kind = .desc → status = 0 → bs.length = 48 → ∃ d : Dev, exec cmd s = .next (s.after d) ∧
        (s.dev.descOk e (bs.drop 16) (s.dev.dmaChan e r.chan).msgOpen = true → (d.dmaChan e r.chan).desc = bs.drop 16 ∧
          (d.dmaChan e r.chan).next = 0 ∧ (d.dmaChan e r.chan).stop = getLE 4 (bs.drop 16) 4) ∧
        (s.dev.descOk e (bs.drop 16) (s.dev.dmaChan e r.chan).msgOpen = false → alone →
          (d.dmaChan e r.chan).state = .idle ∧ (d.dmaChan e r.chan).result = 2)) ∧
      (∀ w, r.kind = .walk → status = 0 → bs.length = 24 → (s.dev.dmaEng e).walk = some w →
        w.stale = false → w.level = 3 → getLE 8 (bs.drop 16) 0 = 0x500F →
        ∃ d : Dev, exec cmd s = .next (s.after d) ∧ (d.dmaEng e).walk = none ∧
          (d.dmaEng e).tlb.head? = some { space := w.space, shift := 12, vpn := w.va / 4096, ppn := 5, r := true, w := true }) ∧
      (∀ off g len, r.kind = .read off → status = 0 →
        (s.dev.dmaChan e r.chan).groups.find? (fun g => decide (g.off = off)) = some g → g.parts.head?.map (·.2) = some len →
        bs.length = 16 + len → ∃ d : Dev, exec cmd s = .next (s.after d) ∧
          (d.dmaChan e r.chan).groups = (s.dev.dmaChan e r.chan).groups.map (fun h => if h.off = off then
            { h with data := h.data ++ bs.drop 16, parts := h.parts.tail,
                     st := if h.parts.tail = [] then .toWrite else .toRead } else h)) ∧
      (∀ off g, r.kind = .write off → status = 0 → bs.length = 16 →
        (s.dev.dmaChan e r.chan).groups.find? (fun g => decide (g.off = off)) = some g →
        ∃ d : Dev, exec cmd s = .next (s.after d) ∧ d.stat (dmaBytes e) = (s.dev.stat (dmaBytes e)).add g.len ∧
          d.stat (dmaChBytes e r.chan) = (s.dev.stat (dmaChBytes e r.chan)).add g.len) ∧
      (status = stInTest → ∃ d : Dev, exec cmd s = .next (s.after d) ∧ (d.dmaChan e r.chan).state = .waitTest) ∧
      (status = stBadParam → getLE 1 bs 13 = 7 → alone →
        ∃ d : Dev, exec cmd s = .next (s.after d) ∧ (d.dmaChan e r.chan).state = .idle ∧ (d.dmaChan e r.chan).result = 4) ∧
      (∀ off, r.kind = .write off → status = stBadParam → getLE 1 bs 13 ∈ [4, 9, 5] → s.dev.chLevel e r.chan = 0 →
        isM2M (s.dev.dmaChan e r.chan).desc = true → (∀ h, h ∈ (s.dev.dmaChan e r.chan).groups → off ≤ h.off) →
        ∃ (d : Dev) (rec : List Byte), exec cmd s = .next (s.after d) ∧ (d.dmaChan e r.chan).state = .faulted ∧
          (d.dmaChan e r.chan).next = off ∧ (d.dmaEng e).fq = (s.dev.dmaEng e).fq ++ [rec] ∧
          (getLE 1 rec 0, getLE 1 rec 1) = (if getLE 1 bs 13 = 4 then (3, 0x20)
            else if getLE 1 bs 13 = 9 then (3, 0x21) else (5, 0x40))))) ∧
  (∀ (e : Fin 2) (f : BitVec 12) (s : State), ∀ i, i ∈ [Instr.dmaDescFetched e f, .dmaWalkDone e f, .dmaAnswer e f] →
    s.dev.isReplyFlow e f.toNat = false ∨ takeMessage f (s.dev.rxCells (49 + e.val)) = none →
    exec i s = .next (s.after s.dev)) ∧
  (∀ (e : Fin 2) (f : BitVec 12) (m rest : List Cell) (s : State), s.dev.isReplyFlow e f.toNat = true →
    takeMessage f (s.dev.rxCells (49 + e.val)) = some (m, rest) →
    (s.dev.dmaEng e).reqs.find? (fun r => decide (r.tag.toNat = getLE 2 (messageBytes m) 6)) = none →
    exec (.dmaAnswer e f) s = .next (s.after (s.dev.setRx (49 + e.val) rest)) ∧
    exec (.dmaDescFetched e f) s = .next (s.after s.dev) ∧ exec (.dmaWalkDone e f) s = .next (s.after s.dev)) ∧
  (∀ (e : Fin 2) (f : Fin 4096) (s : State),
    (s.dev.isReplyFlow e f = false → exec (.dmaF2mCell e f) s = .next (s.after (s.dev.handover (49 + e.val) f true))) ∧
    (s.dev.isReplyFlow e f = true → exec (.dmaF2mCell e f) s = .next (s.after s.dev))) ∧
  (∀ (e : Fin 2) (c : Fin 16) (at_ : Nat) (s : State),
    let x := s.dev.dmaChan e c
    let group := ∃ g, isM2M x.desc = true ∧ (x.groups.filter x.unsent).head? = some g ∧ at_ = g.off ∧ ∀ h, h ∈ x.groups → g.off ≤ h.off
    let fetch := x.desc = [] ∧ x.asked = false ∧ at_ = 0
    x.state = .waitTest → s.dev.fld (dmaEngCfg e) 16 8 ≠ 0 → x.trying = none → (s.dev.dmaEng e).walk = none → x.fault = none →
    s.dev.chLevel e c = 0 → group ∨ fetch →
    ∃ d rec, exec (.dmaTestWaitExpiry e c) s = .next (s.after d) ∧ (d.dmaChan e c).state = .faulted ∧
      (d.dmaChan e c).next = at_ ∧ (d.dmaEng e).fq = (s.dev.dmaEng e).fq ++ [rec] ∧ getLE 1 rec 0 = 4 ∧
      (getLE 1 rec 1 = 0x30 ∨ getLE 1 rec 1 = 0x31) ∧ (fetch → getLE 1 rec 3 = 0 ∧ getLE 5 rec 4 = s.dev.chDesc e c) ∧
      recChan rec = e.val * 16 + c.val ∧
      (d.reg (dmaChFaults e c)).toNat = min ((s.dev.reg (dmaChFaults e c)).toNat + 1) 0xFFFFFFFF) ∧
  (∀ (e : Fin 2) (c : Fin 16) (s : State), (s.dev.dmaChan e c).state ≠ .waitTest ∨ s.dev.fld (dmaEngCfg e) 16 8 = 0 →
    exec (.dmaTestWaitExpiry e c) s = .next (s.after s.dev)) ∧
  (∀ (v : Word) (s : State),
    let a := bits v 0 6
    let va := (s.dev.reg (xltInvalVa 0)).toNat + s.dev.fld (xltInvalVa 1) 0 8 * 2 ^ 32
    (s.dev.dma.inval = none → bits v 28 2 ≠ 3 → ∃ d : Dev, exec (.xltInval 0 v) s = .next (s.after d) ∧
      d.dma.inval = some (if bits v 28 2 = 0 then .all else if bits v 28 2 = 1 then .space a else .page a va) ∧
      (∀ e, e < 2 → (d.dmaEng e).tlb = (s.dev.dmaEng e).tlb.filter (fun t => if bits v 28 2 = 0 then false
        else if bits v 28 2 = 1 then decide (t.space ≠ a) else !t.covers a va)) ∧ d.regs = s.dev.regs) ∧
    (s.dev.dma.inval ≠ none ∨ bits v 28 2 = 3 → exec (.xltInval 0 v) s = .next (s.after s.dev))) ∧
  (∀ s : State, ∃ d : Dev, exec .xltInvalDone s = .next (s.after d) ∧ d.dma.inval = none ∧ d.regs = s.dev.regs ∧
    ∀ e, e < 2 → (d.dmaEng e).walk = (s.dev.dmaEng e).walk.map (fun w => if w.stale && !w.asked
      then { w with level := 1, entry := entryAddr (s.dev.rootOf w.space) 1 w.va, asked := false, stale := false } else w)) ∧
  (∀ (a : Fin 64) (r : Fin 3) (v : Word) (s : State),
    ∃ d : Dev, exec (.xltSpaceWrite 0 a r v) s = .next (s.after d) ∧
      d.reg (xltAsCfg a + 4 * r.val) = v &&& (if r = 0 then 0xC0000000 else if r = 1 then 0xFFFFE000 else 0xFF) ∧
      (∀ o, o ≠ xltAsCfg a + 4 * r.val → d.reg o = s.dev.reg o) ∧
      ∀ e, e < 2 → (d.dmaEng e).tlb = (s.dev.dmaEng e).tlb.filter (fun t => decide (t.space ≠ a.val)))

/-- GPIO, PMUX, scan and transfer writes, samples, module scans, bus faults and the test port's instructions complete with their effects (R562, R585, R587, R590, R591, R592, R596, R597, R598, R599, R604, R675). -/
def Obligations.PinsModulesAndTestPortActOnCommands : Prop :=
  (∀ (id : Fin 13) (q : Fin 15) (v : Word) (s : State), s.dev.portIdle id = false → s.dev.gpioReach id q = true →
    let may (k : Nat) : Bool := (s.dev.gpioOwn id q).testBit k && !(s.dev.selMask q).testBit k
    let bad (m : Nat → Bool) (k : Nat) : Prop := id = 0 ∧ m k = true ∧ may k = true ∧ v.getLsbD k = true ∧
      (s.dev.reg (gpioOe q)).getLsbD k = false ∧ s.dev.pinPermit (16 * q.val + k) = false
    let writes (i : Instr) (o : Nat) (m : Nat → Bool) : Prop := ∃ d : Dev, exec i s = .next (s.after d) ∧
      (∀ x, x ≠ o → d.reg x = s.dev.reg x) ∧
      ∀ k, k < 16 → (d.reg o).getLsbD k = if m k && may k then v.getLsbD k else (s.dev.reg o).getLsbD k
    let some_ (k : Nat) : Bool := v.getLsbD (16 + k)
    writes (.gpioOutWrite id q v) (gpioOut q) (fun _ => true) ∧ writes (.gpioOutMasked id q v) (gpioOut q) some_ ∧
    ((∀ k, k < 16 → ¬ bad (fun _ => true) k) → writes (.gpioOeWrite id q v) (gpioOe q) (fun _ => true)) ∧
    ((∀ k, k < 16 → ¬ bad some_ k) → writes (.gpioOeMasked id q v) (gpioOe q) some_) ∧
    (∀ k, k < 16 → bad (fun _ => true) k → (∀ j, j < k → ¬ bad (fun _ => true) j) → exec (.gpioOeWrite id q v) s =
      .next (s.after ((s.dev.fenceRefuse 1 (16 * q.val + k) (gpioOe q)).ctrlDecode id true false (gpioOe q)))) ∧
    (∀ k, k < 16 → bad some_ k → (∀ j, j < k → ¬ bad some_ j) → exec (.gpioOeMasked id q v) s =
      .next (s.after ((s.dev.fenceRefuse 1 (16 * q.val + k) (gpioBase q + 0x10)).ctrlDecode id true false (gpioBase q + 0x10))))) ∧
  (∀ (id : Fin 13) (q : Fin 15) (v : Word) (s : State), s.dev.portIdle id = false → s.dev.gpioReach id q = false →
    exec (.gpioOutWrite id q v) s = .next (s.after (s.dev.ctrlDecode id true false (gpioOut q))) ∧
    exec (.gpioOeWrite id q v) s = .next (s.after (s.dev.ctrlDecode id true false (gpioOe q))) ∧
    exec (.gpioOutMasked id q v) s = .next (s.after (s.dev.ctrlDecode id true false (gpioBase q + 8))) ∧
    exec (.gpioOeMasked id q v) s = .next (s.after (s.dev.ctrlDecode id true false (gpioBase q + 0x10)))) ∧
  (∀ (id : Fin 13) (v : Word) (s : State), s.dev.portIdle id = false → id ≠ 0 →
    (∀ p : Fin 240, exec (.pmuxPinWrite id p v) s = .next (s.after (s.dev.ctrlDecode id true false (pmuxPin p)))) ∧
    exec (.pmuxAltSpi id v) s = .next (s.after (s.dev.ctrlDecode id true false pmuxCtrl)) ∧
    exec (.modScanAll id v) s = .next (s.after (s.dev.ctrlDecode id true false 0x640004)) ∧
    exec (.modScan id v) s = .next (s.after (s.dev.ctrlDecode id true false 0x640004)) ∧
    ∀ b : Fin 4, exec (.modXferGo id b v) s = .next (s.after (s.dev.ctrlDecode id true false (modXferCtrl b)))) ∧
  (∀ (id : Fin 13) (q : Fin 15) (p : Fin 240) (b : Fin 4) (v : Word) (s : State), s.dev.portIdle id = true →
    ∀ i, i ∈ [Instr.gpioOutWrite id q v, .gpioOeWrite id q v, .gpioOutMasked id q v, .gpioOeMasked id q v, .pmuxPinWrite id p v,
      .pmuxAltSpi id v, .modScanAll id v, .modScan id v, .modXferGo id b v] → exec i s = .next (s.after s.dev)) ∧
  (∀ (q : Fin 15) (pads : BitVec 16) (s : State),
    (s.dev.power.por = false → ∃ d : Dev, exec (.gpioIrqDetect q pads) s = .next (s.after d) ∧ ∀ k, k < 16 →
      let p := 16 * q.val + k
      let v := pads.getLsbD k && !s.dev.pinUnpowered p
      let seen := irqSeen (s.dev.irqMode p) (bit s.dev.pins.level p) v (bit s.dev.pins.fresh p)
      bit d.pins.level p = v ∧ bit d.pins.pad p = v ∧ bit d.pins.fresh p = false ∧
      d.rbit (gpioStatus q) k = (seen || s.dev.rbit (gpioStatus q) k)) ∧
    (s.dev.power.por = true → exec (.gpioIrqDetect q pads) s = .next (s.after s.dev))) ∧
  (∀ (p : Fin 240) (v : Word) (s : State),
    let stops := bits v 0 2 ≠ s.dev.pinFunc p ∧ s.dev.pinPermit p = false ∧
      ((bits v 0 2 = 2 ∧ peripheralDrives p = true) ∨ (bits v 0 2 = 1 ∧ s.dev.rbit (gpioOe (p.val / 16)) (p.val % 16) = true))
    (pmuxOk p v = true → ¬ stops →
      ∃ d : Dev, exec (.pmuxPinWrite 0 p v) s = .next (s.after d) ∧ d.reg (pmuxPin p) = v &&& 0x0FF00003 ∧
        (bits v 0 2 ≠ s.dev.pinFunc p → d.rbit (gpioStatus (p.val / 16)) (p.val % 16) = false ∧ bit d.pins.level p = false ∧
          bit d.pins.fresh p = true) ∧
        (bits v 0 2 = s.dev.pinFunc p → d.pins = s.dev.pins ∧ ∀ o, o ≠ pmuxPin p → d.reg o = s.dev.reg o)) ∧
    (pmuxOk p v = false → exec (.pmuxPinWrite 0 p v) s = .next (s.after s.dev)) ∧
    (pmuxOk p v = true → stops → exec (.pmuxPinWrite 0 p v) s =
        .next (s.after ((s.dev.fenceRefuse 1 p (pmuxPin p)).ctrlDecode 0 true false (pmuxPin p))))) ∧
  (∀ (v : Word) (s : State),
    (∃ d : Dev, exec (.pmuxAltSpi 0 v) s = .next (s.after d) ∧ d.reg pmuxCtrl = v &&& 1 ∧
      ∀ o, o ≠ pmuxCtrl → d.reg o = s.dev.reg o) ∧
    (∃ d : Dev, exec (.modScanAll 0 v) s = .next (s.after d) ∧ d.regs = s.dev.regs ∧
      ∀ n, n < 16 → bit d.mods.queued n = (bit s.dev.mods.queued n || s.dev.isLead n)) ∧
    (∃ d : Dev, exec (.modScan 0 v) s = .next (s.after d) ∧ d.regs = s.dev.regs ∧
      ∀ n, n < 16 → bit d.mods.queued n = (bit s.dev.mods.queued n || (v.getLsbD n && s.dev.isLead n)))) ∧
  (∀ (n : Fin 16) (present : Bool) (s : State),
    let shown := s.dev.isLead n = true ∧ s.dev.presentNow n = some present ∧ bit s.dev.mods.presence n ≠ present
    (shown → ∃ d : Dev, exec (.presenceChange n present) s = .next (s.after d) ∧
      bit d.mods.presence n = present ∧ bit d.mods.queued n = true ∧ d.mods.running = s.dev.mods.running ∧
      (bit s.dev.mods.running n = true → bit d.mods.again n = true) ∧
      (d.reg (modLaneChanges n)).toNat = min ((s.dev.reg (modLaneChanges n)).toNat + 1) 0xFFFFFFFF) ∧
    (¬ shown → exec (.presenceChange n present) s = .next (s.after s.dev))) ∧
  (∀ (n : Fin 16) (s : State),
    let due := bit s.dev.mods.queued n = true ∧ s.dev.isLead n = true ∧ s.dev.busScans (s.dev.busOf n) = false ∧
      s.dev.xferBusy (s.dev.busOf n) = false
    (due → s.dev.presentNow n ≠ some false →
      ∃ d : Dev, exec (.moduleLeadScan n) s = .next (s.after d) ∧ bit d.mods.running n = true ∧ bit d.mods.queued n = false ∧
        (s.dev.presentNow n = some true → ∀ m, m < 16 → s.dev.leadOf m = n.val → d.rbit (modLaneStatus m) 30 = true) ∧
        ∀ p, s.dev.selPin n = some p → d.rbit (gpioOe (p / 16)) (p % 16) = true ∧
          d.rbit (gpioOut (p / 16)) (p % 16) = s.dev.rbit (modLaneCfg n) 30) ∧
    (due → s.dev.presentNow n = some false → bit s.dev.mods.again n = false →
      ∃ d : Dev, exec (.moduleLeadScan n) s = .next (s.after d) ∧ bit d.mods.running n = false ∧ bit d.mods.queued n = false ∧
        ∀ m, m < 16 → s.dev.leadOf m = n.val →
          d.rbit (modLaneStatus m) 31 = true ∧ d.rbit (modLaneStatus m) 30 = false ∧ bits (d.reg (modLaneStatus m)) 16 8 = 0) ∧
    (¬ due → exec (.moduleLeadScan n) s = .next (s.after s.dev))) ∧
  (∀ (n : Fin 16) (s : State), bit s.dev.mods.running n = false → ∀ page record,
    exec (.moduleScanRetry n) s = .next (s.after s.dev) ∧ exec (.moduleScanTimeout n page) s = .next (s.after s.dev) ∧
    exec (.moduleScanComplete n page record) s = .next (s.after s.dev)) ∧
  (∀ (n : Fin 16) (s : State), bit s.dev.mods.running n = true →
    exec (.moduleScanRetry n) s = .next (s.after (s.dev.drivesSel n true)) ∧
    (∀ i, (∃ read, i = Instr.moduleScanTimeout n read) ∨ (∃ page record, i = .moduleScanComplete n page record) →
      (bit s.dev.mods.again n = true → ∃ d : Dev, exec i s = .next (s.after d) ∧ bit d.mods.running n = false ∧
        bit d.mods.again n = false ∧ ∀ m, m < 16 → d.reg (modLaneStatus m) = s.dev.reg (modLaneStatus m)) ∧
      (bit s.dev.mods.again n = false → s.dev.busUsable (s.dev.busOf n) = false ∨ (∃ record, i = .moduleScanComplete n none record) →
        ∃ d : Dev, exec i s = .next (s.after d) ∧ bit d.mods.running n = false ∧
          (s.dev.busUsable (s.dev.busOf n) = false → (d.reg (modBusFault (s.dev.busOf n))).toNat =
            min ((s.dev.reg (modBusFault (s.dev.busOf n))).toNat + 1) 0xFFFFFFFF) ∧
          ∀ m, m < 16 → s.dev.leadOf m = n.val →
            d.rbit (modLaneStatus m) 31 = true ∧ bits (d.reg (modLaneStatus m)) 16 8 = 0 ∧
            d.rbit (modLaneStatus m) 30 = (s.dev.presentNow n).getD false)) ∧
    (∀ read : Option (List Byte), bit s.dev.mods.again n = false → s.dev.busUsable (s.dev.busOf n) = true →
      let bs := read.getD []
      ∃ d : Dev, exec (.moduleScanTimeout n read) s = .next (s.after d) ∧ bit d.mods.running n = false ∧
        ∀ m, m < 16 → s.dev.leadOf m = n.val →
          d.rbit (modLaneStatus m) 31 = s.dev.rbit (modLaneStatus m) 31 ∧ d.rbit (modLaneStatus m) 28 = false ∧
          d.rbit (modLaneStatus m) 30 = (s.dev.presentNow n).getD read.isSome ∧
          (read = none → bits (d.reg (modLaneStatus m)) 16 8 = 0) ∧
          bits (d.reg (modLaneStatus m)) 8 8 = getLE 1 bs 0 ∧
          ∀ i, i < 12 → (d.reg (modId m i)).toNat = getLE 4 (identityOf bs) (4 * i)) ∧
    (∀ (bs : List Byte) (record : Option (List Byte)), bit s.dev.mods.again n = false → s.dev.busUsable (s.dev.busOf n) = true →
      let r := match record with | some r => fit 64 r | none => []
      let ident : Byte := BitVec.ofNat 8 (getLE 1 bs 0)
      ∃ d : Dev, exec (.moduleScanComplete n (some bs) record) s = .next (s.after d) ∧ bit d.mods.running n = false ∧
      ∀ m, m < 16 → s.dev.leadOf m = n.val →
        d.rbit (modLaneStatus m) 31 = true ∧ d.rbit (modLaneStatus m) 30 = (s.dev.presentNow n).getD true ∧
        d.rbit (modLaneStatus m) 28 = recordValid r ∧
        bits (d.reg (modLaneStatus m)) 8 8 = ident.toNat ∧ bits (d.reg (modLaneStatus m)) 0 2 = standardOf ident ∧
        (∀ i, i < 12 → (d.reg (modId m i)).toNat = getLE 4 (identityOf bs) (4 * i)) ∧
        ∀ i, i < 16 → (d.reg (modRec m i)).toNat = getLE 4 r (4 * i))) ∧
  (∀ (b : Fin 4) (v : Word) (s : State),
    (bits v 16 5 < 16 ∨ bits v 16 5 = 31 → s.dev.xferBusy b = false →
      ∃ d : Dev, exec (.modXferGo 0 b v) s = .next (s.after d) ∧ d.xferBusy b = true ∧
        d.fld (modXferCtrl b) 0 7 = v.toNat % 128 ∧ d.fld (modXferCtrl b) 8 8 = bits v 8 8 ∧
        d.fld (modXferCtrl b) 16 5 = bits v 16 5 ∧ d.fld (modXferCtrl b) 24 2 = bits v 24 2 ∧
        d.rbit (modXferCtrl b) 28 = v.getLsbD 28 ∧ d.xferWord b = setBit v 30 true ∧
        (∀ p, s.dev.busScans b = false → bits v 16 5 < 16 → s.dev.selPin (bits v 16 5) = some p →
          d.rbit (gpioOe (p / 16)) (p % 16) = true)) ∧
    ((16 ≤ bits v 16 5 ∧ bits v 16 5 < 31) ∨ s.dev.xferBusy b = true → exec (.modXferGo 0 b v) s = .next (s.after s.dev))) ∧
  (∀ (b : Fin 4) (ack : Bool) (data : Word) (s : State),
    (s.dev.xferBusy b = true → s.dev.busScans b = false →
      ∃ d : Dev, exec (.modXferDone b ack data) s = .next (s.after d) ∧ d.xferBusy b = false ∧
        d.rbit (modXferCtrl b) 29 = !(ack && s.dev.busUsable b) ∧
        (d.reg (modXferData b)).toNat = (if ack && s.dev.busUsable b && bit (s.dev.xferWord b) 28
          then data.toNat % 2 ^ (8 * (bits (s.dev.xferWord b) 24 2 + 1)) else (s.dev.reg (modXferData b)).toNat) ∧
        (d.reg (modBusFault b)).toNat = (if s.dev.busUsable b then (s.dev.reg (modBusFault b)).toNat
          else min ((s.dev.reg (modBusFault b)).toNat + 1) 0xFFFFFFFF)) ∧
    (s.dev.xferBusy b = false ∨ s.dev.busScans b = true → exec (.modXferDone b ack data) s = .next (s.after s.dev))) ∧
  (∀ (b : Fin 4) (s : State), ∃ d : Dev, exec (.modBusFault b) s = .next (s.after d) ∧
    (d.reg (modBusFault b)).toNat = min ((s.dev.reg (modBusFault b)).toNat + 1) 0xFFFFFFFF ∧
    (s.dev.busScans b = false → s.dev.xferBusy b = true → d.xferBusy b = false ∧ d.rbit (modXferCtrl b) 29 = true) ∧
    (s.dev.busScans b = false → s.dev.xferBusy b = false → d.mods = s.dev.mods ∧
      ∀ o, o ≠ modBusFault b → d.reg o = s.dev.reg o) ∧
    (∀ n : Fin 16, bit s.dev.mods.running n = true → s.dev.busOf n = b.val →
      (∀ m, m < n.val → ¬ (bit s.dev.mods.running m = true ∧ s.dev.busOf m = b.val)) → bit d.mods.running n = false)) ∧
  (∀ (r : Req) (rest : List Req) (s : State), s.dev.Takes 0x0802 r rest → checkParams r 0 [] [] = none →
    let d := s.dev.taken r rest
    (d.ticketsFull = false → exec .moduleScan s = .next (s.after (((d.openJob r .moduleScan).scanAll).moduleScanned))) ∧
    (d.ticketsFull = true → exec .moduleScan s = .next (s.answered d r (ansBusy detTicketsFull).1 (ansBusy detTicketsFull).2))) ∧
  (∀ d : Dev, (∀ n, n < 16 → bit d.scanAll.mods.queued n = (bit d.mods.queued n || d.isLead n)) ∧
    (d.mods.queued ≠ 0 ∨ d.mods.running ≠ 0 → d.moduleScanned = d)) ∧
  (∀ (r : Req) (rest : List Req) (s : State), s.dev.Takes 0x0803 r rest → checkParams r 1 [] [(0, 1, 0, 15)] = none →
    let d := s.dev.taken r rest
    let st := d.reg (modLaneStatus (r.u 1 0))
    exec .moduleInfo s = .next (s.answered d r stOk (putLE 1 (b2n (bit st 30) + 2 * b2n (bit st 29)) ++ putLE 1 (bits st 16 8) ++
      putLE 1 (bits st 0 2) ++ [0] ++ d.wordBytes 12 (modId (r.u 1 0)) ++ zeros 12 ++ d.wordBytes 16 (modRec (r.u 1 0))))) ∧
  (∀ (ir : BitVec 10) (s : State),
    (∃ d : Dev, exec (.jtagInstructionUpdate ir) s = .next (s.after d) ∧ d.jtag.ir =
        (if irListed.contains ir || (irVendor ir && s.dev.inManufacture) then ir else irBypass) ∧ d.regs = s.dev.regs ∧
        (irBoundary s.dev.jtag.ir = false → d.jtag.boundary = s.dev.jtag.boundary)) ∧
    (∃ d : Dev, exec .jtagTestLogicReset s = .next (s.after d) ∧ d.jtag.ir = irIdcode ∧ d.regs = s.dev.regs ∧
        d.padsTaken = false ∧ (irBoundary s.dev.jtag.ir = false → d.jtag.boundary = s.dev.jtag.boundary)))
end

