-- ==== Sys2Proof/Laws/Maps.lean ====
section
/-! SUPPORT. The laws of sparse maps: what a key reads as after each operation, and that every operation keeps the
canonical form. -/
namespace Sys2Proof.Machine

variable {α : Type}

@[simp] theorem mget_nil (d : Nat → α) (k : Nat) : mget d [] k = d k := rfl

/-- A strictly rising list whose keys all lie above a bound. -/
def mabove (b : Nat) : List (Nat × α) → Prop
  | [] => True
  | (k, _) :: t => b < k ∧ mabove k t

theorem mabove_mono {a b : Nat} (h : a ≤ b) : ∀ {m : List (Nat × α)}, mabove b m → mabove a m
  | [], _ => trivial
  | (_, _) :: _, hm => ⟨Nat.lt_of_le_of_lt h hm.1, hm.2⟩

theorem mget_of_mabove {d : Nat → α} : ∀ {m : List (Nat × α)} {b k : Nat}, mabove b m → k ≤ b → mget d m k = d k
  | [], _, _, _, _ => rfl
  | (k', _) :: _, _, _, hm, hk => by
    have hlt : _ < k' := Nat.lt_of_le_of_lt hk hm.1
    simp only [mget, Nat.ne_of_gt hlt, if_false]
    exact mget_of_mabove hm.2 (Nat.le_of_lt hlt)

/-- Writing a key says what it reads as. -/
theorem mget_mput_same (d : Nat → α) (k : Nat) (v : α) : ∀ m : List (Nat × α), mget d (mput k v m) k = v
  | [] => by simp [mput, mget]
  | (k', _) :: t => by
    unfold mput
    split
    · simp [mget]
    · split
      · simp [mget]
      · rename_i h; simp [mget, h, mget_mput_same d k v t]

/-- Writing a key leaves every other key alone. -/
theorem mget_mput_other (d : Nat → α) {k j : Nat} (h : j ≠ k) (v : α) :
    ∀ m : List (Nat × α), mget d (mput k v m) j = mget d m j
  | [] => by simp [mput, mget, Ne.symm h]
  | (k', v') :: t => by
    unfold mput
    split
    · simp [mget, Ne.symm h]
    · split
      · rename_i h2; subst h2; simp [mget, Ne.symm h]
      · simp [mget, mget_mput_other d h v t]

theorem mget_mdel_other (d : Nat → α) {k j : Nat} (h : j ≠ k) :
    ∀ m : List (Nat × α), mget d (mdel m k) j = mget d m j
  | [] => rfl
  | (k', v') :: t => by
    unfold mdel
    split
    · rename_i h2; subst h2; simp [mget, Ne.symm h, mget_mdel_other d h t]
    · simp [mget, mget_mdel_other d h t]

theorem mget_mdel_same (d : Nat → α) {k : Nat} : ∀ m : List (Nat × α), mget d (mdel m k) k = d k
  | [] => rfl
  | (k', v') :: t => by
    unfold mdel
    split
    · exact mget_mdel_same d t
    · rename_i h; simp [mget, h, mget_mdel_same d t]

/-- Every entry differs from what its key reads as when unlisted. -/
def mlisted (d : Nat → α) : List (Nat × α) → Prop
  | [] => True
  | (k, v) :: t => v ≠ d k ∧ mlisted d t

/-- Rising keys, from the head on. -/
def mrising : List (Nat × α) → Prop
  | [] => True
  | (k, _) :: t => mabove k t

theorem mrising_of_mabove : ∀ {m : List (Nat × α)} {b : Nat}, mabove b m → mrising m
  | [], _, _ => trivial
  | (_, _) :: _, _, h => h.2

/-- The canonical form, as its two parts. -/
theorem mwf_iff [DecidableEq α] (d : Nat → α) :
    ∀ m : List (Nat × α), mwf d m = true ↔ (mlisted d m ∧ mrising m)
  | [] => by simp [mwf, mlisted, mrising]
  | [(k, v)] => by simp [mwf, mlisted, mrising, mabove]
  | (k, v) :: (k', v') :: t => by
    have ih := mwf_iff d ((k', v') :: t)
    simp only [mwf, Bool.and_eq_true, decide_eq_true_eq, ih, mlisted, mrising, mabove]
    exact ⟨fun ⟨⟨a, b⟩, c, e⟩ => ⟨⟨a, c⟩, b, e⟩, fun ⟨⟨a, c⟩, b, e⟩ => ⟨⟨a, b⟩, c, e⟩⟩

theorem mabove_mdel {k : Nat} : ∀ {m : List (Nat × α)} {b : Nat}, mabove b m → mabove b (mdel m k)
  | [], _, _ => trivial
  | (k', v') :: t, b, h => by
    unfold mdel
    split
    · exact mabove_mdel (mabove_mono (Nat.le_of_lt h.1) h.2)
    · exact ⟨h.1, mabove_mdel h.2⟩

theorem mlisted_mdel {d : Nat → α} {k : Nat} : ∀ {m : List (Nat × α)}, mlisted d m → mlisted d (mdel m k)
  | [], _ => trivial
  | (k', v') :: t, h => by
    unfold mdel
    split
    · exact mlisted_mdel h.2
    · exact ⟨h.1, mlisted_mdel h.2⟩

theorem mrising_mdel {k : Nat} : ∀ {m : List (Nat × α)}, mrising m → mrising (mdel m k)
  | [], _ => trivial
  | (k', v') :: t, h => by
    unfold mdel
    split
    · exact mrising_of_mabove (mabove_mdel (k := k) h)
    · exact mabove_mdel (b := k') h

theorem mabove_mput {k : Nat} {v : α} : ∀ {m : List (Nat × α)} {b : Nat}, b < k → mabove b m → mabove b (mput k v m)
  | [], _, hk, _ => ⟨hk, trivial⟩
  | (k', v') :: t, b, hk, h => by
    unfold mput
    split
    · rename_i h2; exact ⟨hk, h2, h.2⟩
    · split
      · rename_i h2; subst h2; exact ⟨hk, h.2⟩
      · exact ⟨h.1, mabove_mput (by omega) h.2⟩

theorem mrising_mput {k : Nat} {v : α} : ∀ {m : List (Nat × α)}, mrising m → mrising (mput k v m)
  | [], _ => trivial
  | (k', v') :: t, h => by
    unfold mput
    split
    · rename_i h2; exact ⟨h2, h⟩
    · split
      · rename_i h2; subst h2; exact h
      · exact mabove_mput (b := k') (by omega) h

theorem mlisted_mput {d : Nat → α} {k : Nat} {v : α} (hv : v ≠ d k) :
    ∀ {m : List (Nat × α)}, mlisted d m → mlisted d (mput k v m)
  | [], _ => ⟨hv, trivial⟩
  | (k', v') :: t, h => by
    unfold mput
    split
    · exact ⟨hv, h⟩
    · split
      · exact ⟨hv, h.2⟩
      · exact ⟨h.1, mlisted_mput hv h.2⟩

/-- A deletion keeps the canonical form. -/
theorem mwf_mdel [DecidableEq α] {d : Nat → α} {m : List (Nat × α)} (h : mwf d m = true) (k : Nat) :
    mwf d (mdel m k) = true := by
  rw [mwf_iff] at h ⊢
  exact ⟨mlisted_mdel h.1, mrising_mdel h.2⟩

/-- A write keeps the canonical form. -/
theorem mwf_mset [DecidableEq α] {d : Nat → α} {m : List (Nat × α)} (h : mwf d m = true) (k : Nat) (v : α) :
    mwf d (mset d m k v) = true := by
  unfold mset
  split
  · exact mwf_mdel h k
  · rename_i hv
    rw [mwf_iff] at h ⊢
    exact ⟨mlisted_mput hv h.1, mrising_mput h.2⟩

/-- A key reads as what was written to it. -/
@[simp] theorem mget_mset_same [DecidableEq α] (d : Nat → α) (m : List (Nat × α)) (k : Nat) (v : α) :
    mget d (mset d m k v) k = v := by
  unfold mset
  split
  · rename_i hv; rw [mget_mdel_same d m, hv]
  · exact mget_mput_same d k v m

/-- A write leaves every other key alone. -/
theorem mget_mset_other [DecidableEq α] {d : Nat → α} {k j : Nat} (h : j ≠ k) (m : List (Nat × α)) (v : α) :
    mget d (mset d m k v) j = mget d m j := by
  unfold mset
  split
  · exact mget_mdel_other d h m
  · exact mget_mput_other d h v m

theorem mabove_mdrop {p : Nat → Bool} : ∀ {m : List (Nat × α)} {b : Nat}, mabove b m → mabove b (mdrop p m)
  | [], _, _ => trivial
  | (k', v') :: t, b, h => by
    have ht : mabove k' (mdrop p t) := mabove_mdrop h.2
    unfold mdrop at ht ⊢
    rw [List.filter_cons]
    split
    · exact ⟨h.1, ht⟩
    · exact mabove_mono (Nat.le_of_lt h.1) ht

theorem mlisted_mdrop {d : Nat → α} {p : Nat → Bool} : ∀ {m : List (Nat × α)}, mlisted d m → mlisted d (mdrop p m)
  | [], _ => trivial
  | (k', v') :: t, h => by
    have ht : mlisted d (mdrop p t) := mlisted_mdrop h.2
    unfold mdrop at ht ⊢
    rw [List.filter_cons]
    split
    · exact ⟨h.1, ht⟩
    · exact ht

theorem mrising_mdrop {p : Nat → Bool} : ∀ {m : List (Nat × α)}, mrising m → mrising (mdrop p m)
  | [], _ => trivial
  | (k', v') :: t, h => by
    have ht : mabove k' (mdrop p t) := mabove_mdrop h
    unfold mdrop at ht ⊢
    rw [List.filter_cons]
    split
    · exact ht
    · exact mrising_of_mabove ht

/-- Dropping keys keeps the canonical form. -/
theorem mwf_mdrop [DecidableEq α] {d : Nat → α} {m : List (Nat × α)} (h : mwf d m = true) (p : Nat → Bool) :
    mwf d (mdrop p m) = true := by
  rw [mwf_iff] at h ⊢
  exact ⟨mlisted_mdrop h.1, mrising_mdrop h.2⟩

/-- A dropped key reads as unlisted; every other key reads as before. -/
theorem mget_mdrop (d : Nat → α) (p : Nat → Bool) :
    ∀ (m : List (Nat × α)) (j : Nat), mget d (mdrop p m) j = if p j then d j else mget d m j
  | [], j => by simp [mdrop, mget]
  | (k', v') :: t, j => by
    have ih := mget_mdrop d p t j
    unfold mdrop at ih ⊢
    rw [List.filter_cons]
    by_cases hj : k' = j
    · subst hj
      by_cases hp : p k' = true
      · simpa [hp] using ih
      · simp [hp, mget]
    · split
      · simp [mget, hj, ih]
      · simp [mget, hj, ih]

/-- The canonical form depends on the unlisted value only at the listed keys. -/
theorem mwf_congr [DecidableEq α] {d e : Nat → α} {m : List (Nat × α)} (h : mwf d m = true)
    (he : ∀ x ∈ m, d x.1 = e x.1) : mwf e m = true := by
  rw [mwf_iff] at h ⊢
  refine ⟨?_, h.2⟩
  have h1 := h.1
  clear h
  induction m with
  | nil => trivial
  | cons a t ih =>
    obtain ⟨k, v⟩ := a
    refine ⟨?_, ih (fun x hx => he x (List.mem_cons_of_mem _ hx)) h1.2⟩
    have hk := he (k, v) (List.mem_cons_self)
    simp only at hk
    rw [← hk]; exact h1.1

end Sys2Proof.Machine
end

