-- ==== Sys2Proof/Laws/State.lean ====
section
/-! SUPPORT. The frames of the named operations: one lemma for each field that an operation leaves alone, and the laws of
the settled state. -/
namespace Sys2Proof.Machine

variable (d : Dev)

@[simp] theorem setReg_idRegs (off : Nat) (v : Word) : (d.setReg off v).idRegs = d.idRegs := rfl
@[simp] theorem setReg_stats (off : Nat) (v : Word) : (d.setReg off v).stats = d.stats := rfl
@[simp] theorem setReg_readData (off : Nat) (v : Word) : (d.setReg off v).readData = d.readData := rfl
@[simp] theorem setReg_free (off : Nat) (v : Word) : (d.setReg off v).free = d.free := rfl
@[simp] theorem setReg_time (off : Nat) (v : Word) : (d.setReg off v).time = d.time := rfl
@[simp] theorem setReg_log (off : Nat) (v : Word) : (d.setReg off v).log = d.log := rfl
@[simp] theorem setReg_keys (off : Nat) (v : Word) : (d.setReg off v).keys = d.keys := rfl
@[simp] theorem setReg_lcy (off : Nat) (v : Word) : (d.setReg off v).lcy = d.lcy := rfl
@[simp] theorem setReg_chip (off : Nat) (v : Word) : (d.setReg off v).chip = d.chip := rfl
@[simp] theorem setReg_sched (off : Nat) (v : Word) : (d.setReg off v).sched = d.sched := rfl
@[simp] theorem setReg_logic (off : Nat) (v : Word) : (d.setReg off v).logic = d.logic := rfl
@[simp] theorem setReg_hive (off : Nat) (v : Word) : (d.setReg off v).hive = d.hive := rfl
@[simp] theorem setReg_power (off : Nat) (v : Word) : (d.setReg off v).power = d.power := rfl
@[simp] theorem setReg_fab (off : Nat) (v : Word) : (d.setReg off v).fab = d.fab := rfl
@[simp] theorem setReg_adm (off : Nat) (v : Word) : (d.setReg off v).adm = d.adm := rfl
@[simp] theorem setReg_serial (off : Nat) (v : Word) : (d.setReg off v).serial = d.serial := rfl
@[simp] theorem setReg_bank (off : Nat) (v : Word) : (d.setReg off v).bank = d.bank := rfl
@[simp] theorem setReg_cfg (off : Nat) (v : Word) : (d.setReg off v).cfg = d.cfg := rfl
@[simp] theorem setReg_store (off : Nat) (v : Word) : (d.setReg off v).store = d.store := rfl
@[simp] theorem setReg_pins (off : Nat) (v : Word) : (d.setReg off v).pins = d.pins := rfl
@[simp] theorem setReg_mods (off : Nat) (v : Word) : (d.setReg off v).mods = d.mods := rfl
@[simp] theorem setReg_jtag (off : Nat) (v : Word) : (d.setReg off v).jtag = d.jtag := rfl
@[simp] theorem setReg_dma (off : Nat) (v : Word) : (d.setReg off v).dma = d.dma := rfl
@[simp] theorem setReg_raised (off : Nat) (v : Word) : (d.setReg off v).raised = d.raised := rfl
@[simp] theorem setReg_out (off : Nat) (v : Word) : (d.setReg off v).out = d.out := rfl

@[simp] theorem setFld_idRegs (off lo len v : Nat) : (d.setFld off lo len v).idRegs = d.idRegs := by rw [Dev.setFld, setReg_idRegs]
@[simp] theorem setFld_stats (off lo len v : Nat) : (d.setFld off lo len v).stats = d.stats := by rw [Dev.setFld, setReg_stats]
@[simp] theorem setFld_readData (off lo len v : Nat) : (d.setFld off lo len v).readData = d.readData := by rw [Dev.setFld, setReg_readData]
@[simp] theorem setFld_free (off lo len v : Nat) : (d.setFld off lo len v).free = d.free := by rw [Dev.setFld, setReg_free]
@[simp] theorem setFld_time (off lo len v : Nat) : (d.setFld off lo len v).time = d.time := by rw [Dev.setFld, setReg_time]
@[simp] theorem setFld_log (off lo len v : Nat) : (d.setFld off lo len v).log = d.log := by rw [Dev.setFld, setReg_log]
@[simp] theorem setFld_keys (off lo len v : Nat) : (d.setFld off lo len v).keys = d.keys := by rw [Dev.setFld, setReg_keys]
@[simp] theorem setFld_lcy (off lo len v : Nat) : (d.setFld off lo len v).lcy = d.lcy := by rw [Dev.setFld, setReg_lcy]
@[simp] theorem setFld_chip (off lo len v : Nat) : (d.setFld off lo len v).chip = d.chip := by rw [Dev.setFld, setReg_chip]
@[simp] theorem setFld_sched (off lo len v : Nat) : (d.setFld off lo len v).sched = d.sched := by rw [Dev.setFld, setReg_sched]
@[simp] theorem setFld_logic (off lo len v : Nat) : (d.setFld off lo len v).logic = d.logic := by rw [Dev.setFld, setReg_logic]
@[simp] theorem setFld_hive (off lo len v : Nat) : (d.setFld off lo len v).hive = d.hive := by rw [Dev.setFld, setReg_hive]
@[simp] theorem setFld_power (off lo len v : Nat) : (d.setFld off lo len v).power = d.power := by rw [Dev.setFld, setReg_power]
@[simp] theorem setFld_fab (off lo len v : Nat) : (d.setFld off lo len v).fab = d.fab := by rw [Dev.setFld, setReg_fab]
@[simp] theorem setFld_adm (off lo len v : Nat) : (d.setFld off lo len v).adm = d.adm := by rw [Dev.setFld, setReg_adm]
@[simp] theorem setFld_serial (off lo len v : Nat) : (d.setFld off lo len v).serial = d.serial := by rw [Dev.setFld, setReg_serial]
@[simp] theorem setFld_bank (off lo len v : Nat) : (d.setFld off lo len v).bank = d.bank := by rw [Dev.setFld, setReg_bank]
@[simp] theorem setFld_cfg (off lo len v : Nat) : (d.setFld off lo len v).cfg = d.cfg := by rw [Dev.setFld, setReg_cfg]
@[simp] theorem setFld_store (off lo len v : Nat) : (d.setFld off lo len v).store = d.store := by rw [Dev.setFld, setReg_store]
@[simp] theorem setFld_pins (off lo len v : Nat) : (d.setFld off lo len v).pins = d.pins := by rw [Dev.setFld, setReg_pins]
@[simp] theorem setFld_mods (off lo len v : Nat) : (d.setFld off lo len v).mods = d.mods := by rw [Dev.setFld, setReg_mods]
@[simp] theorem setFld_jtag (off lo len v : Nat) : (d.setFld off lo len v).jtag = d.jtag := by rw [Dev.setFld, setReg_jtag]
@[simp] theorem setFld_dma (off lo len v : Nat) : (d.setFld off lo len v).dma = d.dma := by rw [Dev.setFld, setReg_dma]
@[simp] theorem setFld_raised (off lo len v : Nat) : (d.setFld off lo len v).raised = d.raised := by rw [Dev.setFld, setReg_raised]
@[simp] theorem setFld_out (off lo len v : Nat) : (d.setFld off lo len v).out = d.out := by rw [Dev.setFld, setReg_out]

@[simp] theorem setRbit_idRegs (off i : Nat) (b : Bool) : (d.setRbit off i b).idRegs = d.idRegs := by rw [Dev.setRbit, setReg_idRegs]
@[simp] theorem setRbit_stats (off i : Nat) (b : Bool) : (d.setRbit off i b).stats = d.stats := by rw [Dev.setRbit, setReg_stats]
@[simp] theorem setRbit_readData (off i : Nat) (b : Bool) : (d.setRbit off i b).readData = d.readData := by rw [Dev.setRbit, setReg_readData]
@[simp] theorem setRbit_free (off i : Nat) (b : Bool) : (d.setRbit off i b).free = d.free := by rw [Dev.setRbit, setReg_free]
@[simp] theorem setRbit_time (off i : Nat) (b : Bool) : (d.setRbit off i b).time = d.time := by rw [Dev.setRbit, setReg_time]
@[simp] theorem setRbit_log (off i : Nat) (b : Bool) : (d.setRbit off i b).log = d.log := by rw [Dev.setRbit, setReg_log]
@[simp] theorem setRbit_keys (off i : Nat) (b : Bool) : (d.setRbit off i b).keys = d.keys := by rw [Dev.setRbit, setReg_keys]
@[simp] theorem setRbit_lcy (off i : Nat) (b : Bool) : (d.setRbit off i b).lcy = d.lcy := by rw [Dev.setRbit, setReg_lcy]
@[simp] theorem setRbit_chip (off i : Nat) (b : Bool) : (d.setRbit off i b).chip = d.chip := by rw [Dev.setRbit, setReg_chip]
@[simp] theorem setRbit_sched (off i : Nat) (b : Bool) : (d.setRbit off i b).sched = d.sched := by rw [Dev.setRbit, setReg_sched]
@[simp] theorem setRbit_logic (off i : Nat) (b : Bool) : (d.setRbit off i b).logic = d.logic := by rw [Dev.setRbit, setReg_logic]
@[simp] theorem setRbit_hive (off i : Nat) (b : Bool) : (d.setRbit off i b).hive = d.hive := by rw [Dev.setRbit, setReg_hive]
@[simp] theorem setRbit_power (off i : Nat) (b : Bool) : (d.setRbit off i b).power = d.power := by rw [Dev.setRbit, setReg_power]
@[simp] theorem setRbit_fab (off i : Nat) (b : Bool) : (d.setRbit off i b).fab = d.fab := by rw [Dev.setRbit, setReg_fab]
@[simp] theorem setRbit_adm (off i : Nat) (b : Bool) : (d.setRbit off i b).adm = d.adm := by rw [Dev.setRbit, setReg_adm]
@[simp] theorem setRbit_serial (off i : Nat) (b : Bool) : (d.setRbit off i b).serial = d.serial := by rw [Dev.setRbit, setReg_serial]
@[simp] theorem setRbit_bank (off i : Nat) (b : Bool) : (d.setRbit off i b).bank = d.bank := by rw [Dev.setRbit, setReg_bank]
@[simp] theorem setRbit_cfg (off i : Nat) (b : Bool) : (d.setRbit off i b).cfg = d.cfg := by rw [Dev.setRbit, setReg_cfg]
@[simp] theorem setRbit_store (off i : Nat) (b : Bool) : (d.setRbit off i b).store = d.store := by rw [Dev.setRbit, setReg_store]
@[simp] theorem setRbit_pins (off i : Nat) (b : Bool) : (d.setRbit off i b).pins = d.pins := by rw [Dev.setRbit, setReg_pins]
@[simp] theorem setRbit_mods (off i : Nat) (b : Bool) : (d.setRbit off i b).mods = d.mods := by rw [Dev.setRbit, setReg_mods]
@[simp] theorem setRbit_jtag (off i : Nat) (b : Bool) : (d.setRbit off i b).jtag = d.jtag := by rw [Dev.setRbit, setReg_jtag]
@[simp] theorem setRbit_dma (off i : Nat) (b : Bool) : (d.setRbit off i b).dma = d.dma := by rw [Dev.setRbit, setReg_dma]
@[simp] theorem setRbit_raised (off i : Nat) (b : Bool) : (d.setRbit off i b).raised = d.raised := by rw [Dev.setRbit, setReg_raised]
@[simp] theorem setRbit_out (off i : Nat) (b : Bool) : (d.setRbit off i b).out = d.out := by rw [Dev.setRbit, setReg_out]

theorem idRegs_regs (m : List (Nat × Word)) : ({ d with idRegs := m } : Dev).regs = d.regs := rfl
theorem idRegs_stats (m : List (Nat × Word)) : ({ d with idRegs := m } : Dev).stats = d.stats := rfl
theorem idRegs_readData (m : List (Nat × Word)) : ({ d with idRegs := m } : Dev).readData = d.readData := rfl
theorem idRegs_free (m : List (Nat × Word)) : ({ d with idRegs := m } : Dev).free = d.free := rfl
theorem idRegs_time (m : List (Nat × Word)) : ({ d with idRegs := m } : Dev).time = d.time := rfl
theorem idRegs_log (m : List (Nat × Word)) : ({ d with idRegs := m } : Dev).log = d.log := rfl
theorem idRegs_keys (m : List (Nat × Word)) : ({ d with idRegs := m } : Dev).keys = d.keys := rfl
theorem idRegs_lcy (m : List (Nat × Word)) : ({ d with idRegs := m } : Dev).lcy = d.lcy := rfl
theorem idRegs_chip (m : List (Nat × Word)) : ({ d with idRegs := m } : Dev).chip = d.chip := rfl
theorem idRegs_sched (m : List (Nat × Word)) : ({ d with idRegs := m } : Dev).sched = d.sched := rfl
theorem idRegs_logic (m : List (Nat × Word)) : ({ d with idRegs := m } : Dev).logic = d.logic := rfl
theorem idRegs_hive (m : List (Nat × Word)) : ({ d with idRegs := m } : Dev).hive = d.hive := rfl
theorem idRegs_power (m : List (Nat × Word)) : ({ d with idRegs := m } : Dev).power = d.power := rfl
theorem idRegs_fab (m : List (Nat × Word)) : ({ d with idRegs := m } : Dev).fab = d.fab := rfl
theorem idRegs_adm (m : List (Nat × Word)) : ({ d with idRegs := m } : Dev).adm = d.adm := rfl
theorem idRegs_serial (m : List (Nat × Word)) : ({ d with idRegs := m } : Dev).serial = d.serial := rfl
theorem idRegs_bank (m : List (Nat × Word)) : ({ d with idRegs := m } : Dev).bank = d.bank := rfl
theorem idRegs_cfg (m : List (Nat × Word)) : ({ d with idRegs := m } : Dev).cfg = d.cfg := rfl
theorem idRegs_store (m : List (Nat × Word)) : ({ d with idRegs := m } : Dev).store = d.store := rfl
theorem idRegs_pins (m : List (Nat × Word)) : ({ d with idRegs := m } : Dev).pins = d.pins := rfl
theorem idRegs_mods (m : List (Nat × Word)) : ({ d with idRegs := m } : Dev).mods = d.mods := rfl
theorem idRegs_jtag (m : List (Nat × Word)) : ({ d with idRegs := m } : Dev).jtag = d.jtag := rfl
theorem idRegs_dma (m : List (Nat × Word)) : ({ d with idRegs := m } : Dev).dma = d.dma := rfl
theorem idRegs_raised (m : List (Nat × Word)) : ({ d with idRegs := m } : Dev).raised = d.raised := rfl
theorem idRegs_out (m : List (Nat × Word)) : ({ d with idRegs := m } : Dev).out = d.out := rfl

@[simp] theorem setIdReg_regs (id off : Nat) (v : Word) : (d.setIdReg id off v).regs = d.regs := idRegs_regs d _
@[simp] theorem setIdReg_stats (id off : Nat) (v : Word) : (d.setIdReg id off v).stats = d.stats := idRegs_stats d _
@[simp] theorem setIdReg_readData (id off : Nat) (v : Word) : (d.setIdReg id off v).readData = d.readData := idRegs_readData d _
@[simp] theorem setIdReg_free (id off : Nat) (v : Word) : (d.setIdReg id off v).free = d.free := idRegs_free d _
@[simp] theorem setIdReg_time (id off : Nat) (v : Word) : (d.setIdReg id off v).time = d.time := idRegs_time d _
@[simp] theorem setIdReg_log (id off : Nat) (v : Word) : (d.setIdReg id off v).log = d.log := idRegs_log d _
@[simp] theorem setIdReg_keys (id off : Nat) (v : Word) : (d.setIdReg id off v).keys = d.keys := idRegs_keys d _
@[simp] theorem setIdReg_lcy (id off : Nat) (v : Word) : (d.setIdReg id off v).lcy = d.lcy := idRegs_lcy d _
@[simp] theorem setIdReg_chip (id off : Nat) (v : Word) : (d.setIdReg id off v).chip = d.chip := idRegs_chip d _
@[simp] theorem setIdReg_sched (id off : Nat) (v : Word) : (d.setIdReg id off v).sched = d.sched := idRegs_sched d _
@[simp] theorem setIdReg_logic (id off : Nat) (v : Word) : (d.setIdReg id off v).logic = d.logic := idRegs_logic d _
@[simp] theorem setIdReg_hive (id off : Nat) (v : Word) : (d.setIdReg id off v).hive = d.hive := idRegs_hive d _
@[simp] theorem setIdReg_power (id off : Nat) (v : Word) : (d.setIdReg id off v).power = d.power := idRegs_power d _
@[simp] theorem setIdReg_fab (id off : Nat) (v : Word) : (d.setIdReg id off v).fab = d.fab := idRegs_fab d _
@[simp] theorem setIdReg_adm (id off : Nat) (v : Word) : (d.setIdReg id off v).adm = d.adm := idRegs_adm d _
@[simp] theorem setIdReg_serial (id off : Nat) (v : Word) : (d.setIdReg id off v).serial = d.serial := idRegs_serial d _
@[simp] theorem setIdReg_bank (id off : Nat) (v : Word) : (d.setIdReg id off v).bank = d.bank := idRegs_bank d _
@[simp] theorem setIdReg_cfg (id off : Nat) (v : Word) : (d.setIdReg id off v).cfg = d.cfg := idRegs_cfg d _
@[simp] theorem setIdReg_store (id off : Nat) (v : Word) : (d.setIdReg id off v).store = d.store := idRegs_store d _
@[simp] theorem setIdReg_pins (id off : Nat) (v : Word) : (d.setIdReg id off v).pins = d.pins := idRegs_pins d _
@[simp] theorem setIdReg_mods (id off : Nat) (v : Word) : (d.setIdReg id off v).mods = d.mods := idRegs_mods d _
@[simp] theorem setIdReg_jtag (id off : Nat) (v : Word) : (d.setIdReg id off v).jtag = d.jtag := idRegs_jtag d _
@[simp] theorem setIdReg_dma (id off : Nat) (v : Word) : (d.setIdReg id off v).dma = d.dma := idRegs_dma d _
@[simp] theorem setIdReg_raised (id off : Nat) (v : Word) : (d.setIdReg id off v).raised = d.raised := idRegs_raised d _
@[simp] theorem setIdReg_out (id off : Nat) (v : Word) : (d.setIdReg id off v).out = d.out := idRegs_out d _

@[simp] theorem count_idRegs (off n : Nat) : (d.count off n).idRegs = d.idRegs := by rw [Dev.count, setReg_idRegs]
@[simp] theorem count_stats (off n : Nat) : (d.count off n).stats = d.stats := by rw [Dev.count, setReg_stats]
@[simp] theorem count_readData (off n : Nat) : (d.count off n).readData = d.readData := by rw [Dev.count, setReg_readData]
@[simp] theorem count_free (off n : Nat) : (d.count off n).free = d.free := by rw [Dev.count, setReg_free]
@[simp] theorem count_time (off n : Nat) : (d.count off n).time = d.time := by rw [Dev.count, setReg_time]
@[simp] theorem count_log (off n : Nat) : (d.count off n).log = d.log := by rw [Dev.count, setReg_log]
@[simp] theorem count_keys (off n : Nat) : (d.count off n).keys = d.keys := by rw [Dev.count, setReg_keys]
@[simp] theorem count_lcy (off n : Nat) : (d.count off n).lcy = d.lcy := by rw [Dev.count, setReg_lcy]
@[simp] theorem count_chip (off n : Nat) : (d.count off n).chip = d.chip := by rw [Dev.count, setReg_chip]
@[simp] theorem count_sched (off n : Nat) : (d.count off n).sched = d.sched := by rw [Dev.count, setReg_sched]
@[simp] theorem count_logic (off n : Nat) : (d.count off n).logic = d.logic := by rw [Dev.count, setReg_logic]
@[simp] theorem count_hive (off n : Nat) : (d.count off n).hive = d.hive := by rw [Dev.count, setReg_hive]
@[simp] theorem count_power (off n : Nat) : (d.count off n).power = d.power := by rw [Dev.count, setReg_power]
@[simp] theorem count_fab (off n : Nat) : (d.count off n).fab = d.fab := by rw [Dev.count, setReg_fab]
@[simp] theorem count_adm (off n : Nat) : (d.count off n).adm = d.adm := by rw [Dev.count, setReg_adm]
@[simp] theorem count_serial (off n : Nat) : (d.count off n).serial = d.serial := by rw [Dev.count, setReg_serial]
@[simp] theorem count_bank (off n : Nat) : (d.count off n).bank = d.bank := by rw [Dev.count, setReg_bank]
@[simp] theorem count_cfg (off n : Nat) : (d.count off n).cfg = d.cfg := by rw [Dev.count, setReg_cfg]
@[simp] theorem count_store (off n : Nat) : (d.count off n).store = d.store := by rw [Dev.count, setReg_store]
@[simp] theorem count_pins (off n : Nat) : (d.count off n).pins = d.pins := by rw [Dev.count, setReg_pins]
@[simp] theorem count_mods (off n : Nat) : (d.count off n).mods = d.mods := by rw [Dev.count, setReg_mods]
@[simp] theorem count_jtag (off n : Nat) : (d.count off n).jtag = d.jtag := by rw [Dev.count, setReg_jtag]
@[simp] theorem count_dma (off n : Nat) : (d.count off n).dma = d.dma := by rw [Dev.count, setReg_dma]
@[simp] theorem count_raised (off n : Nat) : (d.count off n).raised = d.raised := by rw [Dev.count, setReg_raised]
@[simp] theorem count_out (off n : Nat) : (d.count off n).out = d.out := by rw [Dev.count, setReg_out]

@[simp] theorem seqUp_idRegs (off : Nat) : (d.seqUp off).idRegs = d.idRegs := by rw [Dev.seqUp, setReg_idRegs]
@[simp] theorem seqUp_stats (off : Nat) : (d.seqUp off).stats = d.stats := by rw [Dev.seqUp, setReg_stats]
@[simp] theorem seqUp_readData (off : Nat) : (d.seqUp off).readData = d.readData := by rw [Dev.seqUp, setReg_readData]
@[simp] theorem seqUp_free (off : Nat) : (d.seqUp off).free = d.free := by rw [Dev.seqUp, setReg_free]
@[simp] theorem seqUp_time (off : Nat) : (d.seqUp off).time = d.time := by rw [Dev.seqUp, setReg_time]
@[simp] theorem seqUp_log (off : Nat) : (d.seqUp off).log = d.log := by rw [Dev.seqUp, setReg_log]
@[simp] theorem seqUp_keys (off : Nat) : (d.seqUp off).keys = d.keys := by rw [Dev.seqUp, setReg_keys]
@[simp] theorem seqUp_lcy (off : Nat) : (d.seqUp off).lcy = d.lcy := by rw [Dev.seqUp, setReg_lcy]
@[simp] theorem seqUp_chip (off : Nat) : (d.seqUp off).chip = d.chip := by rw [Dev.seqUp, setReg_chip]
@[simp] theorem seqUp_sched (off : Nat) : (d.seqUp off).sched = d.sched := by rw [Dev.seqUp, setReg_sched]
@[simp] theorem seqUp_logic (off : Nat) : (d.seqUp off).logic = d.logic := by rw [Dev.seqUp, setReg_logic]
@[simp] theorem seqUp_hive (off : Nat) : (d.seqUp off).hive = d.hive := by rw [Dev.seqUp, setReg_hive]
@[simp] theorem seqUp_power (off : Nat) : (d.seqUp off).power = d.power := by rw [Dev.seqUp, setReg_power]
@[simp] theorem seqUp_fab (off : Nat) : (d.seqUp off).fab = d.fab := by rw [Dev.seqUp, setReg_fab]
@[simp] theorem seqUp_adm (off : Nat) : (d.seqUp off).adm = d.adm := by rw [Dev.seqUp, setReg_adm]
@[simp] theorem seqUp_serial (off : Nat) : (d.seqUp off).serial = d.serial := by rw [Dev.seqUp, setReg_serial]
@[simp] theorem seqUp_bank (off : Nat) : (d.seqUp off).bank = d.bank := by rw [Dev.seqUp, setReg_bank]
@[simp] theorem seqUp_cfg (off : Nat) : (d.seqUp off).cfg = d.cfg := by rw [Dev.seqUp, setReg_cfg]
@[simp] theorem seqUp_store (off : Nat) : (d.seqUp off).store = d.store := by rw [Dev.seqUp, setReg_store]
@[simp] theorem seqUp_pins (off : Nat) : (d.seqUp off).pins = d.pins := by rw [Dev.seqUp, setReg_pins]
@[simp] theorem seqUp_mods (off : Nat) : (d.seqUp off).mods = d.mods := by rw [Dev.seqUp, setReg_mods]
@[simp] theorem seqUp_jtag (off : Nat) : (d.seqUp off).jtag = d.jtag := by rw [Dev.seqUp, setReg_jtag]
@[simp] theorem seqUp_dma (off : Nat) : (d.seqUp off).dma = d.dma := by rw [Dev.seqUp, setReg_dma]
@[simp] theorem seqUp_raised (off : Nat) : (d.seqUp off).raised = d.raised := by rw [Dev.seqUp, setReg_raised]
@[simp] theorem seqUp_out (off : Nat) : (d.seqUp off).out = d.out := by rw [Dev.seqUp, setReg_out]

@[simp] theorem statUp_regs (off n : Nat) : (d.statUp off n).regs = d.regs := rfl
@[simp] theorem statUp_idRegs (off n : Nat) : (d.statUp off n).idRegs = d.idRegs := rfl
@[simp] theorem statUp_readData (off n : Nat) : (d.statUp off n).readData = d.readData := rfl
@[simp] theorem statUp_free (off n : Nat) : (d.statUp off n).free = d.free := rfl
@[simp] theorem statUp_time (off n : Nat) : (d.statUp off n).time = d.time := rfl
@[simp] theorem statUp_log (off n : Nat) : (d.statUp off n).log = d.log := rfl
@[simp] theorem statUp_keys (off n : Nat) : (d.statUp off n).keys = d.keys := rfl
@[simp] theorem statUp_lcy (off n : Nat) : (d.statUp off n).lcy = d.lcy := rfl
@[simp] theorem statUp_chip (off n : Nat) : (d.statUp off n).chip = d.chip := rfl
@[simp] theorem statUp_sched (off n : Nat) : (d.statUp off n).sched = d.sched := rfl
@[simp] theorem statUp_logic (off n : Nat) : (d.statUp off n).logic = d.logic := rfl
@[simp] theorem statUp_hive (off n : Nat) : (d.statUp off n).hive = d.hive := rfl
@[simp] theorem statUp_power (off n : Nat) : (d.statUp off n).power = d.power := rfl
@[simp] theorem statUp_fab (off n : Nat) : (d.statUp off n).fab = d.fab := rfl
@[simp] theorem statUp_adm (off n : Nat) : (d.statUp off n).adm = d.adm := rfl
@[simp] theorem statUp_serial (off n : Nat) : (d.statUp off n).serial = d.serial := rfl
@[simp] theorem statUp_bank (off n : Nat) : (d.statUp off n).bank = d.bank := rfl
@[simp] theorem statUp_cfg (off n : Nat) : (d.statUp off n).cfg = d.cfg := rfl
@[simp] theorem statUp_store (off n : Nat) : (d.statUp off n).store = d.store := rfl
@[simp] theorem statUp_pins (off n : Nat) : (d.statUp off n).pins = d.pins := rfl
@[simp] theorem statUp_mods (off n : Nat) : (d.statUp off n).mods = d.mods := rfl
@[simp] theorem statUp_jtag (off n : Nat) : (d.statUp off n).jtag = d.jtag := rfl
@[simp] theorem statUp_dma (off n : Nat) : (d.statUp off n).dma = d.dma := rfl
@[simp] theorem statUp_raised (off n : Nat) : (d.statUp off n).raised = d.raised := rfl
@[simp] theorem statUp_out (off n : Nat) : (d.statUp off n).out = d.out := rfl

@[simp] theorem statClear_regs (off : Nat) : (d.statClear off).regs = d.regs := rfl
@[simp] theorem statClear_idRegs (off : Nat) : (d.statClear off).idRegs = d.idRegs := rfl
@[simp] theorem statClear_readData (off : Nat) : (d.statClear off).readData = d.readData := rfl
@[simp] theorem statClear_free (off : Nat) : (d.statClear off).free = d.free := rfl
@[simp] theorem statClear_time (off : Nat) : (d.statClear off).time = d.time := rfl
@[simp] theorem statClear_log (off : Nat) : (d.statClear off).log = d.log := rfl
@[simp] theorem statClear_keys (off : Nat) : (d.statClear off).keys = d.keys := rfl
@[simp] theorem statClear_lcy (off : Nat) : (d.statClear off).lcy = d.lcy := rfl
@[simp] theorem statClear_chip (off : Nat) : (d.statClear off).chip = d.chip := rfl
@[simp] theorem statClear_sched (off : Nat) : (d.statClear off).sched = d.sched := rfl
@[simp] theorem statClear_logic (off : Nat) : (d.statClear off).logic = d.logic := rfl
@[simp] theorem statClear_hive (off : Nat) : (d.statClear off).hive = d.hive := rfl
@[simp] theorem statClear_power (off : Nat) : (d.statClear off).power = d.power := rfl
@[simp] theorem statClear_fab (off : Nat) : (d.statClear off).fab = d.fab := rfl
@[simp] theorem statClear_adm (off : Nat) : (d.statClear off).adm = d.adm := rfl
@[simp] theorem statClear_serial (off : Nat) : (d.statClear off).serial = d.serial := rfl
@[simp] theorem statClear_bank (off : Nat) : (d.statClear off).bank = d.bank := rfl
@[simp] theorem statClear_cfg (off : Nat) : (d.statClear off).cfg = d.cfg := rfl
@[simp] theorem statClear_store (off : Nat) : (d.statClear off).store = d.store := rfl
@[simp] theorem statClear_pins (off : Nat) : (d.statClear off).pins = d.pins := rfl
@[simp] theorem statClear_mods (off : Nat) : (d.statClear off).mods = d.mods := rfl
@[simp] theorem statClear_jtag (off : Nat) : (d.statClear off).jtag = d.jtag := rfl
@[simp] theorem statClear_dma (off : Nat) : (d.statClear off).dma = d.dma := rfl
@[simp] theorem statClear_raised (off : Nat) : (d.statClear off).raised = d.raised := rfl
@[simp] theorem statClear_out (off : Nat) : (d.statClear off).out = d.out := rfl

@[simp] theorem logEntry_regs (c src : Nat) (p : Path) (x : List Byte) (fl : List Nat) : (d.logEntry c src p x fl).regs = d.regs := rfl
@[simp] theorem logEntry_idRegs (c src : Nat) (p : Path) (x : List Byte) (fl : List Nat) : (d.logEntry c src p x fl).idRegs = d.idRegs := rfl
@[simp] theorem logEntry_stats (c src : Nat) (p : Path) (x : List Byte) (fl : List Nat) : (d.logEntry c src p x fl).stats = d.stats := rfl
@[simp] theorem logEntry_readData (c src : Nat) (p : Path) (x : List Byte) (fl : List Nat) : (d.logEntry c src p x fl).readData = d.readData := rfl
@[simp] theorem logEntry_free (c src : Nat) (p : Path) (x : List Byte) (fl : List Nat) : (d.logEntry c src p x fl).free = d.free := rfl
@[simp] theorem logEntry_time (c src : Nat) (p : Path) (x : List Byte) (fl : List Nat) : (d.logEntry c src p x fl).time = d.time := rfl
@[simp] theorem logEntry_keys (c src : Nat) (p : Path) (x : List Byte) (fl : List Nat) : (d.logEntry c src p x fl).keys = d.keys := rfl
@[simp] theorem logEntry_lcy (c src : Nat) (p : Path) (x : List Byte) (fl : List Nat) : (d.logEntry c src p x fl).lcy = d.lcy := rfl
@[simp] theorem logEntry_chip (c src : Nat) (p : Path) (x : List Byte) (fl : List Nat) : (d.logEntry c src p x fl).chip = d.chip := rfl
@[simp] theorem logEntry_sched (c src : Nat) (p : Path) (x : List Byte) (fl : List Nat) : (d.logEntry c src p x fl).sched = d.sched := rfl
@[simp] theorem logEntry_logic (c src : Nat) (p : Path) (x : List Byte) (fl : List Nat) : (d.logEntry c src p x fl).logic = d.logic := rfl
@[simp] theorem logEntry_hive (c src : Nat) (p : Path) (x : List Byte) (fl : List Nat) : (d.logEntry c src p x fl).hive = d.hive := rfl
@[simp] theorem logEntry_power (c src : Nat) (p : Path) (x : List Byte) (fl : List Nat) : (d.logEntry c src p x fl).power = d.power := rfl
@[simp] theorem logEntry_fab (c src : Nat) (p : Path) (x : List Byte) (fl : List Nat) : (d.logEntry c src p x fl).fab = d.fab := rfl
@[simp] theorem logEntry_adm (c src : Nat) (p : Path) (x : List Byte) (fl : List Nat) : (d.logEntry c src p x fl).adm = d.adm := rfl
@[simp] theorem logEntry_serial (c src : Nat) (p : Path) (x : List Byte) (fl : List Nat) : (d.logEntry c src p x fl).serial = d.serial := rfl
@[simp] theorem logEntry_bank (c src : Nat) (p : Path) (x : List Byte) (fl : List Nat) : (d.logEntry c src p x fl).bank = d.bank := rfl
@[simp] theorem logEntry_cfg (c src : Nat) (p : Path) (x : List Byte) (fl : List Nat) : (d.logEntry c src p x fl).cfg = d.cfg := rfl
@[simp] theorem logEntry_store (c src : Nat) (p : Path) (x : List Byte) (fl : List Nat) : (d.logEntry c src p x fl).store = d.store := rfl
@[simp] theorem logEntry_pins (c src : Nat) (p : Path) (x : List Byte) (fl : List Nat) : (d.logEntry c src p x fl).pins = d.pins := rfl
@[simp] theorem logEntry_mods (c src : Nat) (p : Path) (x : List Byte) (fl : List Nat) : (d.logEntry c src p x fl).mods = d.mods := rfl
@[simp] theorem logEntry_jtag (c src : Nat) (p : Path) (x : List Byte) (fl : List Nat) : (d.logEntry c src p x fl).jtag = d.jtag := rfl
@[simp] theorem logEntry_dma (c src : Nat) (p : Path) (x : List Byte) (fl : List Nat) : (d.logEntry c src p x fl).dma = d.dma := rfl
@[simp] theorem logEntry_raised (c src : Nat) (p : Path) (x : List Byte) (fl : List Nat) : (d.logEntry c src p x fl).raised = d.raised := rfl
@[simp] theorem logEntry_out (c src : Nat) (p : Path) (x : List Byte) (fl : List Nat) : (d.logEntry c src p x fl).out = d.out := rfl

/-- What an offer to the log leaves of the log itself. -/
@[simp] theorem logEntry_entries (c src : Nat) (p : Path) (x : List Byte) (fl : List Nat) :
    (d.logEntry c src p x fl).log.entries = d.log.entries := rfl
@[simp] theorem logEntry_nextSeq (c src : Nat) (p : Path) (x : List Byte) (fl : List Nat) :
    (d.logEntry c src p x fl).log.nextSeq = d.log.nextSeq := rfl

@[simp] theorem logNow_regs (c src : Nat) (p : Path) (x : List Byte) : (d.logNow c src p x).regs = d.regs := rfl
@[simp] theorem logNow_idRegs (c src : Nat) (p : Path) (x : List Byte) : (d.logNow c src p x).idRegs = d.idRegs := rfl
@[simp] theorem logNow_stats (c src : Nat) (p : Path) (x : List Byte) : (d.logNow c src p x).stats = d.stats := rfl
@[simp] theorem logNow_readData (c src : Nat) (p : Path) (x : List Byte) : (d.logNow c src p x).readData = d.readData := rfl
@[simp] theorem logNow_free (c src : Nat) (p : Path) (x : List Byte) : (d.logNow c src p x).free = d.free := rfl
@[simp] theorem logNow_time (c src : Nat) (p : Path) (x : List Byte) : (d.logNow c src p x).time = d.time := rfl
@[simp] theorem logNow_keys (c src : Nat) (p : Path) (x : List Byte) : (d.logNow c src p x).keys = d.keys := rfl
@[simp] theorem logNow_lcy (c src : Nat) (p : Path) (x : List Byte) : (d.logNow c src p x).lcy = d.lcy := rfl
@[simp] theorem logNow_chip (c src : Nat) (p : Path) (x : List Byte) : (d.logNow c src p x).chip = d.chip := rfl
@[simp] theorem logNow_sched (c src : Nat) (p : Path) (x : List Byte) : (d.logNow c src p x).sched = d.sched := rfl
@[simp] theorem logNow_logic (c src : Nat) (p : Path) (x : List Byte) : (d.logNow c src p x).logic = d.logic := rfl
@[simp] theorem logNow_hive (c src : Nat) (p : Path) (x : List Byte) : (d.logNow c src p x).hive = d.hive := rfl
@[simp] theorem logNow_power (c src : Nat) (p : Path) (x : List Byte) : (d.logNow c src p x).power = d.power := rfl
@[simp] theorem logNow_fab (c src : Nat) (p : Path) (x : List Byte) : (d.logNow c src p x).fab = d.fab := rfl
@[simp] theorem logNow_adm (c src : Nat) (p : Path) (x : List Byte) : (d.logNow c src p x).adm = d.adm := rfl
@[simp] theorem logNow_serial (c src : Nat) (p : Path) (x : List Byte) : (d.logNow c src p x).serial = d.serial := rfl
@[simp] theorem logNow_bank (c src : Nat) (p : Path) (x : List Byte) : (d.logNow c src p x).bank = d.bank := rfl
@[simp] theorem logNow_cfg (c src : Nat) (p : Path) (x : List Byte) : (d.logNow c src p x).cfg = d.cfg := rfl
@[simp] theorem logNow_store (c src : Nat) (p : Path) (x : List Byte) : (d.logNow c src p x).store = d.store := rfl
@[simp] theorem logNow_pins (c src : Nat) (p : Path) (x : List Byte) : (d.logNow c src p x).pins = d.pins := rfl
@[simp] theorem logNow_mods (c src : Nat) (p : Path) (x : List Byte) : (d.logNow c src p x).mods = d.mods := rfl
@[simp] theorem logNow_jtag (c src : Nat) (p : Path) (x : List Byte) : (d.logNow c src p x).jtag = d.jtag := rfl
@[simp] theorem logNow_dma (c src : Nat) (p : Path) (x : List Byte) : (d.logNow c src p x).dma = d.dma := rfl
@[simp] theorem logNow_raised (c src : Nat) (p : Path) (x : List Byte) : (d.logNow c src p x).raised = d.raised := rfl
@[simp] theorem logNow_alertNow (c src : Nat) (p : Path) (x : List Byte) : (d.logNow c src p x).alertNow = d.alertNow := rfl
@[simp] theorem logNow_out (c src : Nat) (p : Path) (x : List Byte) : (d.logNow c src p x).out = d.out := rfl

@[simp] theorem pass_regs (x : Nat) : (d.pass x).regs = d.regs := rfl
@[simp] theorem pass_idRegs (x : Nat) : (d.pass x).idRegs = d.idRegs := rfl
@[simp] theorem pass_stats (x : Nat) : (d.pass x).stats = d.stats := rfl
@[simp] theorem pass_readData (x : Nat) : (d.pass x).readData = d.readData := rfl
@[simp] theorem pass_free (x : Nat) : (d.pass x).free = d.free := rfl
@[simp] theorem pass_log (x : Nat) : (d.pass x).log = d.log := rfl
@[simp] theorem pass_keys (x : Nat) : (d.pass x).keys = d.keys := rfl
@[simp] theorem pass_lcy (x : Nat) : (d.pass x).lcy = d.lcy := rfl
@[simp] theorem pass_chip (x : Nat) : (d.pass x).chip = d.chip := rfl
@[simp] theorem pass_sched (x : Nat) : (d.pass x).sched = d.sched := rfl
@[simp] theorem pass_logic (x : Nat) : (d.pass x).logic = d.logic := rfl
@[simp] theorem pass_hive (x : Nat) : (d.pass x).hive = d.hive := rfl
@[simp] theorem pass_power (x : Nat) : (d.pass x).power = d.power := rfl
@[simp] theorem pass_fab (x : Nat) : (d.pass x).fab = d.fab := rfl
@[simp] theorem pass_adm (x : Nat) : (d.pass x).adm = d.adm := rfl
@[simp] theorem pass_serial (x : Nat) : (d.pass x).serial = d.serial := rfl
@[simp] theorem pass_bank (x : Nat) : (d.pass x).bank = d.bank := rfl
@[simp] theorem pass_cfg (x : Nat) : (d.pass x).cfg = d.cfg := rfl
@[simp] theorem pass_store (x : Nat) : (d.pass x).store = d.store := rfl
@[simp] theorem pass_pins (x : Nat) : (d.pass x).pins = d.pins := rfl
@[simp] theorem pass_mods (x : Nat) : (d.pass x).mods = d.mods := rfl
@[simp] theorem pass_jtag (x : Nat) : (d.pass x).jtag = d.jtag := rfl
@[simp] theorem pass_dma (x : Nat) : (d.pass x).dma = d.dma := rfl
@[simp] theorem pass_raised (x : Nat) : (d.pass x).raised = d.raised := rfl
@[simp] theorem pass_alertNow (x : Nat) : (d.pass x).alertNow = d.alertNow := rfl
@[simp] theorem pass_out (x : Nat) : (d.pass x).out = d.out := rfl

@[simp] theorem reachAhead_regs (k : Nat) : (d.reachAhead k).regs = d.regs := rfl
@[simp] theorem reachAhead_idRegs (k : Nat) : (d.reachAhead k).idRegs = d.idRegs := rfl
@[simp] theorem reachAhead_stats (k : Nat) : (d.reachAhead k).stats = d.stats := rfl
@[simp] theorem reachAhead_readData (k : Nat) : (d.reachAhead k).readData = d.readData := rfl
@[simp] theorem reachAhead_free (k : Nat) : (d.reachAhead k).free = d.free := rfl
@[simp] theorem reachAhead_log (k : Nat) : (d.reachAhead k).log = d.log := rfl
@[simp] theorem reachAhead_keys (k : Nat) : (d.reachAhead k).keys = d.keys := rfl
@[simp] theorem reachAhead_lcy (k : Nat) : (d.reachAhead k).lcy = d.lcy := rfl
@[simp] theorem reachAhead_chip (k : Nat) : (d.reachAhead k).chip = d.chip := rfl
@[simp] theorem reachAhead_sched (k : Nat) : (d.reachAhead k).sched = d.sched := rfl
@[simp] theorem reachAhead_logic (k : Nat) : (d.reachAhead k).logic = d.logic := rfl
@[simp] theorem reachAhead_hive (k : Nat) : (d.reachAhead k).hive = d.hive := rfl
@[simp] theorem reachAhead_power (k : Nat) : (d.reachAhead k).power = d.power := rfl
@[simp] theorem reachAhead_fab (k : Nat) : (d.reachAhead k).fab = d.fab := rfl
@[simp] theorem reachAhead_adm (k : Nat) : (d.reachAhead k).adm = d.adm := rfl
@[simp] theorem reachAhead_serial (k : Nat) : (d.reachAhead k).serial = d.serial := rfl
@[simp] theorem reachAhead_bank (k : Nat) : (d.reachAhead k).bank = d.bank := rfl
@[simp] theorem reachAhead_cfg (k : Nat) : (d.reachAhead k).cfg = d.cfg := rfl
@[simp] theorem reachAhead_store (k : Nat) : (d.reachAhead k).store = d.store := rfl
@[simp] theorem reachAhead_pins (k : Nat) : (d.reachAhead k).pins = d.pins := rfl
@[simp] theorem reachAhead_mods (k : Nat) : (d.reachAhead k).mods = d.mods := rfl
@[simp] theorem reachAhead_jtag (k : Nat) : (d.reachAhead k).jtag = d.jtag := rfl
@[simp] theorem reachAhead_dma (k : Nat) : (d.reachAhead k).dma = d.dma := rfl
@[simp] theorem reachAhead_raised (k : Nat) : (d.reachAhead k).raised = d.raised := rfl
@[simp] theorem reachAhead_alertNow (k : Nat) : (d.reachAhead k).alertNow = d.alertNow := rfl
@[simp] theorem reachAhead_out (k : Nat) : (d.reachAhead k).out = d.out := rfl

@[simp] theorem escalate_regs (c src : Nat) (p : Path) (x : List Byte) : (d.escalate c src p x).regs = d.regs := rfl
@[simp] theorem escalate_idRegs (c src : Nat) (p : Path) (x : List Byte) : (d.escalate c src p x).idRegs = d.idRegs := rfl
@[simp] theorem escalate_stats (c src : Nat) (p : Path) (x : List Byte) : (d.escalate c src p x).stats = d.stats := rfl
@[simp] theorem escalate_readData (c src : Nat) (p : Path) (x : List Byte) : (d.escalate c src p x).readData = d.readData := rfl
@[simp] theorem escalate_free (c src : Nat) (p : Path) (x : List Byte) : (d.escalate c src p x).free = d.free := rfl
@[simp] theorem escalate_time (c src : Nat) (p : Path) (x : List Byte) : (d.escalate c src p x).time = d.time := rfl
@[simp] theorem escalate_log (c src : Nat) (p : Path) (x : List Byte) : (d.escalate c src p x).log = d.log := rfl
@[simp] theorem escalate_keys (c src : Nat) (p : Path) (x : List Byte) : (d.escalate c src p x).keys = d.keys := rfl
@[simp] theorem escalate_lcy (c src : Nat) (p : Path) (x : List Byte) : (d.escalate c src p x).lcy = d.lcy := rfl
@[simp] theorem escalate_chip (c src : Nat) (p : Path) (x : List Byte) : (d.escalate c src p x).chip = d.chip := rfl
@[simp] theorem escalate_sched (c src : Nat) (p : Path) (x : List Byte) : (d.escalate c src p x).sched = d.sched := rfl
@[simp] theorem escalate_logic (c src : Nat) (p : Path) (x : List Byte) : (d.escalate c src p x).logic = d.logic := rfl
@[simp] theorem escalate_hive (c src : Nat) (p : Path) (x : List Byte) : (d.escalate c src p x).hive = d.hive := rfl
@[simp] theorem escalate_power (c src : Nat) (p : Path) (x : List Byte) : (d.escalate c src p x).power = d.power := rfl
@[simp] theorem escalate_fab (c src : Nat) (p : Path) (x : List Byte) : (d.escalate c src p x).fab = d.fab := rfl
@[simp] theorem escalate_adm (c src : Nat) (p : Path) (x : List Byte) : (d.escalate c src p x).adm = d.adm := rfl
@[simp] theorem escalate_serial (c src : Nat) (p : Path) (x : List Byte) : (d.escalate c src p x).serial = d.serial := rfl
@[simp] theorem escalate_bank (c src : Nat) (p : Path) (x : List Byte) : (d.escalate c src p x).bank = d.bank := rfl
@[simp] theorem escalate_cfg (c src : Nat) (p : Path) (x : List Byte) : (d.escalate c src p x).cfg = d.cfg := rfl
@[simp] theorem escalate_store (c src : Nat) (p : Path) (x : List Byte) : (d.escalate c src p x).store = d.store := rfl
@[simp] theorem escalate_pins (c src : Nat) (p : Path) (x : List Byte) : (d.escalate c src p x).pins = d.pins := rfl
@[simp] theorem escalate_mods (c src : Nat) (p : Path) (x : List Byte) : (d.escalate c src p x).mods = d.mods := rfl
@[simp] theorem escalate_jtag (c src : Nat) (p : Path) (x : List Byte) : (d.escalate c src p x).jtag = d.jtag := rfl
@[simp] theorem escalate_dma (c src : Nat) (p : Path) (x : List Byte) : (d.escalate c src p x).dma = d.dma := rfl
@[simp] theorem escalate_out (c src : Nat) (p : Path) (x : List Byte) : (d.escalate c src p x).out = d.out := rfl

@[simp] theorem freeNext_regs : (d.freeNext).regs = d.regs := rfl
@[simp] theorem freeNext_idRegs : (d.freeNext).idRegs = d.idRegs := rfl
@[simp] theorem freeNext_stats : (d.freeNext).stats = d.stats := rfl
@[simp] theorem freeNext_readData : (d.freeNext).readData = d.readData := rfl
@[simp] theorem freeNext_time : (d.freeNext).time = d.time := rfl
@[simp] theorem freeNext_log : (d.freeNext).log = d.log := rfl
@[simp] theorem freeNext_keys : (d.freeNext).keys = d.keys := rfl
@[simp] theorem freeNext_lcy : (d.freeNext).lcy = d.lcy := rfl
@[simp] theorem freeNext_chip : (d.freeNext).chip = d.chip := rfl
@[simp] theorem freeNext_sched : (d.freeNext).sched = d.sched := rfl
@[simp] theorem freeNext_logic : (d.freeNext).logic = d.logic := rfl
@[simp] theorem freeNext_hive : (d.freeNext).hive = d.hive := rfl
@[simp] theorem freeNext_power : (d.freeNext).power = d.power := rfl
@[simp] theorem freeNext_fab : (d.freeNext).fab = d.fab := rfl
@[simp] theorem freeNext_adm : (d.freeNext).adm = d.adm := rfl
@[simp] theorem freeNext_serial : (d.freeNext).serial = d.serial := rfl
@[simp] theorem freeNext_bank : (d.freeNext).bank = d.bank := rfl
@[simp] theorem freeNext_cfg : (d.freeNext).cfg = d.cfg := rfl
@[simp] theorem freeNext_store : (d.freeNext).store = d.store := rfl
@[simp] theorem freeNext_pins : (d.freeNext).pins = d.pins := rfl
@[simp] theorem freeNext_mods : (d.freeNext).mods = d.mods := rfl
@[simp] theorem freeNext_jtag : (d.freeNext).jtag = d.jtag := rfl
@[simp] theorem freeNext_dma : (d.freeNext).dma = d.dma := rfl
@[simp] theorem freeNext_raised : (d.freeNext).raised = d.raised := rfl
@[simp] theorem freeNext_out : (d.freeNext).out = d.out := rfl

@[simp] theorem reach_regs (ns : DWord) : (d.reach ns).regs = d.regs := rfl
@[simp] theorem reach_idRegs (ns : DWord) : (d.reach ns).idRegs = d.idRegs := rfl
@[simp] theorem reach_stats (ns : DWord) : (d.reach ns).stats = d.stats := rfl
@[simp] theorem reach_readData (ns : DWord) : (d.reach ns).readData = d.readData := rfl
@[simp] theorem reach_free (ns : DWord) : (d.reach ns).free = d.free := rfl
@[simp] theorem reach_log (ns : DWord) : (d.reach ns).log = d.log := rfl
@[simp] theorem reach_keys (ns : DWord) : (d.reach ns).keys = d.keys := rfl
@[simp] theorem reach_lcy (ns : DWord) : (d.reach ns).lcy = d.lcy := rfl
@[simp] theorem reach_chip (ns : DWord) : (d.reach ns).chip = d.chip := rfl
@[simp] theorem reach_sched (ns : DWord) : (d.reach ns).sched = d.sched := rfl
@[simp] theorem reach_logic (ns : DWord) : (d.reach ns).logic = d.logic := rfl
@[simp] theorem reach_hive (ns : DWord) : (d.reach ns).hive = d.hive := rfl
@[simp] theorem reach_power (ns : DWord) : (d.reach ns).power = d.power := rfl
@[simp] theorem reach_fab (ns : DWord) : (d.reach ns).fab = d.fab := rfl
@[simp] theorem reach_adm (ns : DWord) : (d.reach ns).adm = d.adm := rfl
@[simp] theorem reach_serial (ns : DWord) : (d.reach ns).serial = d.serial := rfl
@[simp] theorem reach_bank (ns : DWord) : (d.reach ns).bank = d.bank := rfl
@[simp] theorem reach_cfg (ns : DWord) : (d.reach ns).cfg = d.cfg := rfl
@[simp] theorem reach_store (ns : DWord) : (d.reach ns).store = d.store := rfl
@[simp] theorem reach_pins (ns : DWord) : (d.reach ns).pins = d.pins := rfl
@[simp] theorem reach_mods (ns : DWord) : (d.reach ns).mods = d.mods := rfl
@[simp] theorem reach_jtag (ns : DWord) : (d.reach ns).jtag = d.jtag := rfl
@[simp] theorem reach_dma (ns : DWord) : (d.reach ns).dma = d.dma := rfl
@[simp] theorem reach_raised (ns : DWord) : (d.reach ns).raised = d.raised := rfl
@[simp] theorem reach_out (ns : DWord) : (d.reach ns).out = d.out := rfl

@[simp] theorem settle_regs : (settle d).regs = d.regs := rfl
@[simp] theorem settle_idRegs : (settle d).idRegs = d.idRegs := rfl
@[simp] theorem settle_stats : (settle d).stats = d.stats := rfl
@[simp] theorem settle_readData : (settle d).readData = d.readData := rfl
@[simp] theorem settle_free : (settle d).free = d.free := rfl
@[simp] theorem settle_time : (settle d).time = d.time := rfl
@[simp] theorem settle_log : (settle d).log = d.log := rfl
@[simp] theorem settle_keys : (settle d).keys = d.keys := rfl
@[simp] theorem settle_lcy : (settle d).lcy = d.lcy := rfl
@[simp] theorem settle_chip : (settle d).chip = d.chip := rfl
@[simp] theorem settle_sched : (settle d).sched = d.sched := rfl
@[simp] theorem settle_logic : (settle d).logic = d.logic := rfl
@[simp] theorem settle_hive : (settle d).hive = d.hive := rfl
@[simp] theorem settle_power : (settle d).power = d.power := rfl
@[simp] theorem settle_fab : (settle d).fab = d.fab := rfl
@[simp] theorem settle_adm : (settle d).adm = d.adm := rfl
@[simp] theorem settle_serial : (settle d).serial = d.serial := rfl
@[simp] theorem settle_bank : (settle d).bank = d.bank := rfl
@[simp] theorem settle_cfg : (settle d).cfg = d.cfg := rfl
@[simp] theorem settle_store : (settle d).store = d.store := rfl
@[simp] theorem settle_pins : (settle d).pins = d.pins := rfl
@[simp] theorem settle_mods : (settle d).mods = d.mods := rfl
@[simp] theorem settle_jtag : (settle d).jtag = d.jtag := rfl
@[simp] theorem settle_dma : (settle d).dma = d.dma := rfl
@[simp] theorem settle_raised : (settle d).raised = d.raised := rfl

/-- A register reads by the map of registers alone. -/
@[simp] theorem settle_reg (off : Nat) : (settle d).reg off = d.reg off := rfl
@[simp] theorem settle_rbit (off i : Nat) : (settle d).rbit off i = d.rbit off i := rfl
@[simp] theorem settle_fld (off lo len : Nat) : (settle d).fld off lo len = d.fld off lo len := rfl
@[simp] theorem settle_stat (off : Nat) : (settle d).stat off = d.stat off := rfl
@[simp] theorem settle_idReg (id off : Nat) : (settle d).idReg id off = d.idReg id off := rfl

/-- The pins after a command follow from the rest of the state. -/
@[simp] theorem settle_alert : (settle d).out.alert = d.alertNow := rfl
@[simp] theorem settle_shutdownDone : (settle d).out.shutdownDone = d.rbit pwrStatus 31 := rfl
@[simp] theorem settle_alertNow : (settle d).alertNow = d.alertNow := rfl

/-- With no escalation and no log entry waiting, the end of a command changes nothing. -/
@[simp] theorem flush_quiet {d : Dev} (h : d.raised = []) (h2 : d.log.intake = []) : d.flush = d := by simp [Dev.flush, h, h2]

/-- With no escalation and no log entry waiting, a command ends with its device settled. -/
theorem finish_quiet (s : State) {d : Dev} (h : d.raised = []) (h2 : d.log.intake = []) :
    finish s d = .next { s with dev := settle d } := by
  simp [finish, flush_quiet h h2]

/-- Every command ends with a device that `finish` settles. -/
theorem exec_finish (c : Instr) (s : State) : ∃ d, exec c s = finish s d := by
  cases c <;> exact ⟨_, rfl⟩

end Sys2Proof.Machine
end

