-- ==== Sys2Proof/Laws/Regs.lean ====
section
/-! SUPPORT. The laws of registers and counters: read after write, and what each operation leaves alone. -/
namespace Sys2Proof.Machine

variable (d : Dev)

/-- A register reads as what was written to it. -/
@[simp] theorem reg_setReg_same (off : Nat) (v : Word) : (d.setReg off v).reg off = v :=
  mget_mset_same _ _ _ _

/-- A write of a register leaves every other register alone. -/
theorem reg_setReg_other {off o : Nat} (h : o ≠ off) (v : Word) : (d.setReg off v).reg o = d.reg o :=
  mget_mset_other h _ _

theorem reg_setReg (off o : Nat) (v : Word) : (d.setReg off v).reg o = if o = off then v else d.reg o := by
  split
  · rename_i h; subst h; simp
  · rename_i h; exact reg_setReg_other d h v

@[simp] theorem reg_setFld_same (off lo len v : Nat) : (d.setFld off lo len v).reg off = setBits (d.reg off) lo len v := by
  simp [Dev.setFld]

theorem reg_setFld_other {off o : Nat} (h : o ≠ off) (lo len v : Nat) : (d.setFld off lo len v).reg o = d.reg o :=
  reg_setReg_other d h _

@[simp] theorem reg_setRbit_same (off i : Nat) (b : Bool) : (d.setRbit off i b).reg off = setBit (d.reg off) i b := by
  simp [Dev.setRbit]

theorem reg_setRbit_other {off o : Nat} (h : o ≠ off) (i : Nat) (b : Bool) : (d.setRbit off i b).reg o = d.reg o :=
  reg_setReg_other d h _

/-- A counter counts, and stays at its largest value (R14). -/
@[simp] theorem reg_count_same (off n : Nat) :
    (d.count off n).reg off = BitVec.ofNat 32 (min ((d.reg off).toNat + n) 0xFFFFFFFF) := by
  simp [Dev.count]

theorem reg_count_other {off o : Nat} (h : o ≠ off) (n : Nat) : (d.count off n).reg o = d.reg o :=
  reg_setReg_other d h _

@[simp] theorem reg_seqUp_same (off : Nat) : (d.seqUp off).reg off = d.reg off + 1 := by simp [Dev.seqUp]

theorem reg_seqUp_other {off o : Nat} (h : o ≠ off) : (d.seqUp off).reg o = d.reg o := reg_setReg_other d h _

@[simp] theorem idReg_setIdReg_same (id off : Nat) (v : Word) : (d.setIdReg id off v).idReg id off = v :=
  mget_mset_same _ _ _ _

theorem idReg_setIdReg_other {id off i o : Nat} (h : idKey i o ≠ idKey id off) (v : Word) :
    (d.setIdReg id off v).idReg i o = d.idReg i o := mget_mset_other h _ _

@[simp] theorem stat_statUp_same (off n : Nat) : (d.statUp off n).stat off = (d.stat off).add n := mget_mset_same _ _ _ _

theorem stat_statUp_other {off o : Nat} (h : o ≠ off) (n : Nat) : (d.statUp off n).stat o = d.stat o :=
  mget_mset_other h _ _

@[simp] theorem stat_statClear_same (off : Nat) : (d.statClear off).stat off = Stat.zero := by
  unfold Dev.statClear Dev.stat; simp

theorem stat_statClear_other {off o : Nat} (h : o ≠ off) : (d.statClear off).stat o = d.stat o := by
  unfold Dev.statClear Dev.stat; simp [mget_mset_other h]

/-- Only a register write changes what a register reads as. -/
@[simp] theorem reg_setIdReg (id off : Nat) (v : Word) (o : Nat) : (d.setIdReg id off v).reg o = d.reg o := by
  unfold Dev.reg; rw [setIdReg_regs]
@[simp] theorem reg_statUp (off n o : Nat) : (d.statUp off n).reg o = d.reg o := rfl
@[simp] theorem reg_statClear (off o : Nat) : (d.statClear off).reg o = d.reg o := rfl
@[simp] theorem reg_logEntry (c src : Nat) (p : Path) (x : List Byte) (o : Nat) : (d.logEntry c src p x).reg o = d.reg o := rfl
@[simp] theorem reg_escalate (c src : Nat) (p : Path) (x : List Byte) (o : Nat) : (d.escalate c src p x).reg o = d.reg o := rfl
@[simp] theorem reg_freeNext (o : Nat) : d.freeNext.reg o = d.reg o := rfl
@[simp] theorem reg_reach (ns : DWord) (o : Nat) : (d.reach ns).reg o = d.reg o := rfl

end Sys2Proof.Machine
end

