-- ==== Sys2Proof/Laws/Hive.lean ====
section
/-! SUPPORT. What taking up a request does, said once: the command runs on the device that has taken it up, and its answer
is the reply. -/
namespace Sys2Proof.Machine

/-- A command that runs on the request it takes up. -/
theorem imfa_taken {d : Dev} {opcode : Nat} {r : Req} {rest : List Req} (h : d.Takes opcode r rest) (f : Command) :
    d.imfa opcode f =
      (match f (d.taken r rest) r with
       | (d, some a) => d.jobReply r a
       | (d, none) => d) := by
  obtain ⟨h1, h2, h3, h4⟩ := h
  unfold Dev.imfa
  rw [if_pos (by simp [h1, h2]), h3]
  exact if_pos h4

/-- A command behind its parameter check, where the check passes. -/
theorem checked_pass {len : Nat} {z : List (Nat × Nat)} {g : List (Nat × Nat × Nat × Nat)} {f : Command} {d : Dev} {r : Req}
    (h : checkParams r len z g = none) : checked len z g f d r = f d r := by
  simp [checked, h]

/-- An empty parameter field passes the check of a command without parameters. -/
theorem checkParams_empty {r : Req} (h : r.params = []) : checkParams r 0 [] [] = none := by
  simp [checkParams, Req.len, h]

theorem gated_none (d : Dev) (f : Unit → Dev × Option Answer) : gated none d f = f () := rfl

@[simp] theorem setHport_keys (d : Dev) (v : Via) (p : HivePort) : (d.setHport v p).keys = d.keys := by cases v <;> rfl
@[simp] theorem setHport_lcy (d : Dev) (v : Via) (p : HivePort) : (d.setHport v p).lcy = d.lcy := by cases v <;> rfl
@[simp] theorem setHport_log (d : Dev) (v : Via) (p : HivePort) : (d.setHport v p).log = d.log := by cases v <;> rfl
@[simp] theorem setHport_time (d : Dev) (v : Via) (p : HivePort) : (d.setHport v p).time = d.time := by cases v <;> rfl
@[simp] theorem setHport_regs (d : Dev) (v : Via) (p : HivePort) : (d.setHport v p).regs = d.regs := by cases v <;> rfl
@[simp] theorem setHport_store (d : Dev) (v : Via) (p : HivePort) : (d.setHport v p).store = d.store := by cases v <;> rfl
@[simp] theorem setHport_bank (d : Dev) (v : Via) (p : HivePort) : (d.setHport v p).bank = d.bank := by cases v <;> rfl
@[simp] theorem setHport_cfg (d : Dev) (v : Via) (p : HivePort) : (d.setHport v p).cfg = d.cfg := by cases v <;> rfl
@[simp] theorem setHport_adm (d : Dev) (v : Via) (p : HivePort) : (d.setHport v p).adm = d.adm := by cases v <;> rfl
@[simp] theorem setHport_fab (d : Dev) (v : Via) (p : HivePort) : (d.setHport v p).fab = d.fab := by cases v <;> rfl
@[simp] theorem setHport_power (d : Dev) (v : Via) (p : HivePort) : (d.setHport v p).power = d.power := by cases v <;> rfl
@[simp] theorem setHport_raised (d : Dev) (v : Via) (p : HivePort) : (d.setHport v p).raised = d.raised := by cases v <;> rfl
@[simp] theorem setHport_jobs (d : Dev) (v : Via) (p : HivePort) : (d.setHport v p).hive.jobs = d.hive.jobs := by cases v <;> rfl

@[simp] theorem taken_keys (d : Dev) (r : Req) (rest : List Req) : (d.taken r rest).keys = d.keys := by simp [Dev.taken]
@[simp] theorem taken_lcy (d : Dev) (r : Req) (rest : List Req) : (d.taken r rest).lcy = d.lcy := by simp [Dev.taken]
@[simp] theorem taken_log (d : Dev) (r : Req) (rest : List Req) : (d.taken r rest).log = d.log := by simp [Dev.taken]
@[simp] theorem taken_time (d : Dev) (r : Req) (rest : List Req) : (d.taken r rest).time = d.time := by simp [Dev.taken]
@[simp] theorem taken_store (d : Dev) (r : Req) (rest : List Req) : (d.taken r rest).store = d.store := by simp [Dev.taken]
@[simp] theorem taken_bank (d : Dev) (r : Req) (rest : List Req) : (d.taken r rest).bank = d.bank := by simp [Dev.taken]
@[simp] theorem taken_cfg (d : Dev) (r : Req) (rest : List Req) : (d.taken r rest).cfg = d.cfg := by simp [Dev.taken]
@[simp] theorem taken_adm (d : Dev) (r : Req) (rest : List Req) : (d.taken r rest).adm = d.adm := by simp [Dev.taken]
@[simp] theorem taken_fab (d : Dev) (r : Req) (rest : List Req) : (d.taken r rest).fab = d.fab := by simp [Dev.taken]
@[simp] theorem taken_power (d : Dev) (r : Req) (rest : List Req) : (d.taken r rest).power = d.power := by simp [Dev.taken]
@[simp] theorem taken_raised (d : Dev) (r : Req) (rest : List Req) : (d.taken r rest).raised = d.raised := by simp [Dev.taken]
@[simp] theorem taken_jobs (d : Dev) (r : Req) (rest : List Req) : (d.taken r rest).hive.jobs = d.hive.jobs := by
  simp [Dev.taken]

/-- Taking a request up changes no register but the transport's request counter. -/
theorem taken_reg (d : Dev) (r : Req) (rest : List Req) {o : Nat} (h : o ≠ imfaReq (viaNum r.via)) :
    (d.taken r rest).reg o = d.reg o := by
  unfold Dev.taken Dev.reg
  simp only [setHport_regs]
  exact reg_count_other _ h 1

end Sys2Proof.Machine
end

