-- ==== Sys2Proof/Laws/Memory.lean ====
section
/-! SUPPORT. Every operation on the addressed memories keeps their canonical form, reads after writes, and the memories of
a device at reset. -/
namespace Sys2Proof.Machine

theorem memory_wf_iff (d : Dev) : Memory.wf d = true ↔
    (mwf (wordUnlisted d.bank.wordsFree) d.bank.words = true ∧ mwf (bramUnlisted d.logic.bramFree) d.logic.bram = true ∧
      mwf (fun _ => NvWord.blank) d.store.words = true) := by
  simp [Memory.wf, Bool.and_eq_true, and_assoc]

theorem memory_wf_reset : Memory.wf State.reset.dev = true := by decide

/-! ## Deep banks -/

theorem memory_wf_setBword {d : Dev} (h : Memory.wf d = true) (p a : Nat) (v : BitVec 512) :
    Memory.wf (d.setBword p a v) = true := by
  rw [memory_wf_iff] at h ⊢
  exact ⟨mwf_mset h.1 _ _, h.2⟩

@[simp] theorem bword_setBword_same (d : Dev) (p a : Nat) (v : BitVec 512) : (d.setBword p a v).bword p a = v :=
  mget_mset_same _ _ _ _

theorem bword_setBword_other (d : Dev) {p a q b : Nat} (h : wordKey q b ≠ wordKey p a) (v : BitVec 512) :
    (d.setBword p a v).bword q b = d.bword q b := mget_mset_other h _ _

theorem memory_wf_forEach {α : Type} {f : Dev → α → Dev} (hf : ∀ d x, Memory.wf d = true → Memory.wf (f d x) = true) :
    ∀ (xs : List α) {d : Dev}, Memory.wf d = true → Memory.wf (d.forEach xs f) = true
  | [], _, h => h
  | x :: xs, d, h => memory_wf_forEach hf xs (hf d x h)

theorem memory_wf_zeroSecure {d : Dev} (h : Memory.wf d = true) (p : Nat) : Memory.wf (d.zeroSecure p) = true := by
  show Memory.wf (if mget (fun _ => 0) d.bank.wordsFree p = 0 then _ else _) = true
  split
  · rw [memory_wf_iff] at h ⊢
    exact ⟨mwf_mdrop h.1 (fun k => decide (k / 65536 = p) && secureWord (k % 65536)), h.2⟩
  · exact memory_wf_forEach (fun d i hd => memory_wf_setBword hd p (64512 + i) 0) _ h

/-- Words of a physical bank written to one value, one after another: each then reads it, and no other word changes. -/
theorem bword_filled (p q b : Nat) (v : BitVec 512) : ∀ (xs : List Nat) (d : Dev),
    (d.forEach xs (fun d i => d.setBword p (64512 + i) v)).bword q b =
      if xs.any (fun i => decide (wordKey q b = wordKey p (64512 + i))) then v else d.bword q b
  | [], d => rfl
  | x :: xs, d => by
    have ih := bword_filled p q b v xs (d.setBword p (64512 + x) v)
    show ((d.setBword p (64512 + x) v).forEach xs (fun d i => d.setBword p (64512 + i) v)).bword q b = _
    rw [ih, List.any_cons]
    by_cases h : wordKey q b = wordKey p (64512 + x)
    · have e : (d.setBword p (64512 + x) v).bword q b = v := by
        unfold Dev.bword Dev.setBword
        rw [h]
        exact mget_mset_same _ _ _ _
      simp only [e, h, decide_true, Bool.true_or, if_true, ite_self]
    · simp only [bword_setBword_other d h, h, decide_false, Bool.false_or]

/-- A bank that is zeroed loses its words with the free values that unlisted ones read as. -/
theorem memory_wf_zeroBank {d : Dev} (h : Memory.wf d = true) (p : Nat) : Memory.wf (d.zeroBank p) = true := by
  rw [memory_wf_iff] at h ⊢
  refine ⟨mwf_congr (mwf_mdrop h.1 (fun k => decide (k / 65536 = p))) ?_, h.2⟩
  intro x hx
  have hx2 : x.1 / 65536 ≠ p := by
    have := (List.mem_filter.1 hx).2
    simpa using this
  show wordUnlisted d.bank.wordsFree x.1 = wordUnlisted (mdel d.bank.wordsFree p) x.1
  simp only [wordUnlisted, mget_mdel_other _ hx2]

theorem memory_wf_endMarch {d : Dev} (h : Memory.wf d = true) (p : Nat) : Memory.wf (d.endMarch p) = true := h

theorem memory_wf_setReg {d : Dev} (h : Memory.wf d = true) (off : Nat) (v : Word) : Memory.wf (d.setReg off v) = true := h

/-- A march cut short leaves free values in an empty bank. -/
theorem memory_wf_wordsFree {d : Dev} (h : Memory.wf d = true) (p v n : Nat)
    (he : ∀ x ∈ d.bank.words, x.1 / 65536 ≠ p) :
    Memory.wf { d with bank := { d.bank with wordsFree := mset (fun _ => 0) d.bank.wordsFree p v }, free := n } = true := by
  rw [memory_wf_iff] at h ⊢
  refine ⟨mwf_congr h.1 ?_, h.2⟩
  intro x hx
  simp only [wordUnlisted, mget_mset_other (he x hx)]

theorem zeroBank_empty (d : Dev) (p : Nat) : ∀ x ∈ (d.zeroBank p).bank.words, x.1 / 65536 ≠ p := by
  intro x hx
  have := (List.mem_filter.1 hx).2
  simpa using this

/-! ## Block memories -/

theorem memory_wf_setBramRow {d : Dev} (h : Memory.wf d = true) (n m r : Nat) (v : BitVec 72) :
    Memory.wf (d.setBramRow n m r v) = true := by
  rw [memory_wf_iff] at h ⊢
  exact ⟨h.1, mwf_mset h.2.1 _ _, h.2.2⟩

@[simp] theorem bramRow_setBramRow_same (d : Dev) (n m r : Nat) (v : BitVec 72) :
    (d.setBramRow n m r v).bramRow n m r = v := mget_mset_same _ _ _ _

theorem bramRow_setBramRow_other (d : Dev) {n m r n' m' r' : Nat} (h : rowKey n' m' r' ≠ rowKey n m r) (v : BitVec 72) :
    (d.setBramRow n m r v).bramRow n' m' r' = d.bramRow n' m' r' := mget_mset_other h _ _

theorem memory_wf_zeroBram {d : Dev} (h : Memory.wf d = true) (n : Nat) : Memory.wf (d.zeroBram n) = true := by
  rw [memory_wf_iff] at h ⊢
  refine ⟨h.1, mwf_congr (mwf_mdrop h.2.1 (fun k => decide (k / 122880 = n))) ?_, h.2.2⟩
  intro x hx
  have hx2 : x.1 / 122880 ≠ n := by
    have := (List.mem_filter.1 hx).2
    simpa using this
  show bramUnlisted d.logic.bramFree x.1 = bramUnlisted (mdel d.logic.bramFree n) x.1
  simp only [bramUnlisted, mget_mdel_other _ hx2]

/-- A march cut short leaves free values in a region's emptied memories. -/
theorem memory_wf_bramFree {d : Dev} (h : Memory.wf d = true) (n v f : Nat)
    (he : ∀ x ∈ d.logic.bram, x.1 / 122880 ≠ n) :
    Memory.wf { d with logic := { d.logic with bramFree := mset (fun _ => 0) d.logic.bramFree n v }, free := f } = true := by
  rw [memory_wf_iff] at h ⊢
  refine ⟨h.1, mwf_congr h.2.1 ?_, h.2.2⟩
  intro x hx
  simp only [bramUnlisted, mget_mset_other (he x hx)]

theorem zeroBram_empty (d : Dev) (n : Nat) : ∀ x ∈ (d.zeroBram n).logic.bram, x.1 / 122880 ≠ n := by
  intro x hx
  have := (List.mem_filter.1 hx).2
  simpa using this

/-! ## The store -/

theorem memory_wf_setWord {d : Dev} (h : Memory.wf d = true) (ph w : Nat) (v : NvWord) :
    Memory.wf (d.setStore (d.store.setWord ph w v)) = true := by
  rw [memory_wf_iff] at h ⊢
  exact ⟨h.1, h.2.1, mwf_mset h.2.2 _ _⟩

@[simp] theorem word_setWord_same (s : StoreState) (ph w : Nat) (v : NvWord) : (s.setWord ph w v).word ph w = v :=
  mget_mset_same _ _ _ _

theorem word_setWord_other (s : StoreState) {ph w ph' w' : Nat} (h : nvKey ph' w' ≠ nvKey ph w) (v : NvWord) :
    (s.setWord ph w v).word ph' w' = s.word ph' w' := mget_mset_other h _ _

theorem memory_wf_blankSector {d : Dev} (h : Memory.wf d = true) (ph : Nat) :
    Memory.wf (d.setStore (d.store.blankSector ph)) = true := by
  rw [memory_wf_iff] at h ⊢
  exact ⟨h.1, h.2.1, mwf_mdrop h.2.2 (fun k => decide (k / sectorWords = ph))⟩

theorem mwf_upset (us : List (Nat × Nat)) : ∀ (s : StoreState), mwf (fun _ => NvWord.blank) s.words = true →
    mwf (fun _ => NvWord.blank) (s.upset us).words = true := by
  induction us with
  | nil => intro s h; exact h
  | cons u t ih => intro s h; exact ih _ (mwf_mset h _ _)

theorem memory_wf_upset {d : Dev} (h : Memory.wf d = true) (us : List (Nat × Nat)) :
    Memory.wf (d.setStore (d.store.upset us)) = true := by
  rw [memory_wf_iff] at h ⊢
  exact ⟨h.1, h.2.1, mwf_upset us _ h.2.2⟩

end Sys2Proof.Machine
end

