-- ==== Sys2Proof/Laws/Units.lean ====
section
/-! SUPPORT. The updates of one unit: each leaves the registers alone, and reads back as written. -/
namespace Sys2Proof.Machine

variable (d : Dev)

@[simp] theorem setRaw_regs (n : Nat) (x : RawState) : (d.setRaw n x).regs = d.regs := rfl
@[simp] theorem setRaw_reg (n : Nat) (x : RawState) (o : Nat) : (d.setRaw n x).reg o = d.reg o := rfl
@[simp] theorem setRaw_stats (n : Nat) (x : RawState) : (d.setRaw n x).stats = d.stats := rfl
@[simp] theorem setRaw_time (n : Nat) (x : RawState) : (d.setRaw n x).time = d.time := rfl
@[simp] theorem setRaw_log (n : Nat) (x : RawState) : (d.setRaw n x).log = d.log := rfl
@[simp] theorem setRaw_sched (n : Nat) (x : RawState) : (d.setRaw n x).sched = d.sched := rfl
@[simp] theorem setRaw_logic (n : Nat) (x : RawState) : (d.setRaw n x).logic = d.logic := rfl
@[simp] theorem setRaw_hive (n : Nat) (x : RawState) : (d.setRaw n x).hive = d.hive := rfl
@[simp] theorem setRaw_power (n : Nat) (x : RawState) : (d.setRaw n x).power = d.power := rfl
@[simp] theorem setRaw_fab (n : Nat) (x : RawState) : (d.setRaw n x).fab = d.fab := rfl
@[simp] theorem setRaw_adm (n : Nat) (x : RawState) : (d.setRaw n x).adm = d.adm := rfl
@[simp] theorem setRaw_bank (n : Nat) (x : RawState) : (d.setRaw n x).bank = d.bank := rfl
@[simp] theorem setRaw_cfg (n : Nat) (x : RawState) : (d.setRaw n x).cfg = d.cfg := rfl
@[simp] theorem setRaw_store (n : Nat) (x : RawState) : (d.setRaw n x).store = d.store := rfl
@[simp] theorem setRaw_mods (n : Nat) (x : RawState) : (d.setRaw n x).mods = d.mods := rfl
@[simp] theorem setRaw_dma (n : Nat) (x : RawState) : (d.setRaw n x).dma = d.dma := rfl
@[simp] theorem setRaw_same (n : Nat) (x : RawState) : (d.setRaw n x).rawLane n = x := mget_mset_same _ _ _ _
@[simp] theorem setMacTx_regs (n : Nat) (x : List TxMsg) : (d.setMacTx n x).regs = d.regs := rfl
@[simp] theorem setMacTx_reg (n : Nat) (x : List TxMsg) (o : Nat) : (d.setMacTx n x).reg o = d.reg o := rfl
@[simp] theorem setMacTx_stats (n : Nat) (x : List TxMsg) : (d.setMacTx n x).stats = d.stats := rfl
@[simp] theorem setMacTx_time (n : Nat) (x : List TxMsg) : (d.setMacTx n x).time = d.time := rfl
@[simp] theorem setMacTx_log (n : Nat) (x : List TxMsg) : (d.setMacTx n x).log = d.log := rfl
@[simp] theorem setMacTx_sched (n : Nat) (x : List TxMsg) : (d.setMacTx n x).sched = d.sched := rfl
@[simp] theorem setMacTx_logic (n : Nat) (x : List TxMsg) : (d.setMacTx n x).logic = d.logic := rfl
@[simp] theorem setMacTx_hive (n : Nat) (x : List TxMsg) : (d.setMacTx n x).hive = d.hive := rfl
@[simp] theorem setMacTx_power (n : Nat) (x : List TxMsg) : (d.setMacTx n x).power = d.power := rfl
@[simp] theorem setMacTx_fab (n : Nat) (x : List TxMsg) : (d.setMacTx n x).fab = d.fab := rfl
@[simp] theorem setMacTx_adm (n : Nat) (x : List TxMsg) : (d.setMacTx n x).adm = d.adm := rfl
@[simp] theorem setMacTx_bank (n : Nat) (x : List TxMsg) : (d.setMacTx n x).bank = d.bank := rfl
@[simp] theorem setMacTx_cfg (n : Nat) (x : List TxMsg) : (d.setMacTx n x).cfg = d.cfg := rfl
@[simp] theorem setMacTx_store (n : Nat) (x : List TxMsg) : (d.setMacTx n x).store = d.store := rfl
@[simp] theorem setMacTx_mods (n : Nat) (x : List TxMsg) : (d.setMacTx n x).mods = d.mods := rfl
@[simp] theorem setMacTx_dma (n : Nat) (x : List TxMsg) : (d.setMacTx n x).dma = d.dma := rfl
@[simp] theorem setMacTx_same (n : Nat) (x : List TxMsg) : (d.setMacTx n x).macTx n = x := mget_mset_same _ _ _ _
@[simp] theorem setTxts_regs (n : Nat) (x : List TxStamp) : (d.setTxts n x).regs = d.regs := rfl
@[simp] theorem setTxts_reg (n : Nat) (x : List TxStamp) (o : Nat) : (d.setTxts n x).reg o = d.reg o := rfl
@[simp] theorem setTxts_stats (n : Nat) (x : List TxStamp) : (d.setTxts n x).stats = d.stats := rfl
@[simp] theorem setTxts_time (n : Nat) (x : List TxStamp) : (d.setTxts n x).time = d.time := rfl
@[simp] theorem setTxts_log (n : Nat) (x : List TxStamp) : (d.setTxts n x).log = d.log := rfl
@[simp] theorem setTxts_sched (n : Nat) (x : List TxStamp) : (d.setTxts n x).sched = d.sched := rfl
@[simp] theorem setTxts_logic (n : Nat) (x : List TxStamp) : (d.setTxts n x).logic = d.logic := rfl
@[simp] theorem setTxts_hive (n : Nat) (x : List TxStamp) : (d.setTxts n x).hive = d.hive := rfl
@[simp] theorem setTxts_power (n : Nat) (x : List TxStamp) : (d.setTxts n x).power = d.power := rfl
@[simp] theorem setTxts_fab (n : Nat) (x : List TxStamp) : (d.setTxts n x).fab = d.fab := rfl
@[simp] theorem setTxts_adm (n : Nat) (x : List TxStamp) : (d.setTxts n x).adm = d.adm := rfl
@[simp] theorem setTxts_bank (n : Nat) (x : List TxStamp) : (d.setTxts n x).bank = d.bank := rfl
@[simp] theorem setTxts_cfg (n : Nat) (x : List TxStamp) : (d.setTxts n x).cfg = d.cfg := rfl
@[simp] theorem setTxts_store (n : Nat) (x : List TxStamp) : (d.setTxts n x).store = d.store := rfl
@[simp] theorem setTxts_mods (n : Nat) (x : List TxStamp) : (d.setTxts n x).mods = d.mods := rfl
@[simp] theorem setTxts_dma (n : Nat) (x : List TxStamp) : (d.setTxts n x).dma = d.dma := rfl
@[simp] theorem setTxts_same (n : Nat) (x : List TxStamp) : (d.setTxts n x).txtsOf n = x := mget_mset_same _ _ _ _
@[simp] theorem setFlow_regs (f : Nat) (x : Flow) : (d.setFlow f x).regs = d.regs := rfl
@[simp] theorem setFlow_reg (f : Nat) (x : Flow) (o : Nat) : (d.setFlow f x).reg o = d.reg o := rfl
@[simp] theorem setFlow_stats (f : Nat) (x : Flow) : (d.setFlow f x).stats = d.stats := rfl
@[simp] theorem setFlow_time (f : Nat) (x : Flow) : (d.setFlow f x).time = d.time := rfl
@[simp] theorem setFlow_log (f : Nat) (x : Flow) : (d.setFlow f x).log = d.log := rfl
@[simp] theorem setFlow_sched (f : Nat) (x : Flow) : (d.setFlow f x).sched = d.sched := rfl
@[simp] theorem setFlow_logic (f : Nat) (x : Flow) : (d.setFlow f x).logic = d.logic := rfl
@[simp] theorem setFlow_hive (f : Nat) (x : Flow) : (d.setFlow f x).hive = d.hive := rfl
@[simp] theorem setFlow_power (f : Nat) (x : Flow) : (d.setFlow f x).power = d.power := rfl
@[simp] theorem setFlow_fab (f : Nat) (x : Flow) : (d.setFlow f x).fab = d.fab := rfl
@[simp] theorem setFlow_serial (f : Nat) (x : Flow) : (d.setFlow f x).serial = d.serial := rfl
@[simp] theorem setFlow_bank (f : Nat) (x : Flow) : (d.setFlow f x).bank = d.bank := rfl
@[simp] theorem setFlow_cfg (f : Nat) (x : Flow) : (d.setFlow f x).cfg = d.cfg := rfl
@[simp] theorem setFlow_store (f : Nat) (x : Flow) : (d.setFlow f x).store = d.store := rfl
@[simp] theorem setFlow_mods (f : Nat) (x : Flow) : (d.setFlow f x).mods = d.mods := rfl
@[simp] theorem setFlow_dma (f : Nat) (x : Flow) : (d.setFlow f x).dma = d.dma := rfl
@[simp] theorem setFlow_same (f : Nat) (x : Flow) : (d.setFlow f x).flow f = x := mget_mset_same _ _ _ _
@[simp] theorem setIng_regs (e : Nat) (x : Ingress) : (d.setIng e x).regs = d.regs := rfl
@[simp] theorem setIng_reg (e : Nat) (x : Ingress) (o : Nat) : (d.setIng e x).reg o = d.reg o := rfl
@[simp] theorem setIng_stats (e : Nat) (x : Ingress) : (d.setIng e x).stats = d.stats := rfl
@[simp] theorem setIng_time (e : Nat) (x : Ingress) : (d.setIng e x).time = d.time := rfl
@[simp] theorem setIng_log (e : Nat) (x : Ingress) : (d.setIng e x).log = d.log := rfl
@[simp] theorem setIng_sched (e : Nat) (x : Ingress) : (d.setIng e x).sched = d.sched := rfl
@[simp] theorem setIng_logic (e : Nat) (x : Ingress) : (d.setIng e x).logic = d.logic := rfl
@[simp] theorem setIng_hive (e : Nat) (x : Ingress) : (d.setIng e x).hive = d.hive := rfl
@[simp] theorem setIng_power (e : Nat) (x : Ingress) : (d.setIng e x).power = d.power := rfl
@[simp] theorem setIng_adm (e : Nat) (x : Ingress) : (d.setIng e x).adm = d.adm := rfl
@[simp] theorem setIng_serial (e : Nat) (x : Ingress) : (d.setIng e x).serial = d.serial := rfl
@[simp] theorem setIng_bank (e : Nat) (x : Ingress) : (d.setIng e x).bank = d.bank := rfl
@[simp] theorem setIng_cfg (e : Nat) (x : Ingress) : (d.setIng e x).cfg = d.cfg := rfl
@[simp] theorem setIng_store (e : Nat) (x : Ingress) : (d.setIng e x).store = d.store := rfl
@[simp] theorem setIng_mods (e : Nat) (x : Ingress) : (d.setIng e x).mods = d.mods := rfl
@[simp] theorem setIng_dma (e : Nat) (x : Ingress) : (d.setIng e x).dma = d.dma := rfl
@[simp] theorem setIng_same (e : Nat) (x : Ingress) : (d.setIng e x).ing e = x := mget_mset_same _ _ _ _
@[simp] theorem setPool_regs (e : Nat) (x : List PoolEnt) : (d.setPool e x).regs = d.regs := rfl
@[simp] theorem setPool_reg (e : Nat) (x : List PoolEnt) (o : Nat) : (d.setPool e x).reg o = d.reg o := rfl
@[simp] theorem setPool_stats (e : Nat) (x : List PoolEnt) : (d.setPool e x).stats = d.stats := rfl
@[simp] theorem setPool_time (e : Nat) (x : List PoolEnt) : (d.setPool e x).time = d.time := rfl
@[simp] theorem setPool_log (e : Nat) (x : List PoolEnt) : (d.setPool e x).log = d.log := rfl
@[simp] theorem setPool_sched (e : Nat) (x : List PoolEnt) : (d.setPool e x).sched = d.sched := rfl
@[simp] theorem setPool_logic (e : Nat) (x : List PoolEnt) : (d.setPool e x).logic = d.logic := rfl
@[simp] theorem setPool_hive (e : Nat) (x : List PoolEnt) : (d.setPool e x).hive = d.hive := rfl
@[simp] theorem setPool_power (e : Nat) (x : List PoolEnt) : (d.setPool e x).power = d.power := rfl
@[simp] theorem setPool_adm (e : Nat) (x : List PoolEnt) : (d.setPool e x).adm = d.adm := rfl
@[simp] theorem setPool_serial (e : Nat) (x : List PoolEnt) : (d.setPool e x).serial = d.serial := rfl
@[simp] theorem setPool_bank (e : Nat) (x : List PoolEnt) : (d.setPool e x).bank = d.bank := rfl
@[simp] theorem setPool_cfg (e : Nat) (x : List PoolEnt) : (d.setPool e x).cfg = d.cfg := rfl
@[simp] theorem setPool_store (e : Nat) (x : List PoolEnt) : (d.setPool e x).store = d.store := rfl
@[simp] theorem setPool_mods (e : Nat) (x : List PoolEnt) : (d.setPool e x).mods = d.mods := rfl
@[simp] theorem setPool_dma (e : Nat) (x : List PoolEnt) : (d.setPool e x).dma = d.dma := rfl
@[simp] theorem setPool_same (e : Nat) (x : List PoolEnt) : (d.setPool e x).pool e = x := mget_mset_same _ _ _ _
@[simp] theorem setRx_regs (e : Nat) (x : List Cell) : (d.setRx e x).regs = d.regs := rfl
@[simp] theorem setRx_reg (e : Nat) (x : List Cell) (o : Nat) : (d.setRx e x).reg o = d.reg o := rfl
@[simp] theorem setRx_stats (e : Nat) (x : List Cell) : (d.setRx e x).stats = d.stats := rfl
@[simp] theorem setRx_time (e : Nat) (x : List Cell) : (d.setRx e x).time = d.time := rfl
@[simp] theorem setRx_log (e : Nat) (x : List Cell) : (d.setRx e x).log = d.log := rfl
@[simp] theorem setRx_sched (e : Nat) (x : List Cell) : (d.setRx e x).sched = d.sched := rfl
@[simp] theorem setRx_logic (e : Nat) (x : List Cell) : (d.setRx e x).logic = d.logic := rfl
@[simp] theorem setRx_hive (e : Nat) (x : List Cell) : (d.setRx e x).hive = d.hive := rfl
@[simp] theorem setRx_power (e : Nat) (x : List Cell) : (d.setRx e x).power = d.power := rfl
@[simp] theorem setRx_adm (e : Nat) (x : List Cell) : (d.setRx e x).adm = d.adm := rfl
@[simp] theorem setRx_serial (e : Nat) (x : List Cell) : (d.setRx e x).serial = d.serial := rfl
@[simp] theorem setRx_bank (e : Nat) (x : List Cell) : (d.setRx e x).bank = d.bank := rfl
@[simp] theorem setRx_cfg (e : Nat) (x : List Cell) : (d.setRx e x).cfg = d.cfg := rfl
@[simp] theorem setRx_store (e : Nat) (x : List Cell) : (d.setRx e x).store = d.store := rfl
@[simp] theorem setRx_mods (e : Nat) (x : List Cell) : (d.setRx e x).mods = d.mods := rfl
@[simp] theorem setRx_dma (e : Nat) (x : List Cell) : (d.setRx e x).dma = d.dma := rfl
@[simp] theorem setRx_same (e : Nat) (x : List Cell) : (d.setRx e x).rxCells e = x := mget_mset_same _ _ _ _
@[simp] theorem setPlane_regs (p : Nat) (x : PlaneState) : (d.setPlane p x).regs = d.regs := rfl
@[simp] theorem setPlane_reg (p : Nat) (x : PlaneState) (o : Nat) : (d.setPlane p x).reg o = d.reg o := rfl
@[simp] theorem setPlane_stats (p : Nat) (x : PlaneState) : (d.setPlane p x).stats = d.stats := rfl
@[simp] theorem setPlane_time (p : Nat) (x : PlaneState) : (d.setPlane p x).time = d.time := rfl
@[simp] theorem setPlane_log (p : Nat) (x : PlaneState) : (d.setPlane p x).log = d.log := rfl
@[simp] theorem setPlane_sched (p : Nat) (x : PlaneState) : (d.setPlane p x).sched = d.sched := rfl
@[simp] theorem setPlane_logic (p : Nat) (x : PlaneState) : (d.setPlane p x).logic = d.logic := rfl
@[simp] theorem setPlane_hive (p : Nat) (x : PlaneState) : (d.setPlane p x).hive = d.hive := rfl
@[simp] theorem setPlane_power (p : Nat) (x : PlaneState) : (d.setPlane p x).power = d.power := rfl
@[simp] theorem setPlane_adm (p : Nat) (x : PlaneState) : (d.setPlane p x).adm = d.adm := rfl
@[simp] theorem setPlane_serial (p : Nat) (x : PlaneState) : (d.setPlane p x).serial = d.serial := rfl
@[simp] theorem setPlane_bank (p : Nat) (x : PlaneState) : (d.setPlane p x).bank = d.bank := rfl
@[simp] theorem setPlane_cfg (p : Nat) (x : PlaneState) : (d.setPlane p x).cfg = d.cfg := rfl
@[simp] theorem setPlane_store (p : Nat) (x : PlaneState) : (d.setPlane p x).store = d.store := rfl
@[simp] theorem setPlane_mods (p : Nat) (x : PlaneState) : (d.setPlane p x).mods = d.mods := rfl
@[simp] theorem setPlane_dma (p : Nat) (x : PlaneState) : (d.setPlane p x).dma = d.dma := rfl
@[simp] theorem setPlane_same (p : Nat) (x : PlaneState) : (d.setPlane p x).plane p = x := mget_mset_same _ _ _ _
@[simp] theorem setDmaChan_regs (e c : Nat) (x : DmaChan) : (d.setDmaChan e c x).regs = d.regs := rfl
@[simp] theorem setDmaChan_reg (e c : Nat) (x : DmaChan) (o : Nat) : (d.setDmaChan e c x).reg o = d.reg o := rfl
@[simp] theorem setDmaChan_stats (e c : Nat) (x : DmaChan) : (d.setDmaChan e c x).stats = d.stats := rfl
@[simp] theorem setDmaChan_time (e c : Nat) (x : DmaChan) : (d.setDmaChan e c x).time = d.time := rfl
@[simp] theorem setDmaChan_log (e c : Nat) (x : DmaChan) : (d.setDmaChan e c x).log = d.log := rfl
@[simp] theorem setDmaChan_sched (e c : Nat) (x : DmaChan) : (d.setDmaChan e c x).sched = d.sched := rfl
@[simp] theorem setDmaChan_logic (e c : Nat) (x : DmaChan) : (d.setDmaChan e c x).logic = d.logic := rfl
@[simp] theorem setDmaChan_hive (e c : Nat) (x : DmaChan) : (d.setDmaChan e c x).hive = d.hive := rfl
@[simp] theorem setDmaChan_power (e c : Nat) (x : DmaChan) : (d.setDmaChan e c x).power = d.power := rfl
@[simp] theorem setDmaChan_fab (e c : Nat) (x : DmaChan) : (d.setDmaChan e c x).fab = d.fab := rfl
@[simp] theorem setDmaChan_adm (e c : Nat) (x : DmaChan) : (d.setDmaChan e c x).adm = d.adm := rfl
@[simp] theorem setDmaChan_serial (e c : Nat) (x : DmaChan) : (d.setDmaChan e c x).serial = d.serial := rfl
@[simp] theorem setDmaChan_bank (e c : Nat) (x : DmaChan) : (d.setDmaChan e c x).bank = d.bank := rfl
@[simp] theorem setDmaChan_cfg (e c : Nat) (x : DmaChan) : (d.setDmaChan e c x).cfg = d.cfg := rfl
@[simp] theorem setDmaChan_store (e c : Nat) (x : DmaChan) : (d.setDmaChan e c x).store = d.store := rfl
@[simp] theorem setDmaChan_mods (e c : Nat) (x : DmaChan) : (d.setDmaChan e c x).mods = d.mods := rfl
@[simp] theorem setDmaChan_same (e c : Nat) (x : DmaChan) : (d.setDmaChan e c x).dmaChan e c = x := mget_mset_same _ _ _ _
@[simp] theorem setDmaEng_regs (e : Nat) (x : DmaEngine) : (d.setDmaEng e x).regs = d.regs := rfl
@[simp] theorem setDmaEng_reg (e : Nat) (x : DmaEngine) (o : Nat) : (d.setDmaEng e x).reg o = d.reg o := rfl
@[simp] theorem setDmaEng_stats (e : Nat) (x : DmaEngine) : (d.setDmaEng e x).stats = d.stats := rfl
@[simp] theorem setDmaEng_time (e : Nat) (x : DmaEngine) : (d.setDmaEng e x).time = d.time := rfl
@[simp] theorem setDmaEng_log (e : Nat) (x : DmaEngine) : (d.setDmaEng e x).log = d.log := rfl
@[simp] theorem setDmaEng_sched (e : Nat) (x : DmaEngine) : (d.setDmaEng e x).sched = d.sched := rfl
@[simp] theorem setDmaEng_logic (e : Nat) (x : DmaEngine) : (d.setDmaEng e x).logic = d.logic := rfl
@[simp] theorem setDmaEng_hive (e : Nat) (x : DmaEngine) : (d.setDmaEng e x).hive = d.hive := rfl
@[simp] theorem setDmaEng_power (e : Nat) (x : DmaEngine) : (d.setDmaEng e x).power = d.power := rfl
@[simp] theorem setDmaEng_fab (e : Nat) (x : DmaEngine) : (d.setDmaEng e x).fab = d.fab := rfl
@[simp] theorem setDmaEng_adm (e : Nat) (x : DmaEngine) : (d.setDmaEng e x).adm = d.adm := rfl
@[simp] theorem setDmaEng_serial (e : Nat) (x : DmaEngine) : (d.setDmaEng e x).serial = d.serial := rfl
@[simp] theorem setDmaEng_bank (e : Nat) (x : DmaEngine) : (d.setDmaEng e x).bank = d.bank := rfl
@[simp] theorem setDmaEng_cfg (e : Nat) (x : DmaEngine) : (d.setDmaEng e x).cfg = d.cfg := rfl
@[simp] theorem setDmaEng_store (e : Nat) (x : DmaEngine) : (d.setDmaEng e x).store = d.store := rfl
@[simp] theorem setDmaEng_mods (e : Nat) (x : DmaEngine) : (d.setDmaEng e x).mods = d.mods := rfl
@[simp] theorem setDmaEng_same (e : Nat) (x : DmaEngine) : (d.setDmaEng e x).dmaEng e = x := mget_mset_same _ _ _ _
@[simp] theorem setBankPort_regs (p : Nat) (x : BankPort) : (d.setBankPort p x).regs = d.regs := rfl
@[simp] theorem setBankPort_reg (p : Nat) (x : BankPort) (o : Nat) : (d.setBankPort p x).reg o = d.reg o := rfl
@[simp] theorem setBankPort_stats (p : Nat) (x : BankPort) : (d.setBankPort p x).stats = d.stats := rfl
@[simp] theorem setBankPort_time (p : Nat) (x : BankPort) : (d.setBankPort p x).time = d.time := rfl
@[simp] theorem setBankPort_log (p : Nat) (x : BankPort) : (d.setBankPort p x).log = d.log := rfl
@[simp] theorem setBankPort_sched (p : Nat) (x : BankPort) : (d.setBankPort p x).sched = d.sched := rfl
@[simp] theorem setBankPort_logic (p : Nat) (x : BankPort) : (d.setBankPort p x).logic = d.logic := rfl
@[simp] theorem setBankPort_hive (p : Nat) (x : BankPort) : (d.setBankPort p x).hive = d.hive := rfl
@[simp] theorem setBankPort_power (p : Nat) (x : BankPort) : (d.setBankPort p x).power = d.power := rfl
@[simp] theorem setBankPort_fab (p : Nat) (x : BankPort) : (d.setBankPort p x).fab = d.fab := rfl
@[simp] theorem setBankPort_adm (p : Nat) (x : BankPort) : (d.setBankPort p x).adm = d.adm := rfl
@[simp] theorem setBankPort_serial (p : Nat) (x : BankPort) : (d.setBankPort p x).serial = d.serial := rfl
@[simp] theorem setBankPort_cfg (p : Nat) (x : BankPort) : (d.setBankPort p x).cfg = d.cfg := rfl
@[simp] theorem setBankPort_store (p : Nat) (x : BankPort) : (d.setBankPort p x).store = d.store := rfl
@[simp] theorem setBankPort_mods (p : Nat) (x : BankPort) : (d.setBankPort p x).mods = d.mods := rfl
@[simp] theorem setBankPort_dma (p : Nat) (x : BankPort) : (d.setBankPort p x).dma = d.dma := rfl
@[simp] theorem setBankPort_same (p : Nat) (x : BankPort) : (d.setBankPort p x).bankPort p = x := mget_mset_same _ _ _ _
@[simp] theorem setThread_regs (i : Nat) (x : Thread) : (d.setThread i x).regs = d.regs := rfl
@[simp] theorem setThread_reg (i : Nat) (x : Thread) (o : Nat) : (d.setThread i x).reg o = d.reg o := rfl
@[simp] theorem setThread_stats (i : Nat) (x : Thread) : (d.setThread i x).stats = d.stats := rfl
@[simp] theorem setThread_time (i : Nat) (x : Thread) : (d.setThread i x).time = d.time := rfl
@[simp] theorem setThread_log (i : Nat) (x : Thread) : (d.setThread i x).log = d.log := rfl
@[simp] theorem setThread_logic (i : Nat) (x : Thread) : (d.setThread i x).logic = d.logic := rfl
@[simp] theorem setThread_hive (i : Nat) (x : Thread) : (d.setThread i x).hive = d.hive := rfl
@[simp] theorem setThread_power (i : Nat) (x : Thread) : (d.setThread i x).power = d.power := rfl
@[simp] theorem setThread_fab (i : Nat) (x : Thread) : (d.setThread i x).fab = d.fab := rfl
@[simp] theorem setThread_adm (i : Nat) (x : Thread) : (d.setThread i x).adm = d.adm := rfl
@[simp] theorem setThread_serial (i : Nat) (x : Thread) : (d.setThread i x).serial = d.serial := rfl
@[simp] theorem setThread_bank (i : Nat) (x : Thread) : (d.setThread i x).bank = d.bank := rfl
@[simp] theorem setThread_cfg (i : Nat) (x : Thread) : (d.setThread i x).cfg = d.cfg := rfl
@[simp] theorem setThread_store (i : Nat) (x : Thread) : (d.setThread i x).store = d.store := rfl
@[simp] theorem setThread_mods (i : Nat) (x : Thread) : (d.setThread i x).mods = d.mods := rfl
@[simp] theorem setThread_dma (i : Nat) (x : Thread) : (d.setThread i x).dma = d.dma := rfl
@[simp] theorem setThread_same (i : Nat) (x : Thread) : (d.setThread i x).thread i = x := mget_mset_same _ _ _ _
@[simp] theorem setDport_regs (p : Nat) (x : DispPort) : (d.setDport p x).regs = d.regs := rfl
@[simp] theorem setDport_reg (p : Nat) (x : DispPort) (o : Nat) : (d.setDport p x).reg o = d.reg o := rfl
@[simp] theorem setDport_stats (p : Nat) (x : DispPort) : (d.setDport p x).stats = d.stats := rfl
@[simp] theorem setDport_time (p : Nat) (x : DispPort) : (d.setDport p x).time = d.time := rfl
@[simp] theorem setDport_log (p : Nat) (x : DispPort) : (d.setDport p x).log = d.log := rfl
@[simp] theorem setDport_logic (p : Nat) (x : DispPort) : (d.setDport p x).logic = d.logic := rfl
@[simp] theorem setDport_hive (p : Nat) (x : DispPort) : (d.setDport p x).hive = d.hive := rfl
@[simp] theorem setDport_power (p : Nat) (x : DispPort) : (d.setDport p x).power = d.power := rfl
@[simp] theorem setDport_fab (p : Nat) (x : DispPort) : (d.setDport p x).fab = d.fab := rfl
@[simp] theorem setDport_adm (p : Nat) (x : DispPort) : (d.setDport p x).adm = d.adm := rfl
@[simp] theorem setDport_serial (p : Nat) (x : DispPort) : (d.setDport p x).serial = d.serial := rfl
@[simp] theorem setDport_bank (p : Nat) (x : DispPort) : (d.setDport p x).bank = d.bank := rfl
@[simp] theorem setDport_cfg (p : Nat) (x : DispPort) : (d.setDport p x).cfg = d.cfg := rfl
@[simp] theorem setDport_store (p : Nat) (x : DispPort) : (d.setDport p x).store = d.store := rfl
@[simp] theorem setDport_mods (p : Nat) (x : DispPort) : (d.setDport p x).mods = d.mods := rfl
@[simp] theorem setDport_dma (p : Nat) (x : DispPort) : (d.setDport p x).dma = d.dma := rfl
@[simp] theorem setDport_same (p : Nat) (x : DispPort) : (d.setDport p x).dport p = x := mget_mset_same _ _ _ _
@[simp] theorem setEv_regs (e : Nat) (x : EvObj) : (d.setEv e x).regs = d.regs := rfl
@[simp] theorem setEv_reg (e : Nat) (x : EvObj) (o : Nat) : (d.setEv e x).reg o = d.reg o := rfl
@[simp] theorem setEv_stats (e : Nat) (x : EvObj) : (d.setEv e x).stats = d.stats := rfl
@[simp] theorem setEv_time (e : Nat) (x : EvObj) : (d.setEv e x).time = d.time := rfl
@[simp] theorem setEv_log (e : Nat) (x : EvObj) : (d.setEv e x).log = d.log := rfl
@[simp] theorem setEv_logic (e : Nat) (x : EvObj) : (d.setEv e x).logic = d.logic := rfl
@[simp] theorem setEv_hive (e : Nat) (x : EvObj) : (d.setEv e x).hive = d.hive := rfl
@[simp] theorem setEv_power (e : Nat) (x : EvObj) : (d.setEv e x).power = d.power := rfl
@[simp] theorem setEv_fab (e : Nat) (x : EvObj) : (d.setEv e x).fab = d.fab := rfl
@[simp] theorem setEv_adm (e : Nat) (x : EvObj) : (d.setEv e x).adm = d.adm := rfl
@[simp] theorem setEv_serial (e : Nat) (x : EvObj) : (d.setEv e x).serial = d.serial := rfl
@[simp] theorem setEv_bank (e : Nat) (x : EvObj) : (d.setEv e x).bank = d.bank := rfl
@[simp] theorem setEv_cfg (e : Nat) (x : EvObj) : (d.setEv e x).cfg = d.cfg := rfl
@[simp] theorem setEv_store (e : Nat) (x : EvObj) : (d.setEv e x).store = d.store := rfl
@[simp] theorem setEv_mods (e : Nat) (x : EvObj) : (d.setEv e x).mods = d.mods := rfl
@[simp] theorem setEv_dma (e : Nat) (x : EvObj) : (d.setEv e x).dma = d.dma := rfl
@[simp] theorem setEv_same (e : Nat) (x : EvObj) : (d.setEv e x).ev e = x := mget_mset_same _ _ _ _
@[simp] theorem setPair_regs (k : Nat) (x : PairState) : (d.setPair k x).regs = d.regs := rfl
@[simp] theorem setPair_reg (k : Nat) (x : PairState) (o : Nat) : (d.setPair k x).reg o = d.reg o := rfl
@[simp] theorem setPair_stats (k : Nat) (x : PairState) : (d.setPair k x).stats = d.stats := rfl
@[simp] theorem setPair_time (k : Nat) (x : PairState) : (d.setPair k x).time = d.time := rfl
@[simp] theorem setPair_log (k : Nat) (x : PairState) : (d.setPair k x).log = d.log := rfl
@[simp] theorem setPair_sched (k : Nat) (x : PairState) : (d.setPair k x).sched = d.sched := rfl
@[simp] theorem setPair_logic (k : Nat) (x : PairState) : (d.setPair k x).logic = d.logic := rfl
@[simp] theorem setPair_hive (k : Nat) (x : PairState) : (d.setPair k x).hive = d.hive := rfl
@[simp] theorem setPair_power (k : Nat) (x : PairState) : (d.setPair k x).power = d.power := rfl
@[simp] theorem setPair_fab (k : Nat) (x : PairState) : (d.setPair k x).fab = d.fab := rfl
@[simp] theorem setPair_serial (k : Nat) (x : PairState) : (d.setPair k x).serial = d.serial := rfl
@[simp] theorem setPair_bank (k : Nat) (x : PairState) : (d.setPair k x).bank = d.bank := rfl
@[simp] theorem setPair_cfg (k : Nat) (x : PairState) : (d.setPair k x).cfg = d.cfg := rfl
@[simp] theorem setPair_store (k : Nat) (x : PairState) : (d.setPair k x).store = d.store := rfl
@[simp] theorem setPair_mods (k : Nat) (x : PairState) : (d.setPair k x).mods = d.mods := rfl
@[simp] theorem setPair_dma (k : Nat) (x : PairState) : (d.setPair k x).dma = d.dma := rfl
@[simp] theorem setPair_same (k : Nat) (x : PairState) : (d.setPair k x).pair k = x := mget_mset_same _ _ _ _
@[simp] theorem setFf_regs (k : Nat) (x : Bool) : (d.setFf k x).regs = d.regs := rfl
@[simp] theorem setFf_reg (k : Nat) (x : Bool) (o : Nat) : (d.setFf k x).reg o = d.reg o := rfl
@[simp] theorem setFf_stats (k : Nat) (x : Bool) : (d.setFf k x).stats = d.stats := rfl
@[simp] theorem setFf_time (k : Nat) (x : Bool) : (d.setFf k x).time = d.time := rfl
@[simp] theorem setFf_log (k : Nat) (x : Bool) : (d.setFf k x).log = d.log := rfl
@[simp] theorem setFf_sched (k : Nat) (x : Bool) : (d.setFf k x).sched = d.sched := rfl
@[simp] theorem setFf_hive (k : Nat) (x : Bool) : (d.setFf k x).hive = d.hive := rfl
@[simp] theorem setFf_power (k : Nat) (x : Bool) : (d.setFf k x).power = d.power := rfl
@[simp] theorem setFf_fab (k : Nat) (x : Bool) : (d.setFf k x).fab = d.fab := rfl
@[simp] theorem setFf_adm (k : Nat) (x : Bool) : (d.setFf k x).adm = d.adm := rfl
@[simp] theorem setFf_serial (k : Nat) (x : Bool) : (d.setFf k x).serial = d.serial := rfl
@[simp] theorem setFf_bank (k : Nat) (x : Bool) : (d.setFf k x).bank = d.bank := rfl
@[simp] theorem setFf_cfg (k : Nat) (x : Bool) : (d.setFf k x).cfg = d.cfg := rfl
@[simp] theorem setFf_store (k : Nat) (x : Bool) : (d.setFf k x).store = d.store := rfl
@[simp] theorem setFf_mods (k : Nat) (x : Bool) : (d.setFf k x).mods = d.mods := rfl
@[simp] theorem setFf_dma (k : Nat) (x : Bool) : (d.setFf k x).dma = d.dma := rfl
@[simp] theorem setIoReg_regs (n i : Nat) (x : IoRegs) : (d.setIoReg n i x).regs = d.regs := rfl
@[simp] theorem setIoReg_reg (n i : Nat) (x : IoRegs) (o : Nat) : (d.setIoReg n i x).reg o = d.reg o := rfl
@[simp] theorem setIoReg_stats (n i : Nat) (x : IoRegs) : (d.setIoReg n i x).stats = d.stats := rfl
@[simp] theorem setIoReg_time (n i : Nat) (x : IoRegs) : (d.setIoReg n i x).time = d.time := rfl
@[simp] theorem setIoReg_log (n i : Nat) (x : IoRegs) : (d.setIoReg n i x).log = d.log := rfl
@[simp] theorem setIoReg_sched (n i : Nat) (x : IoRegs) : (d.setIoReg n i x).sched = d.sched := rfl
@[simp] theorem setIoReg_hive (n i : Nat) (x : IoRegs) : (d.setIoReg n i x).hive = d.hive := rfl
@[simp] theorem setIoReg_power (n i : Nat) (x : IoRegs) : (d.setIoReg n i x).power = d.power := rfl
@[simp] theorem setIoReg_fab (n i : Nat) (x : IoRegs) : (d.setIoReg n i x).fab = d.fab := rfl
@[simp] theorem setIoReg_adm (n i : Nat) (x : IoRegs) : (d.setIoReg n i x).adm = d.adm := rfl
@[simp] theorem setIoReg_serial (n i : Nat) (x : IoRegs) : (d.setIoReg n i x).serial = d.serial := rfl
@[simp] theorem setIoReg_bank (n i : Nat) (x : IoRegs) : (d.setIoReg n i x).bank = d.bank := rfl
@[simp] theorem setIoReg_cfg (n i : Nat) (x : IoRegs) : (d.setIoReg n i x).cfg = d.cfg := rfl
@[simp] theorem setIoReg_store (n i : Nat) (x : IoRegs) : (d.setIoReg n i x).store = d.store := rfl
@[simp] theorem setIoReg_mods (n i : Nat) (x : IoRegs) : (d.setIoReg n i x).mods = d.mods := rfl
@[simp] theorem setIoReg_dma (n i : Nat) (x : IoRegs) : (d.setIoReg n i x).dma = d.dma := rfl
@[simp] theorem setIoReg_same (n i : Nat) (x : IoRegs) : (d.setIoReg n i x).ioReg n i = x := mget_mset_same _ _ _ _
@[simp] theorem setQueue_regs (n m : Nat) (x : QueueCtl) : (d.setQueue n m x).regs = d.regs := rfl
@[simp] theorem setQueue_reg (n m : Nat) (x : QueueCtl) (o : Nat) : (d.setQueue n m x).reg o = d.reg o := rfl
@[simp] theorem setQueue_stats (n m : Nat) (x : QueueCtl) : (d.setQueue n m x).stats = d.stats := rfl
@[simp] theorem setQueue_time (n m : Nat) (x : QueueCtl) : (d.setQueue n m x).time = d.time := rfl
@[simp] theorem setQueue_log (n m : Nat) (x : QueueCtl) : (d.setQueue n m x).log = d.log := rfl
@[simp] theorem setQueue_sched (n m : Nat) (x : QueueCtl) : (d.setQueue n m x).sched = d.sched := rfl
@[simp] theorem setQueue_hive (n m : Nat) (x : QueueCtl) : (d.setQueue n m x).hive = d.hive := rfl
@[simp] theorem setQueue_power (n m : Nat) (x : QueueCtl) : (d.setQueue n m x).power = d.power := rfl
@[simp] theorem setQueue_fab (n m : Nat) (x : QueueCtl) : (d.setQueue n m x).fab = d.fab := rfl
@[simp] theorem setQueue_adm (n m : Nat) (x : QueueCtl) : (d.setQueue n m x).adm = d.adm := rfl
@[simp] theorem setQueue_serial (n m : Nat) (x : QueueCtl) : (d.setQueue n m x).serial = d.serial := rfl
@[simp] theorem setQueue_bank (n m : Nat) (x : QueueCtl) : (d.setQueue n m x).bank = d.bank := rfl
@[simp] theorem setQueue_cfg (n m : Nat) (x : QueueCtl) : (d.setQueue n m x).cfg = d.cfg := rfl
@[simp] theorem setQueue_store (n m : Nat) (x : QueueCtl) : (d.setQueue n m x).store = d.store := rfl
@[simp] theorem setQueue_mods (n m : Nat) (x : QueueCtl) : (d.setQueue n m x).mods = d.mods := rfl
@[simp] theorem setQueue_dma (n m : Nat) (x : QueueCtl) : (d.setQueue n m x).dma = d.dma := rfl
@[simp] theorem setQueue_same (n m : Nat) (x : QueueCtl) : (d.setQueue n m x).queue n m = x := mget_mset_same _ _ _ _
@[simp] theorem setNvPlane_regs (j : Nat) (x : Plane) : (d.setNvPlane j x).regs = d.regs := rfl
@[simp] theorem setNvPlane_reg (j : Nat) (x : Plane) (o : Nat) : (d.setNvPlane j x).reg o = d.reg o := rfl
@[simp] theorem setNvPlane_stats (j : Nat) (x : Plane) : (d.setNvPlane j x).stats = d.stats := rfl
@[simp] theorem setNvPlane_time (j : Nat) (x : Plane) : (d.setNvPlane j x).time = d.time := rfl
@[simp] theorem setNvPlane_log (j : Nat) (x : Plane) : (d.setNvPlane j x).log = d.log := rfl
@[simp] theorem setNvPlane_sched (j : Nat) (x : Plane) : (d.setNvPlane j x).sched = d.sched := rfl
@[simp] theorem setNvPlane_logic (j : Nat) (x : Plane) : (d.setNvPlane j x).logic = d.logic := rfl
@[simp] theorem setNvPlane_hive (j : Nat) (x : Plane) : (d.setNvPlane j x).hive = d.hive := rfl
@[simp] theorem setNvPlane_power (j : Nat) (x : Plane) : (d.setNvPlane j x).power = d.power := rfl
@[simp] theorem setNvPlane_fab (j : Nat) (x : Plane) : (d.setNvPlane j x).fab = d.fab := rfl
@[simp] theorem setNvPlane_adm (j : Nat) (x : Plane) : (d.setNvPlane j x).adm = d.adm := rfl
@[simp] theorem setNvPlane_serial (j : Nat) (x : Plane) : (d.setNvPlane j x).serial = d.serial := rfl
@[simp] theorem setNvPlane_bank (j : Nat) (x : Plane) : (d.setNvPlane j x).bank = d.bank := rfl
@[simp] theorem setNvPlane_cfg (j : Nat) (x : Plane) : (d.setNvPlane j x).cfg = d.cfg := rfl
@[simp] theorem setNvPlane_mods (j : Nat) (x : Plane) : (d.setNvPlane j x).mods = d.mods := rfl
@[simp] theorem setNvPlane_dma (j : Nat) (x : Plane) : (d.setNvPlane j x).dma = d.dma := rfl
@[simp] theorem setNvPlane_same (j : Nat) (x : Plane) : (d.setNvPlane j x).nvPlane j = x := mget_mset_same _ _ _ _
@[simp] theorem setClsEntry_regs (p i : Nat) (x : ClsEntry) : (d.setClsEntry p i x).regs = d.regs := rfl
@[simp] theorem setClsEntry_reg (p i : Nat) (x : ClsEntry) (o : Nat) : (d.setClsEntry p i x).reg o = d.reg o := rfl
@[simp] theorem setClsEntry_stats (p i : Nat) (x : ClsEntry) : (d.setClsEntry p i x).stats = d.stats := rfl
@[simp] theorem setClsEntry_time (p i : Nat) (x : ClsEntry) : (d.setClsEntry p i x).time = d.time := rfl
@[simp] theorem setClsEntry_log (p i : Nat) (x : ClsEntry) : (d.setClsEntry p i x).log = d.log := rfl
@[simp] theorem setClsEntry_sched (p i : Nat) (x : ClsEntry) : (d.setClsEntry p i x).sched = d.sched := rfl
@[simp] theorem setClsEntry_logic (p i : Nat) (x : ClsEntry) : (d.setClsEntry p i x).logic = d.logic := rfl
@[simp] theorem setClsEntry_hive (p i : Nat) (x : ClsEntry) : (d.setClsEntry p i x).hive = d.hive := rfl
@[simp] theorem setClsEntry_power (p i : Nat) (x : ClsEntry) : (d.setClsEntry p i x).power = d.power := rfl
@[simp] theorem setClsEntry_adm (p i : Nat) (x : ClsEntry) : (d.setClsEntry p i x).adm = d.adm := rfl
@[simp] theorem setClsEntry_serial (p i : Nat) (x : ClsEntry) : (d.setClsEntry p i x).serial = d.serial := rfl
@[simp] theorem setClsEntry_bank (p i : Nat) (x : ClsEntry) : (d.setClsEntry p i x).bank = d.bank := rfl
@[simp] theorem setClsEntry_cfg (p i : Nat) (x : ClsEntry) : (d.setClsEntry p i x).cfg = d.cfg := rfl
@[simp] theorem setClsEntry_store (p i : Nat) (x : ClsEntry) : (d.setClsEntry p i x).store = d.store := rfl
@[simp] theorem setClsEntry_mods (p i : Nat) (x : ClsEntry) : (d.setClsEntry p i x).mods = d.mods := rfl
@[simp] theorem setClsEntry_dma (p i : Nat) (x : ClsEntry) : (d.setClsEntry p i x).dma = d.dma := rfl
@[simp] theorem setClsEntry_same (p i : Nat) (x : ClsEntry) : (d.setClsEntry p i x).clsEntry p i = x := mget_mset_same _ _ _ _
@[simp] theorem setFraming_regs (e f : Nat) (x : Framing) : (d.setFraming e f x).regs = d.regs := rfl
@[simp] theorem setFraming_reg (e f : Nat) (x : Framing) (o : Nat) : (d.setFraming e f x).reg o = d.reg o := rfl
@[simp] theorem setFraming_stats (e f : Nat) (x : Framing) : (d.setFraming e f x).stats = d.stats := rfl
@[simp] theorem setFraming_time (e f : Nat) (x : Framing) : (d.setFraming e f x).time = d.time := rfl
@[simp] theorem setFraming_log (e f : Nat) (x : Framing) : (d.setFraming e f x).log = d.log := rfl
@[simp] theorem setFraming_sched (e f : Nat) (x : Framing) : (d.setFraming e f x).sched = d.sched := rfl
@[simp] theorem setFraming_logic (e f : Nat) (x : Framing) : (d.setFraming e f x).logic = d.logic := rfl
@[simp] theorem setFraming_hive (e f : Nat) (x : Framing) : (d.setFraming e f x).hive = d.hive := rfl
@[simp] theorem setFraming_power (e f : Nat) (x : Framing) : (d.setFraming e f x).power = d.power := rfl
@[simp] theorem setFraming_adm (e f : Nat) (x : Framing) : (d.setFraming e f x).adm = d.adm := rfl
@[simp] theorem setFraming_serial (e f : Nat) (x : Framing) : (d.setFraming e f x).serial = d.serial := rfl
@[simp] theorem setFraming_bank (e f : Nat) (x : Framing) : (d.setFraming e f x).bank = d.bank := rfl
@[simp] theorem setFraming_cfg (e f : Nat) (x : Framing) : (d.setFraming e f x).cfg = d.cfg := rfl
@[simp] theorem setFraming_store (e f : Nat) (x : Framing) : (d.setFraming e f x).store = d.store := rfl
@[simp] theorem setFraming_mods (e f : Nat) (x : Framing) : (d.setFraming e f x).mods = d.mods := rfl
@[simp] theorem setFraming_dma (e f : Nat) (x : Framing) : (d.setFraming e f x).dma = d.dma := rfl
@[simp] theorem setFraming_same (e f : Nat) (x : Framing) : (d.setFraming e f x).framing e f = x := mget_mset_same _ _ _ _

end Sys2Proof.Machine
end

