-- ==== Sys2Proof/WellFormed.lean ====
section
/-! DEFINITION. Which operands a command can carry: lists of the lengths that the spec gives them, indices and measurements
within their ranges. -/
namespace Sys2Proof

/-- Keys of code words that have drifted: physical sector × 2,048 + word, below 3,072 sectors (R363, R366), and behind them
the 16,384 words of the journal rows (R385). -/
def driftOk (xs : List (Nat × Nat)) : Bool := xs.all (fun e => decide (e.1 < 3072 * 2048 + 16384))

/-- Logical sectors, each once (R363). -/
def sectorsOk (xs : List Nat) : Bool := xs.all (fun e => decide (e < 3040)) && decide xs.Nodup

/-- Bits of a frame, each once (R303). -/
def flipsOk (xs : List Nat) : Bool := xs.all (fun e => decide (e < 2048)) && decide xs.Nodup

/-- Only rung 1, coded 0, has a threshold on VCC_AUX (R624). -/
def rungOk (rung : Fin 4) (aux : Bool) : Bool := !aux || decide (rung = 0)

def StartInputs.wf (i : StartInputs) : Bool := driftOk i.drift

/-- Eight sensors, twelve regions, eleven rails (R540, R643). -/
def PowerSample.wf (x : PowerSample) : Bool :=
  decide (x.codes.length = 8) && decide (x.regions.length = 12) && decide (x.rails.length = 11)

def SuiteEnd.wf : SuiteEnd → Bool
  | .region _ _ _ => true
  | .bank _ failing _ => decide failing.Nodup

def Instr.wf : Instr → Bool
  | .powerGood i => StartInputs.wf i
  | .powerOnReset _ => true
  | .resetNAssert => true
  | .deviceReset i => StartInputs.wf i
  | .deferredReset i => StartInputs.wf i
  | .hiveReset _ => true
  | .hiveReady => true
  | .watchdogExpiry => true
  | .watchdogKick _ _ => true
  | .shedRungHold rung aux _ => rungOk rung aux
  | .shedClassStep _ => true
  | .shedRungRestore rung aux _ => rungOk rung aux
  | .shedClassThaw _ => true
  | .vccNvLow => true
  | .vccNvHalt => true
  | .vccNvRestore _ => true
  | .vccioLoss _ => true
  | .vccioReturn _ => true
  | .tempSample x => x.wf
  | .tamperTrip _ _ => true
  | .clockLoss _ _ _ _ => true
  | .timeRefLost => true
  | .timeRefReturn freq => decide (freq ≠ 0)
  | .shutdownReqPin => true
  | .shutdownDrained _ => true
  | .shutdownTestEnd x => x.wf
  | .healthRecordWritten _ => true
  | .lifecycleWipeDone failing => sectorsOk failing
  | .nonceExpiry => true
  | .spiWrite _ bytes => decide (bytes.length ≤ 17408)
  | .spiStatus _ _ => true
  | .spiRead _ _ => true
  | .i2cWrite _ bytes => decide (bytes.length ≤ 17408)
  | .i2cStatus _ _ => true
  | .i2cRead _ _ => true
  | .imfaJtagWrite _ _ => true
  | .imfaJtagRead => true
  | .imfaJtagAbort => true
  | .ep48Message _ => true
  | .pendingReply => true
  | .ticketExpiry _ => true
  | .sysNop => true
  | .sysInfo => true
  | .ticketPoll => true
  | .sysReset => true
  | .regRead => true
  | .regWrite => true
  | .regRmw => true
  | .nvsInfo => true
  | .nvsRead drift => driftOk drift
  | .nvsProgram => true
  | .nvsProgramDone _ => true
  | .nvsErase => true
  | .nvsEraseDone _ _ _ => true
  | .nvsSuspend => true
  | .nvsResume => true
  | .eraseReadResume _ => true
  | .suspendCommandTimeout _ => true
  | .nvsDigest drift => driftOk drift
  | .nvsPatrol => true
  | .patrolSector _ drift => driftOk drift
  | .gapMoveStart => true
  | .gapMoveCopyDone drift => driftOk drift
  | .refreshMove => true
  | .nvsRecovery failing => sectorsOk failing
  | .eraseToken => true
  | .cfgInfo => true
  | .cfgStreamOpen => true
  | .cfgStreamData => true
  | .cfgStreamClose => true
  | .cfgStreamAbort => true
  | .streamIdleTimeout => true
  | .cfgCommit => true
  | .regionLoad => true
  | .regionFreeze => true
  | .regionThaw => true
  | .cfgLibErase => true
  | .cfgReadback => true
  | .cfgLoadUpdate _ => true
  | .chainReadStart _ => true
  | .chainSegment _ _ _ => true
  | .scrubFrame _ flips _ => flipsOk flips
  | .scrubChipFrame flips => flipsOk flips
  | .flowAdmit => true
  | .flowTeardown => true
  | .flowQuery => true
  | .flowRepack => true
  | .pairSwitch => true
  | .flowDrainDone _ => true
  | .pairDrainDone _ => true
  | .endpointSuspend _ => true
  | .endpointResume _ => true
  | .bankInfo => true
  | .bankOwnerSet => true
  | .bankGuestSet => true
  | .bankRetain => true
  | .bankMarch => true
  | .bankMigrate => true
  | .bankRemapUndo => true
  | .regionSelftest => true
  | .lcyInfo => true
  | .serviceChallenge => true
  | .serviceResponse => true
  | .servicePassword => true
  | .serviceClose => true
  | .lcyTransition => true
  | .keyProvision => true
  | .logInfo => true
  | .logRead => true
  | .logClear => true
  | .telemetry => true
  | .portConfig => true
  | .laneTest => true
  | .moduleScan => true
  | .moduleInfo => true
  | .shutdown => true
  | .registerWrite _ _ _ _ => true
  | .rcRead _ _ _ => true
  | .statLowRead _ _ => true
  | .chipErrLock _ _ => true
  | .chipErrPendingClear _ _ => true
  | .chipErrInject _ _ => true
  | .rgnCtrlFreeze _ _ _ => true
  | .rgnCtrlThaw _ _ _ => true
  | .regionThawDone _ => true
  | .rgnFaultClear _ _ _ => true
  | .glineContention _ _ _ => true
  | .bramAccess _ _ _ _ _ _ _ => true
  | .bramWriteback _ _ => true
  | .queueWrite _ _ _ _ _ => true
  | .queueRead _ _ _ => true
  | .queueReset _ _ _ => true
  | .shiftRegisterShift _ _ => true
  | .arithAccumulate _ _ _ => true
  | .ioDelayStep _ _ _ => true
  | .iodelayCalibration _ => true
  | .windowAccess _ steals _ clash => decide steals.Nodup && decide (clash.length ≤ 512)
  | .windowTimeout _ => true
  | .endpointClockLost _ => true
  | .endpointClockRestored _ => true
  | .beStop _ _ => true
  | .fabFlowSel _ _ => true
  | .fabEpClear _ _ _ => true
  | .fabClsClear _ _ _ => true
  | .clsEntryWrite _ _ _ => true
  | .clsEntryRead _ _ _ => true
  | .clsAccessDone _ => true
  | .admFlowSel _ _ => true
  | .txCell _ _ _ _ _ _ _ _ _ _ => true
  | .ingressHead _ => true
  | .slotStart _ => true
  | .periodBoundary skew => decide (skew.toInt.natAbs ≤ 858993459)
  | .calCopyDone => true
  | .cellEgressArrival _ flips => decide flips.Nodup
  | .ackArrival _ => true
  | .creditReturn _ => true
  | .cellHandover _ _ _ => true
  | .macFrameReceive _ frame _ _ _ _ _ => decide (frame ≠ []) && decide (frame.length ≤ 65535)
  | .macTransmit _ _ => true
  | .macTxtsPop _ _ => true
  | .macClear _ _ => true
  | .macCfgWrite _ _ _ => true
  | .rawRxCell _ _ _ => true
  | .rawTxCell _ => true
  | .sdsCfgWrite _ _ _ _ => true
  | .sdsCtrlWrite _ _ _ => true
  | .sdsPrbsCtrlWrite _ _ _ => true
  | .prbsInject _ _ => true
  | .txPllLock _ => true
  | .cdrLockAcquired _ => true
  | .pcsLock _ => true
  | .fecLock _ => true
  | .linkUp _ => true
  | .linkDown _ _ _ _ _ _ => true
  | .laneSignalLoss _ _ _ => true
  | .timeRateGo _ _ => true
  | .timeStepGo _ _ => true
  | .timeSetGo _ _ => true
  | .timeRateApply => true
  | .timeStepApply => true
  | .timeSetApply => true
  | .timeNowRead _ => true
  | .ppsOutPulse => true
  | .ppsOutPulseEnd => true
  | .ppsInEdge _ _ => true
  | .ppsInTsRead _ => true
  | .gatewayExecuteWrite _ _ _ _ => true
  | .gatewayExecuteRead _ _ _ _ => true
  | .gatewayExecuteFence _ _ _ => true
  | .userDataRead _ drift => driftOk drift
  | .bankPortCycle _ _ => true
  | .bankOwnerWrite _ _ _ => true
  | .bankHandoverDrained _ => true
  | .bankSecureWrite _ _ _ => true
  | .bankWipeDone _ => true
  | .bankTestGo _ _ _ => true
  | .bankMarchDone _ failing _ => decide failing.Nodup
  | .bankMigrateDone => true
  | .bankRemapUndoDone => true
  | .bankClear _ _ => true
  | .nvsClear _ _ => true
  | .yieldCall _ code => decide (code.toNat < 2 ∨ 8 < code.toNat)
  | .blockOn _ _ _ => true
  | .signalCall _ _ => true
  | .sleepUntil _ _ => true
  | .setPriority _ _ _ _ => true
  | .createCall _ _ _ _ => true
  | .exitCall _ => true
  | .takeNext _ => true
  | .schCmdSignal _ => true
  | .schCmdSetPriority _ => true
  | .schCmdCreate _ => true
  | .schCmdKill _ => true
  | .schRecSel _ _ => true
  | .schSpillEnable _ _ => true
  | .schEvCfgWrite _ _ _ => true
  | .schTmrExpWrite _ _ _ _ => true
  | .eventServe => true
  | .schTimerFire _ => true
  | .wakeReached _ => true
  | .spillWriteDone => true
  | .refillDone => true
  | .spillRetry => true
  | .dmaChGo _ _ _ _ => true
  | .dmaChResume _ _ _ _ => true
  | .dmaChAbort _ _ _ _ => true
  | .dmaFqPop _ _ _ => true
  | .dmaClear _ _ _ => true
  | .dmaDescFetched _ _ => true
  | .dmaIssue _ => true
  | .dmaWalkDone _ _ => true
  | .dmaAnswer _ _ => true
  | .dmaF2mCell _ _ => true
  | .dmaWaitTestRetry _ _ => true
  | .dmaTestWaitExpiry _ _ => true
  | .xltInval _ _ => true
  | .xltInvalDone => true
  | .xltSpaceWrite _ _ _ _ => true
  | .xltSlqPop _ _ => true
  | .xltClear _ _ => true
  | .gpioOutMasked _ _ _ => true
  | .gpioOeMasked _ _ _ => true
  | .gpioOutWrite _ _ _ => true
  | .gpioOeWrite _ _ _ => true
  | .gpioIrqDetect _ _ => true
  | .pmuxPinWrite _ _ _ => true
  | .pmuxAltSpi _ _ => true
  | .modScanAll _ _ => true
  | .modScan _ _ => true
  | .presenceChange _ _ => true
  | .moduleLeadScan _ => true
  | .moduleScanRetry _ => true
  | .moduleScanTimeout _ read => (match read with | some bs => decide (1 ≤ bs.length ∧ bs.length ≤ 256) | none => true)
  | .moduleScanComplete _ page record => page.all (fun p => decide (p.length = 256)) && record.all (fun r => decide (r.length = 64))
  | .modXferGo _ _ _ => true
  | .modXferDone _ _ _ => true
  | .modBusFault _ => true
  | .logSelWrite _ _ => true
  | .logCtrlClear _ _ => true
  | .jtagInstructionUpdate _ => true
  | .jtagTestLogicReset => true
  | .resetNRelease i => StartInputs.wf i
  | .tamperSourceClear _ => true
  | .prbsCheckerLock _ errs bitsN => decide (errs.toNat ≤ bitsN.toNat)
  | .prbsCheckerLoss _ errs bitsN => decide (errs.toNat ≤ bitsN.toNat)
  | .blockLockLoss _ => true
  | .regionSelftestStart _ => true
  | .regionSelftestDone _ _ _ failing => decide failing.Nodup
  | .selftestStartTimeout _ => true

end Sys2Proof
end

