-- ==== Sys2Proof/Tests/Slice0.lean ====
section
/-! SUPPORT. The model's own tests: operands that the check of commands refuses, small states, steps worked out from the
rules, and for every hypothesis of the statements a state and operands that meet it. -/
namespace Sys2Proof.Tests
open Sys2Proof.Machine
set_option maxRecDepth 100000

/-- A device past power-good whose start has run. -/
def wDev : Dev := { Dev.reset with power := { PowerState.reset with por := false } }
def wOn : State := { pending := [], dev := wDev }
/-- The same with a start due; with a reset due 10 ms after a reply; with a ready hive; with a PWR_STATUS. -/
def wDue : State := { pending := [], dev := { Dev.reset with power := { PowerState.reset with por := false, startDue := true } } }
def wDueReset (x : DueReset) : State := { pending := [], dev := { wDev with hive := { HiveState.reset with due := [x] } } }
def wHive : Dev := { wDev with hive := { HiveState.reset with ready := true } }
def wReady : State := { pending := [], dev := wHive }
def wStatus (v : Word) : State := { pending := [], dev := wDev.setReg pwrStatus v }
/-- A request on SPI, and a device to which it waits. -/
def wReq (op : BitVec 16) (params : List Byte) : Req := { via := .spi, opcode := op, tag := 7, flags := 0, params := params }
def wAsk (d : Dev) (op : BitVec 16) (params : List Byte) : State :=
  { pending := [], dev := { d with hive := { d.hive with waiting := [wReq op params] } } }
def wKeys : KeyStore :=
  { KeyStore.fresh with state := .deployed, serviceKey := List.replicate 32 1, passwordHash := List.replicate 32 1 }
def wDeployed : Dev := { wHive with keys := wKeys }
def wNonce : Dev := { wDeployed with lcy := { LcySession.reset with nonce := some { bytes := zeros 32, scope := 1 } } }
def wTamper : Dev := { wDev with keys := { KeyStore.fresh with tamperCfg := 8 } }
def wWiping : Dev := { wDev with keys := { KeyStore.fresh with wipePending := true }, lcy := { LcySession.reset with wiping := true } }
def wPps : Dev :=
  ((({ wDev with time := { TimeState.reset with running := true } } : Dev).setReg timePpsOutCtrl 0x80000001).setRbit fenceMisc 0
    true).setReg timePpsInCtrl 0x80000000
/-- Region 0 holds dispatch ports 0 and 1; thread 1 runs on port 0, thread 2 is READY nowhere eligible. -/
def wSched : Dev :=
  ({ wDev with
     sched := { SchedState.reset with
       threads := [(1, { Thread.blank with state := .running, port := some 0 }), (2, { Thread.blank with state := .ready })],
       assign := [(0, 1), (1, 1)], ports := [(0, { DispPort.vacant with running := 1 })],
       events := [(3, { EvObj.zero with count := 2 }), (5, { EvObj.zero with pending := 1 })], evQueue := [5] } } : Dev).setIdReg 0
    (schCmdA 0) 2 |>.setReg (rgnStatus 0) 0
def wSleep : Dev :=
  { wDev with sched := { SchedState.reset with
      threads := [(3, { Thread.blank with state := .sleeping, wake := some 0 }), (4, { Thread.blank with state := .blocked, wake := some 0 })] } }
/-- An answer with a status has reached endpoint 51 for a spill or a refill of thread 2. -/
def wCell (flow : BitVec 12) (bs : List Byte) : Cell :=
  { flow := flow, som := true, eom := true, err := false, acc := true, cls := 0, aspace := 0, src := 0, dest := 51,
    bytes := BitVec.ofNat 6 bs.length, astamp := 0, payload := bs, num := 1 }
def wSpill (j : SpillJob) (status : Nat) : Dev :=
  let flag : Byte := match j with
    | .spill _ _ => 4
    | .refill _ _ => 0
  ({ wSched with sched := { wSched.sched with job := some j } } : Dev).setRx 51
    [wCell 0 ([3, flag] ++ zeros 12 ++ putLE 2 status ++ zeros 32)]
/-- Region 11 thawed; its memory 239 as a queue with a level; a window message of a type and a length to it. -/
def wMem (queue : Bool) : List (Nat × BramCfg) :=
  [(memKey 11 239, { BramCfg.plain with treeA := some 0, treeB := some 0, queue := queue })]
def wBram : Dev :=
  { (wDev.setReg (rgnStatus 0) 0).setReg (rgnStatus 11) 0 with logic := { LogicState.reset with
      bramCfg := wMem false, arithCfg := [(11 * 320 + 319, { ArithCfg.plain with tree := some 0 })] } }
def wQueue (level : Nat) : Dev :=
  { wBram with logic := { LogicState.reset with
      bramCfg := wMem true,
      queues := if level = 0 then [] else [(memKey 11 239, { QueueCtl.empty with level := level })] } }
def wWindow (type len : Nat) : Dev :=
  { wBram.setReg (rgnWinMask 11 7) 0xFFFF with logic := { LogicState.reset with
      bramCfg := wMem false,
      winq := [(11, [wCell 5 ([BitVec.ofNat 8 type, 0] ++ putLE 2 len ++ zeros 4 ++ putLE 5 (winBase 11 + 0xEF000) ++ zeros 3 ++ zeros (if type = 1 then len else 0))])] } }
/-- A shutdown at a step of its sequence, its logic test of region 2 and its march of the spare bank running. -/
def wShutdown : Shutdown :=
  { byCommand := false, selftest := false, cap := 30000, todo := [], running := [.region 2 500, .bank 16], cut := 0 }
def wStep (n : Nat) : Dev :=
  let d := (wDev.setReg pwrStatus (BitVec.ofNat 32 (n * 2 ^ 28))).setReg nvsStatus 0xC0000000
  { d with power := { d.power with shutdown := some wShutdown } }
/-- A logic test of region 11 that waits or runs. -/
def wSelf (code : Nat) : Dev := (wDev.setReg (rgnStatus 11) 0x80000004).setTestCode 11 1 code
/-- A SYS_NOP request packet with tag 1; its message from endpoint 3; a device that has received one at endpoint 48. -/
def wPacket : List Byte :=
  let head : List Byte := [0xA7, 1, 0, 0, 1, 0, 0, 0, 0, 0, 0, 0]
  let body := head ++ putLE 4 (crc32c head)
  body ++ putLE 4 (crc32c body)
def wMsg (bs : List Byte) : Cell := { wCell 7 bs with src := 3, dest := 48 }
def wEp48 (bs : List Byte) : Dev := wHive.setRx 48 [wMsg bs]
def wImfaIr : Dev := { wHive with jtag := { wHive.jtag with ir := irImfa } }
/-- A job with ticket 5 and its final reply, or none; all 16 tickets held. -/
def wJob (t : Option Word) (final : Option (BitVec 16 × List Byte)) : Job :=
  { req := wReq 0x0206 [], kind := .shutdown, progress := 0, ticket := t, final := final, gone := false }
def wTicket (final : Option (BitVec 16 × List Byte)) : Dev :=
  { wHive with hive := { wHive.hive with jobs := [wJob (some 5) final], tickets := [5] } }
def wFull : Dev := { wHive with hive := { wHive.hive with jobs := List.replicate 16 (wJob (some 5) none) } }
/-- A store that is ready, awake and blank; with one programmed word; with an erase, with a program, with a move due. -/
def wNv : Dev := wHive.setReg nvsStatus 0x80000000
def wNvUsed : Dev := wNv.setStore (wNv.store.setWord (wNv.store.phys 2688) 0 { data := some 5, errs := 0 })
def wNvErasing : Dev :=
  wNv.setNvPlane (wNv.store.phys 2688 % 16) { Plane.idle with op := some (.erase (some 2688) (wNv.store.phys 2688) 0 0) }
def wNvProg : Dev := wNv.setNvPlane 0 { Plane.idle with op := some (.program 2688 0 [(0, 5)]) }
def wNvMove (m : MoveStep) : Dev := wNv.setStore { wNv.store with move := m, movesDue := 1, refresh := [5], extraPass := some 3071 }
/-- Parameters of a read of 32 bytes of the user partition, and of a program of them; the read as a message. -/
def wUser : List Byte := [4, 0, 0, 0] ++ zeros 4 ++ putLE 4 32
def wTaken (d : Dev) (op : BitVec 16) (params : List Byte) : Dev := (wAsk d op params).dev.taken (wReq op params) []
def wProg : List Byte := [4, 0, 0, 0] ++ zeros 36
def wUserReq : List Byte := [2, 0] ++ putLE 2 32 ++ zeros 4 ++ putLE 5 userBase ++ zeros 3
/-- An open session with its first bytes still to come; the test port in CFG_LOAD; a VALID directory entry. -/
def wSession (t : StreamTarget) : Session := { target := t, length := 64, bytes := [], load := .fresh }
def wStream (t : StreamTarget) : Dev := { wNv with cfg := { wNv.cfg with session := some (wSession t) } }
def wCfgLoad : Dev := { wHive with jtag := { wHive.jtag with ir := irCfgLoad } }
def wLib (target : Nat) : Dev := wNv.setStore { wNv.store with dir := [(target, (0x800B0001, 0))] }
/-- A device in CHAIN_FIRST whose chain is open or not, and a segment for position 1. -/
def wChain (isOpen : Bool) : Dev :=
  let d := wDev.setReg cfgBoot 0x20000
  { d with cfg := { d.cfg with chainOpen := isOpen } }
def wSeg : List Byte :=
  let head : List Byte := [0xA5, 0x3C, 1, 0, 0, 0, 0, 0, 2, 0, 0, 0]
  head ++ putLE 4 (crc32c head) ++ [1, 2]
/-- A FLOW_ADMIT request for flow 5 from endpoint 44 to 45 without slots; a flow in a state with N slots. -/
def wAdmit : List Byte := [5, 0, 44, 45, 0, 0, 0, 0, 1] ++ zeros 23
def wFlow (st : FlowState) (n : BitVec 16) : Dev :=
  wHive.setFlow 5 { Flow.blank with src := 44, dest := 45, n := n, b := 2, m := 1, state := st }
def wShut (d : Dev) : Dev := { d with fab := { d.fab with begun := true, nextSlot := 500 } }
/-- A cell of a judged flow at the head of endpoint 16; a cell on its way, with an acknowledgement and a credit; pools. -/
def wHead (tokens credits : Nat) : Dev :=
  let x : Flow :=
    { Flow.blank with src := 16, dest := 51, n := 2, b := 2, m := 2, state := .live, tokens := tokens, credits := credits }
  (wDev.setFlow 5 x).setIng 16 { Ingress.empty with queue := [wCell 5 []] }
def wFlight : Dev :=
  { wDev with fab := { wDev.fab with
      flight := [{ cell := wCell 5 [], ingress := 16, seq := some 3, second := false, planes := [0, 1, 2, 3], mirror := none }],
      acks := [{ ingress := 16, num := 1, good := true }], credits := [5] } }
def wPool : Dev :=
  let p : PoolEnt := { cell := wCell 5 [], missed := false, payloadOk := true }
  (wDev.setPool 51 [p]).setPool 0 [p]
/-- A bank request of a type from endpoint 16 in the data queue, or the CPU queue, of bank 0. -/
def wBankMsg (type : Byte) : Cell :=
  { wCell 9 ([type, 0, if type = 4 then 0 else 16, 0] ++ zeros 12 ++ (if type = 1 then zeros 16 else [])) with src := 16, dest := 40 }
def wOwned : Dev := (wDev.setReg bankReady 0x1FFFF).setReg (bankOwner 0) 16
def wGateOf (type : Byte) : Dev := { wOwned with bank := { wOwned.bank with queues := [(2, [wBankMsg type])] } }
def wGate : Dev := wGateOf 1
def wGateCpu : Dev :=
  ({ wOwned with bank := { wOwned.bank with queues := [(1, [wBankMsg 1])] } } : Dev).setBankPort 0 { BankPort.idle with sinceCpu := 3 }
/-- A wipe of bank 0; endpoint 16 as its owner and a secure master; a march on bank 16; a remap; good banks. -/
def wWipingBank : Dev := wDev.setReg (bankCtrl 0) 0x80000002
def wSecure : Dev :=
  let x := (wDev.setReg (bankOwner 0) 16).setReg (rgnStatus 0) 0
  { x with cfg := { x.cfg with recs := [(0, zeros 0x3A ++ [1] ++ zeros 13 ++ [0x80] ++ zeros 55)] } }
def wMarch : Dev := wDev.startMarch 16 { checker := false, preserving := true, cause := .command, stopped := false }
def wRemap (v : Word) : Dev := wDev.setReg bankRemap v
def wGood16 : Dev := wHive.setReg (bankTestStatus 16) 2
def wUndo : Dev :=
  let x := (wHive.setReg bankRemap 0x80000003).setReg (bankTestStatus 3) 2
  { x with bank := { x.bank with retested := true } }
/-- Lane 15 in a mode, out of reset with its sides on, with an SDS_STATUS; port 15 with a MAC_CFG and a MAC_STATUS. -/
def wLane (mode : Nat) (status : Word) : Dev :=
  ((wDev.setReg (sdsCfg 15) (BitVec.ofNat 32 (mode * 2 ^ 24))).setReg (sdsCtrl 15) 6).setReg (sdsStatus 15) status
def wPort (cfg status : Word) : Dev := ((wLane 1 0x7C000000).setReg (macCfg 15) cfg).setReg (macStatus 15) status
def wSend (status : Word) : Dev := (wPort 0x82018000 status).setMacTx 15 [{ flow := 5, bytes := [1] }]
def wSeen : Dev := { wLane 3 0x54000000 with serial := { (wLane 3 0x54000000).serial with exempt := 0 } }
def wRawFlow : Dev :=
  ((wLane 3 0x74000000).setReg (sdsRawCfg 15) 5).setFlow 5 { Flow.blank with src := 15, dest := 51, state := .live }
def wRawTx : Dev := (wLane 3 0x74000000).setReg fenceLane 0x8000
/-- Lane 15 marked TEST with its generator and checker on and locked; PORT_CONFIG parameters and their first writes. -/
def wTestLane : Dev :=
  ((wDev.setReg (sdsCtrl 15) 0x80000006).setReg (sdsPrbsCtrl 15) 0xC0000000).setReg (sdsPrbsStatus 15) 0x80000000
def wCfgReq : List Byte := [15, 0, 0, 0] ++ putLE 4 0x03000000 ++ putLE 4 200000 ++ putLE 4 0x01010000 ++ zeros 8
def wCfgX : Dev × Option Answer :=
  (wTaken wHive 0x0800 wCfgReq).portSteps ([15].map (fun n => fixedWrite (sdsCfg n) 0x03000000) ++ [fixedWrite (sdsRate 15) 200000])
/-- Channel 15 of DMA engine 1: owned by region 0, whose image grants DMA; in a state; with a usable bypass route. -/
def wDmaOwned : Dev :=
  let x := wDev.setReg (dmaChCfg 1 15) 0x10000000
  { x with cfg := { x.cfg with recs := [(0, zeros 0x48 ++ [0x20] ++ zeros 55)] } }
def wChan (st : ChState) : Dev := wDev.setDmaChan 1 15 { DmaChan.idle with state := st }
def wRoute (st : ChState) : Dev :=
  let x := ((wChan st).setReg (xltAsCfg 0) 0xC0000000).setReg (dmaRoute 1 0) 0x80070006
  let a : Flow := { Flow.blank with src := 50, dest := 40, state := .live, tokens := 9, credits := 9 }
  let b : Flow := { Flow.blank with src := 40, dest := 50, state := .live, tokens := 9, credits := 9 }
  (x.setFlow 6 a).setFlow 7 b
/-- Answers with TAG 3 on reply flow 7 at endpoint 50: a descriptor, a leaf entry, a TARGET_IN_TEST; and what they answer. -/
def wHead16 (status : Nat) : List Byte := zeros 6 ++ putLE 2 3 ++ zeros 6 ++ putLE 2 status
def wMsg48 : Cell := { wCell 7 (wHead16 0 ++ [1, 0, 0, 0, 64, 0, 0, 0] ++ zeros 24) with dest := 50 }
def wMsg24 : Cell := { wCell 7 (wHead16 0 ++ putLE 8 0x500F) with dest := 50 }
def wMsgTest : Cell := { wCell 7 (wHead16 stInTest) with dest := 50 }
def wReply : Dev := (wRoute .active).setRx 50 [wMsg48]
def wWalk : Walk := { chan := 15, space := 0, va := 0x9000, phase := 0, level := 3, entry := 0, asked := true, stale := false }
def wOutMsg (k : ReqKind) (m : Cell) : Dev :=
  ((wRoute .active).setRx 50 [m]).updEng 1 (fun x =>
    { x with reqs := [{ tag := 3, chan := 15, kind := k, server := 0, cells := 1, dead := false, lost := false }], walk := some wWalk })
def wOut (k : ReqKind) : Dev := wOutMsg k wMsg48
def wMsgBad : Cell := { wCell 7 (zeros 6 ++ putLE 2 3 ++ zeros 5 ++ [4] ++ putLE 2 stBadParam) with dest := 50 }
/-- A descriptor of 64 bytes from 0x1000 (to 0x2000 where it is M2M); a channel that runs it; a group to read. -/
def wDesc (type : Byte) : List Byte :=
  [type, 0] ++ putLE 2 (if type = 1 then 0 else 6) ++ putLE 4 64 ++ putLE 5 0x1000 ++ putLE 5 (if type = 1 then 0x2000 else 0) ++ zeros 14
def wRun (type : Byte) (next : Nat) : Dev :=
  (wRoute .active).updChan 1 15 (fun x => { x with desc := wDesc type, next := next, stop := 64 })
def wRead : DmaGroup := { off := 0, len := 8, parts := [(0x1000, 8)], data := [], st := .reading }
/-- A channel in WAIT_TEST with a group that is not written, and a wait limit. -/
def wGroup : DmaGroup := { off := 64, len := 64, parts := [], data := zeros 64, st := .toWrite }
def wWaiting : Dev :=
  (wDev.setReg (dmaEngCfg 1) 0x10000).setDmaChan 1 15
    { DmaChan.idle with state := .waitTest, desc := [1, 0, 0, 0, 0, 1, 0, 0] ++ zeros 24, next := 128, stop := 256, groups := [wGroup] }
/-- Permits for pins 192 to 238; lane 15 as a lead with its pins, queued; its scan running; a transfer on bus 0. -/
def wPermits : Dev := (wDev.setReg (fencePin 6) 0xFFFFFFFF).setReg (fencePin 7) 0x7FFF
def wLead : Dev :=
  let x := wPermits.setReg (modLaneCfg 15) 0x8F3FE6E7
  { x with mods := { x.mods with queued := 0x8000 }, pins := { x.pins with level := x.pins.level ||| 0 } }
def wScan : Dev :=
  let x := ((wLead.setReg (modLaneCfg 15) 0x8F3FE6FF).setReg (pmuxPin 192) 2).setReg (pmuxPin 193) 2
  { x with mods := { x.mods with queued := 0, running := 0x8000 } }
def wXfer : Dev :=
  let x := ((wPermits.setReg (pmuxPin 192) 2).setReg (pmuxPin 193) 2).setReg (modXferCtrl 0) 0x90000000
  { x with mods := { x.mods with xfers := [(0, 0x50000000)] } }

/-! ## Operands that no command carries -/

theorem test_wf_drift : (Instr.nvsRead [(3072 * 2048 + 16384, 1)]).wf = false := by decide
theorem test_wf_sector_range : (Instr.lifecycleWipeDone [3040]).wf = false := by decide
theorem test_wf_sector_twice : (Instr.nvsRecovery [5, 5]).wf = false := by decide
theorem test_wf_flip_range : (Instr.scrubChipFrame [2048]).wf = false := by decide
theorem test_wf_flip_twice : (Instr.scrubChipFrame [7, 7]).wf = false := by decide
theorem test_wf_rung_aux : (Instr.shedRungHold 1 true 0).wf = false := by decide
theorem test_wf_freq : (Instr.timeRefReturn 0).wf = false := by decide
theorem test_wf_spi_length : (Instr.spiWrite false (List.replicate 17409 0)).wf = false := by decide
theorem test_wf_suite_rows : (Instr.shutdownTestEnd (.bank 0 [3, 3] 0)).wf = false := by decide
theorem test_wf_frame_empty : (Instr.macFrameReceive 0 [] false false 0 0 0).wf = false := by decide
theorem test_wf_march_rows : (Instr.bankMarchDone 0 [1, 1] 0).wf = false := by decide
theorem test_wf_module_page : (Instr.moduleScanComplete 0 (some [1]) none).wf = false := by decide
theorem test_wf_module_record : (Instr.moduleScanComplete 0 none (some [1])).wf = false := by decide
theorem test_wf_window_steals : (Instr.windowAccess 0 [3, 3] .clean []).wf = false := by decide
theorem test_wf_boundary_skew : (Instr.periodBoundary 858993460).wf = false := by decide
theorem test_wf_arrival_flips : (Instr.cellEgressArrival 0 [(4, 7), (4, 7)]).wf = false := by decide
theorem test_wf_yield_code : (Instr.yieldCall 0 5).wf = false := by decide
theorem test_wf_selftest_rows : (Instr.regionSelftestDone 0 0 0 [3, 3]).wf = false := by decide
theorem test_wf_checker : (Instr.prbsCheckerLock 0 5 4).wf = false := by decide
theorem test_wf_power_sample : ({ codes := [], total := 0, regions := [], rails := [] } : PowerSample).wf = false := by decide

/-! ## Single steps, with results worked out from the rules -/

/-- The device that a command leaves, where it answers a next state. -/
def ran (c : Instr) (d : Dev) : Option Dev :=
  match exec c { pending := [], dev := d } with
  | .next t => some t.dev
  | _ => none

/-- The check values of the three polynomials for the digits 1 to 9. -/
theorem test_crc32c : crc32c [0x31, 0x32, 0x33, 0x34, 0x35, 0x36, 0x37, 0x38, 0x39] = 0xE3069283 := by decide
theorem test_crc16 : crc16 [0x31, 0x32, 0x33, 0x34, 0x35, 0x36, 0x37, 0x38, 0x39] = 0x29B1 := by decide
/-- D21.5 of 8b/10b alternates its bits at either disparity. -/
theorem test_d21_5 : (symbolOf false 0xB5 false, symbolOf true 0xB5 false) = (0x155, 0x155) := by decide
theorem test_fcs32 : fcs32 [0x31, 0x32, 0x33, 0x34, 0x35, 0x36, 0x37, 0x38, 0x39] = 0xCBF43926 := by decide

/-- R675: a code that the table does not list acts as BYPASS; Test-Logic-Reset loads IDCODE. -/
theorem test_jtag_unlisted : (ran (.jtagInstructionUpdate 0x055) wDev).map (fun d => d.jtag.ir) = some 0x3FF := by decide
theorem test_jtag_listed : (ran (.jtagInstructionUpdate 0x020) wDev).map (fun d => d.jtag.ir) = some 0x020 := by decide

/-- R411, R412: the hive's write of BANK_OWNER 0x12 on bank 3 shows PENDING and NEXT beside OWNER = NONE; a second write
while PENDING holds changes nothing. -/
theorem test_owner_write : (ran (.bankOwnerWrite 0 3 0x12) wDev).map (fun d => d.reg (bankOwner 3)) = some 0x8000123F := by decide
theorem test_owner_pending :
    (ran (.bankOwnerWrite 0 3 0x12) (wDev.setReg (bankOwner 3) 0x8000173F)).map (fun d => d.reg (bankOwner 3)) =
      some 0x8000173F := by decide

/-- R443: GO on bank 16 shows SERVICE = 0b01 and RESULT = 0b001; R428: the bank leaves service. -/
theorem test_march_go : (ran (.bankTestGo 0 16 0) (wDev.setReg bankReady 0x1FFFF)).map
    (fun d => (d.reg (bankTestStatus 16), d.reg bankReady)) = some (0x40000001, 0xFFFF) := by decide

/-- R283: SDS_CFG out of reset keeps its value; R49: the refused write escalates CTRL_DECODE. -/
theorem test_sds_out_of_reset : (ran (.sdsCfgWrite 0 15 false 0x04000000) (wLane 3 0)).map (fun d => d.reg (sdsCfg 15)) =
    some 0x03000000 := by decide

/-- R587: a switched pin's status clears; R590: a masked write changes the named bits alone. -/
theorem test_gpio_masked : (ran (.gpioOutMasked 0 0 0x00030001) (wDev.setReg (gpioOut 0) 0xF002)).map
    (fun d => d.reg (gpioOut 0)) = some 0xF001 := by decide
theorem test_gpio_edge : (ran (.gpioIrqDetect 0 1) (({ wDev with pins := { wDev.pins with fresh := 0 } } : Dev).setReg (gpioMode 0 0) 1)).map
    (fun d => (d.reg (gpioStatus 0), d.reg (gpioEvents 0))) = some (1, 1) := by decide

/-- R494: an invalidation of one space leaves the entries of another. -/
theorem test_inval_space : (ran (.xltInval 0 0x10000002) (wDev.updEng 0 (fun x => { x with tlb :=
      [{ space := 2, shift := 12, vpn := 9, ppn := 1, r := true, w := true },
       { space := 3, shift := 12, vpn := 9, ppn := 1, r := true, w := true }] }))).map
    (fun d => (d.dmaEng 0).tlb.map (fun t => t.space)) = some [3] := by decide

/-- R507: GO starts an idle channel; ABORT with nothing outstanding leaves RESULT ABORTED. -/
theorem test_dma_go : (ran (.dmaChGo 0 1 15 0) wDev).map (fun d => (d.dmaChan 1 15).state) = some .active := by decide
theorem test_dma_abort : (ran (.dmaChAbort 0 1 15 0) (wChan .active)).map
    (fun d => ((d.dmaChan 1 15).state, (d.dmaChan 1 15).result)) = some (.idle, 1) := by decide

/-! ## A state and operands for the hypotheses of every statement -/

theorem wit_EmptyQueue : State.reset.pending = [] := by decide

theorem wit_Invariant : State.Inv State.reset ∧ ∃ t, step State.reset = .next t := by
  refine ⟨by unfold State.Inv; decide, _, rfl⟩

theorem wit_BankCommandsKeepMemoryCanonical : Memory.wf State.reset.dev = true ∧ ∃ t, exec .bankMigrateDone State.reset = .next t :=
  ⟨by decide, _, rfl⟩

theorem wit_EscalationIsRecorded : (2 : Nat) < 21 ∧ State.reset.dev.actionOf 2 = 0 ∧ State.reset.dev.reg chipErrPending = 0 ∧
    State.reset.dev.log.queued State.reset.dev.time.uptime < 32 := by decide
theorem wit_EscalationQueueFull :
    let x := { State.reset.dev with log := { LogState.reset with fill := 32 } }
    x.actionOf 2 = 0 ∧ 32 ≤ x.log.queued x.time.uptime := by decide

theorem wit_EscalationNotFirst : (State.reset.dev.setReg chipErrPending 4).actionOf 2 = 0 ∧
    (State.reset.dev.setReg chipErrPending 4).reg chipErrPending ≠ 0 := by decide

theorem wit_RegisterFrames : wOn.dev.Quiet ∧ Instr.jtagTestLogicReset ∈ [Instr.jtagTestLogicReset] := by decide

theorem wit_PinReset : wOn.dev.power.por = false ∧ wOn.dev.lcy.scope = none ∧ wOn.dev.log.intake = [] ∧
    (∀ j, j < 16 → (wOn.dev.nvPlane j).op = none ∧ (wOn.dev.nvPlane j).inner = none) ∧ State.reset.dev.power.por = true ∧
    ({ LcySession.reset with scope := some 1 } : LcySession).scope ≠ none := by decide

theorem wit_PowerGood : State.reset.dev.power.por = true ∧ wOn.dev.power.por = false := by decide

theorem wit_StartDue : wDue.dev.power.startDue = true ∧ wDue.dev.power.por = false ∧ wOn.dev.power.startDue = false := by decide

theorem wit_DeferredDevice : (wDueReset .device).dev.hive.due = [.device] ∧ (wDueReset .commit).dev.hive.due = [.commit] ∧
    (wDueReset .lifecycle).dev.hive.due = [.lifecycle] ∧ wOn.dev.hive.due = [] ∧ wOn.dev.keys.cut = 0 ∧
    (DueReset.commit, causeCommit) ∈ [(DueReset.device, causeSysReset), (DueReset.commit, causeCommit), (DueReset.lifecycle, causeLifecycle)] := by
  decide

theorem wit_DeferredHive : (wDueReset .hive).dev.hive.due = [.hive] := by decide

theorem wit_HiveReset : wOn.dev.running = true ∧ wOn.dev.hive.held = false ∧ wOn.dev.Quiet ∧ State.reset.dev.running = false ∧
    (1 : BitVec 2) ≠ 0 := by decide

theorem wit_HiveRuns : wReady.dev.hiveRuns = true ∧ wReady.dev.hive.ready = true ∧ wOn.dev.hiveRuns = true ∧
    wOn.dev.hive.ready = false ∧ State.reset.dev.hiveRuns = false ∧
    wOn.dev.time.uptime.toNat - wOn.dev.hive.wdogFrom.toNat < 1900000000 * 2 ^ 32 ∧
    1900000000 * 2 ^ 32 ≤ (1900000000 * 2 ^ 32 : BitVec 96).toNat - wOn.dev.hive.wdogFrom.toNat := by decide

theorem wit_RungHold : wOn.dev.running = true ∧ State.reset.dev.running = false := by decide

theorem wit_RungRestore : (wStatus 0x08).dev.running = true ∧ (3 : Fin 4).val ≠ 0 ∧
    (∀ b, (3 : Fin 4).val < b → b < 4 → (wStatus 0x08).dev.rbit pwrStatus b = false) ∧
    (∀ b, 0 < b → b < 4 → (wStatus 0x01).dev.rbit pwrStatus b = false) ∧ (wStatus 0x08).dev.rbit pwrStatus 3 = true := by
  have h : ∀ b, b < 4 → 0 < b → (wStatus 0x01).dev.rbit pwrStatus b = false := by decide
  exact ⟨by decide, by decide, fun b h1 h2 => absurd h2 (by omega), fun b h1 h2 => h b h2 h1, by decide⟩

theorem wit_ClassThaw : ({ PowerState.reset with thawNext := [2, 1] } : PowerState).thawNext = 2 :: [1] ∧
    wOn.dev.power.thawNext = [] := by decide

theorem wit_ShedQuietly : wDev.actionOf clsShed = 0 ∧ wDev.power.startDue = false := by decide

theorem wit_StoreSupplies : wOn.dev.running = true ∧ wOn.dev.nvHalt = false ∧ State.reset.dev.running = false := by decide

theorem wit_TemperatureSample : State.reset.dev.power.por = true ∧ wOn.dev.power.por = false ∧ wOn.dev.power.thermHold = false ∧
    wOn.dev.power.resetN = false ∧ ({ wOn.dev.power with thermHold := true } : PowerState).thermHold = true ∧
    ({ wOn.dev.power with resetN := true } : PowerState).resetN = true := by decide

theorem wit_TemperatureReadings :
    let x : PowerSample := { codes := [7, 8], total := 5, regions := [1], rails := [2] }
    x.codes[1]? = some 8 ∧ [(0, 3), (1, 4)].map (fun t : Nat × Nat => t.1) = List.range 2 ∧
    [(0, 3), (1, 4)][1]? = some (1, 4) ∧ x.regions[0]? = some 1 ∧ x.rails[0]? = some 2 := by decide

theorem wit_TemperatureWarning :
    let d := wDev.setReg (pwrTemp 7) 0x640
    d.rbit pwrStatus 13 = false ∧ (List.range 8).find? (fun k => decide (1600 ≤ d.tempOf k)) = some 7 ∧
    signed 16 (d.fld pwrTempWarn 0 16) = 1600 ∧ (∀ k, k < 8 → wDev.tempOf k < 1600) ∧
    (wDev.setRbit pwrStatus 13 true).rbit pwrStatus 13 = true ∧ (∀ k, k < 8 → wDev.tempOf k ≤ 1600 - 80) := by decide

theorem wit_TimeRef :
    let d := (wOn.dev.setFld timeStatus 27 2 1)
    d.onTimeRef = true ∧ wOn.dev.onTimeRef = false ∧ (wOn.dev.setRbit timeStatus 30 true).rbit timeStatus 30 = true := by decide

theorem wit_LcyInfo : (wAsk wHive 0x0600 []).dev.Takes 0x0600 (wReq 0x0600 []) [] ∧ (wReq 0x0600 []).params = [] := by
  unfold Dev.Takes; decide

theorem wit_Challenge :
    (wAsk wDeployed 0x0601 [1, 0, 0, 0]).dev.Takes 0x0601 (wReq 0x0601 [1, 0, 0, 0]) [] ∧
    checkParams (wReq 0x0601 [1, 0, 0, 0]) 4 (scopeBytes 0) [] = none ∧
    (wAsk wDeployed 0x0601 [1, 0, 0, 0]).dev.inDeployed = true ∧
    (wAsk wDeployed 0x0601 [1, 0, 0, 0]).dev.keys.serviceKey ≠ zeros 32 := by
  unfold Dev.Takes; decide

theorem wit_Response :
    (wAsk wNonce 0x0602 (zeros 32)).dev.Takes 0x0602 (wReq 0x0602 (zeros 32)) [] ∧ (wReq 0x0602 (zeros 32)).params.length = 32 ∧
    (wAsk wNonce 0x0602 (zeros 32)).dev.lcy.nonce = some { bytes := zeros 32, scope := 1 } ∧
    (wAsk wNonce 0x0602 (zeros 32)).dev.delayMs = 0 := by
  unfold Dev.Takes; decide

theorem wit_Password :
    (wAsk wDeployed 0x0603 (zeros 20)).dev.Takes 0x0603 (wReq 0x0603 (zeros 20)) [] ∧
    checkParams (wReq 0x0603 (zeros 20)) 20 (scopeBytes 16) [] = none ∧
    (getLE 1 (wReq 0x0603 (zeros 20)).params 16).testBit 2 = false ∧ (wAsk wDeployed 0x0603 (zeros 20)).dev.inDeployed = true ∧
    (wAsk wDeployed 0x0603 (zeros 20)).dev.keys.passwordHash ≠ zeros 32 ∧ (wAsk wDeployed 0x0603 (zeros 20)).dev.delayMs = 0 := by
  unfold Dev.Takes; decide

theorem wit_ServiceRefused : (wAsk wHive 0x0601 [1, 0, 0, 0]).dev.inDeployed = false ∧
    ({ wHive with keys := { wKeys with serviceKey := zeros 32 } } : Dev).inDeployed = true ∧
    (wAsk wHive 0x0602 (zeros 32)).dev.Takes 0x0602 (wReq 0x0602 (zeros 32)) [] ∧ wHive.lcy.nonce = none ∧
    ({ wNonce with keys := { wKeys with attempts := 1 } } : Dev).delayMs ≠ 0 ∧ wNonce.lcy.nonce ≠ none ∧
    (getLE 1 (wReq 0x0603 (zeros 16 ++ [4, 0, 0, 0])).params 16).testBit 2 = true := by unfold Dev.Takes; decide

theorem wit_Close : (wAsk wHive 0x0604 []).dev.Takes 0x0604 (wReq 0x0604 []) [] := by unfold Dev.Takes; decide

theorem wit_Transition :
    (wAsk wHive 0x0605 [4, 0, 0, 0, 0x54, 0x52, 0x45, 0x54]).dev.Takes 0x0605 (wReq 0x0605 [4, 0, 0, 0, 0x54, 0x52, 0x45, 0x54]) [] ∧
    checkParams (wReq 0x0605 [4, 0, 0, 0, 0x54, 0x52, 0x45, 0x54]) 8 (zb [1, 2, 3]) [(0, 1, 0, 4)] = none ∧
    ((wAsk wHive 0x0605 [4, 0, 0, 0, 0x54, 0x52, 0x45, 0x54]).dev.taken (wReq 0x0605 [4, 0, 0, 0, 0x54, 0x52, 0x45, 0x54]) []).transitionRefused 4 0x54455254 = none := by
  unfold Dev.Takes; decide

theorem wit_KeyProvision :
    (wAsk wHive 0x0606 ([1, 0, 0, 0] ++ zeros 32)).dev.Takes 0x0606 (wReq 0x0606 ([1, 0, 0, 0] ++ zeros 32)) [] ∧
    checkParams (wReq 0x0606 ([1, 0, 0, 0] ++ zeros 32)) 36 (zb [1, 2, 3]) [(0, 1, 1, 4)] = none ∧
    (wHive.inManufacture || wHive.inOpen) = true ∧ bit wHive.lcy.tamperNow 0 = false := by
  unfold Dev.Takes; decide

theorem wit_LcyRefused :
    ((wAsk wHive 0x0605 (zeros 8)).dev.taken (wReq 0x0605 (zeros 8)) []).transitionRefused 0 0 = some ansLife ∧
    wHive.lcCode = 1 ∧ (wDeployed.inManufacture || wDeployed.inOpen) = false ∧
    bit ({ wHive with lcy := { LcySession.reset with tamperNow := 1 } } : Dev).lcy.tamperNow 0 = true ∧
    Dev.reset.power.por = true ∧ bit wDev.keys.tamperCfg 0 = false ∧ wDev.keys.wipePending = false := by decide

theorem wit_Tamper : wTamper.power.por = false ∧ bit wTamper.keys.tamperCfg 3 = true ∧ bit wTamper.keys.tamperCfg 0 = false ∧
    ({ wTamper.keys with cut := 8 } : KeyStore).cut ≠ 0 := by decide

theorem wit_LifecycleWipe : wWiping.keys.wipePending = true ∧ wWiping.lcy.wiping = true ∧ wWiping.rbit nvsStatus 30 = false ∧
    wWiping.nvAwake = true ∧ wWiping.nvHold = false := by decide

theorem wit_LogReads : (wAsk wHive 0x0700 []).dev.Takes 0x0700 (wReq 0x0700 []) [] ∧
    (wAsk wHive 0x0702 []).dev.Takes 0x0702 (wReq 0x0702 []) [] ∧ (wAsk wHive 0x0703 []).dev.Takes 0x0703 (wReq 0x0703 []) [] := by
  unfold Dev.Takes; decide

theorem wit_LogRead : (wAsk wHive 0x0701 [0, 0, 0, 0, 1, 0, 0, 0]).dev.Takes 0x0701 (wReq 0x0701 [0, 0, 0, 0, 1, 0, 0, 0]) [] ∧
    checkParams (wReq 0x0701 [0, 0, 0, 0, 1, 0, 0, 0]) 8 (zb [6, 7]) [(4, 2, 1, 512)] = none ∧
    ¬ viaLimit Via.spi < 8 + 32 * 0 ∧
    viaLimit (.ep48 0) < 8 + 32 * 512 := by
  unfold Dev.Takes; decide

theorem wit_LogWrites : bit (1 : Word) 0 = true ∧ wOn.dev.granted 0 8 = true ∧
    wOn.dev.portIdle 0 = false ∧ (wDev.setReg (rgnStatus 0) 0).portIdle 1 = false ∧ (wDev.setReg (rgnStatus 0) 0).granted 1 8 = false := by decide

theorem wit_TimeControl : wOn.dev.granted 0 3 = true ∧ wOn.dev.Quiet ∧ wOn.dev.portIdle 0 = false ∧
    (wDev.setReg (rgnStatus 0) 0).portIdle 1 = false ∧ (wDev.setReg (rgnStatus 0) 0).granted 1 3 = false := by decide

theorem wit_TimeApply : ({ TimeState.reset with pendRate := some (5, 1024) } : TimeState).pendRate = some (5, 1024) ∧
    ({ TimeState.reset with pendStep := some (5, 1024) } : TimeState).pendStep = some (5, 1024) ∧
    ({ TimeState.reset with pendSet := some (5, 1024) } : TimeState).pendSet = some (5, 1024) ∧
    TimeState.reset.pendRate = none ∧ TimeState.reset.pendStep = none ∧ TimeState.reset.pendSet = none ∧
    TimeState.reset.uptime.toNat ≤ (1024 : Time96).toNat ∧
    TimeState.reset.waitFor (BitVec.ofNat 96 (64 * 2 ^ 32)) = 1024 * 2 ^ 32 := by decide

theorem wit_ChangeTime : wDev.sched = SchedState.reset ∧ (∀ k : Fin 256, wDev.rbit (schTmrCtrl k) 31 = false) := by
  refine ⟨rfl, ?_⟩; decide

theorem wit_LatchedReads : wOn.dev.serialReadOk 0 = true ∧ wOn.dev.portIdle 0 = false ∧
    (wDev.setReg (rgnStatus 0) 0).serialReadOk 1 = false := by decide

theorem wit_PpsOut : wPps.ppsOn = true ∧ wPps.time.ppsOut = none ∧ wPps.time.running = true ∧ wDev.ppsOn = false ∧
    ({ wPps.time with ppsOut := some 7 } : TimeState).ppsOut = some 7 ∧ wPps.time.now.toNat / 2 ^ 32 + 1000000001 < 2 ^ 64 := by decide

theorem wit_PpsIn : wPps.time.ppsIn ≠ true ∧ wPps.time.ppsIn = false ∧ wPps.rbit timePpsInCtrl 31 = true ∧
    wPps.rbit timePpsInCtrl 30 = !true ∧ wPps.Quiet ∧ wDev.rbit timePpsInCtrl 31 = false ∧
    (wPps.setRbit timePpsInCtrl 30 true).rbit timePpsInCtrl 30 = true := by decide

theorem wit_PortCalls : wSched.FreePort 0 ∧ (wSched.dport 0).running ≠ 0 ∧ wSched.FreePort 1 ∧ (wSched.dport 1).running = 0 ∧
    (wSched.called 0).handle? 2 = some 2 ∧ (wSched.called 0).handle? 9 = none ∧ wSched.online 31 = false ∧
    laterSeq 32 (5 : Word).toNat wSched.now32.toNat = true ∧ laterSeq 32 (0 : Word).toNat wSched.now32.toNat = false := by
  unfold Dev.FreePort; decide

theorem wit_BlockOn : wSched.FreePort 0 ∧ (wSched.dport 0).running ≠ 0 ∧ wSched.sched.evQueue = 5 :: [] ∧ wDev.sched.evQueue = [] ∧
    (wSched.ev 3).broadcast = false ∧ (wSched.ev 3).count ≠ 0 ∧ (wSched.ev 4).count = 0 ∧ (wSched.ev 4).pending ≠ 0xFFFF := by
  unfold Dev.FreePort; decide

theorem wit_Threads : wSched.FreePort 1 ∧ wSched.FreePort 0 ∧
    wSched.onChip < 1023 ∧ wSched.recordFree = true ∧ (wSched.dport 1).running = 0 ∧ wSched.schWriteOk 0 schCmd = true ∧ wSched.callBusy (.bus 0) = false ∧
    wSched.portIdle 0 = false ∧ (wSched.setReg (rgnStatus 0) 0).portIdle 1 = false ∧
    (wSched.setReg (rgnStatus 0) 0).schWriteOk 1 schCmd = false ∧ (6 < 1024 + wSched.spillCap ∧ (wSched.thread (6 + 1)).state = .free) ∧
    wSched.handle? (bits (wSched.cmdA 0) 0 24) = some 2 ∧ bits (wSched.cmdA 0) 0 24 ≠ 0 ∧ (wSched.thread 2).state ≠ .running ∧
    wDev.handle? (bits (wDev.cmdA 0) 0 24) = none ∧ bits (wDev.cmdA 0) 0 24 = 0 := by
  unfold Dev.FreePort; decide

theorem wit_SchedRegisters : wSched.schWriteOk 0 schRecSel = true ∧ wSched.spillEn = false ∧ wSched.spilled = 0 ∧
    1 ≤ bits (0x00000100 : Word) 8 5 ∧ bits (0x00001000 : Word) 8 5 ≤ 16 ∧ wSched.schWriteOk 0 (schEvCfg 511) = true ∧
    wSched.waiters 511 = [] ∧ wSched.schWriteOk 0 (schTmrExp 255 1) = true ∧ wSched.portIdle 0 = false ∧
    (wSched.setReg (rgnStatus 0) 0).portIdle 1 = false ∧ (wSched.setReg (rgnStatus 0) 0).schWriteOk 1 schRecSel = false ∧
    mget (fun _ => 0) [(255, 8)] (0 * 256 + 255) = (7 : Word).toNat + 1 := by decide

theorem wit_TimerAndWake :
    (wSched.setReg (schTmrCtrl 0) 0x80000003).rbit (schTmrCtrl 0) 31 = true ∧
    (wSched.setReg (schTmrCtrl 0) 0x80000003).reg (schTmrPeriod 0) = 0 ∧
    ((wSched.setReg (schTmrCtrl 0) 0x80000003).reach (BitVec.ofNat 64 ((wSched.setReg (schTmrCtrl 0) 0x80000003).tmrExp 0))).tmrExp 0 ≤
      ((wSched.setReg (schTmrCtrl 0) 0x80000003).reach (BitVec.ofNat 64 ((wSched.setReg (schTmrCtrl 0) 0x80000003).tmrExp 0))).ns.toNat ∧
    (wSleep.thread (3 : BitVec 16).toNat).wake = some 0 ∧ wSleep.sched.evQueue = [] ∧ (wSleep.thread 9).wake = none ∧
    wSched.rbit (schTmrCtrl 0) 31 = false ∧ (wSched.setReg (schTmrPeriod 0) 5).reg (schTmrPeriod 0) ≠ 0 ∧
    (wSched.setReg (schTmrExp 0 0) 9).ns.toNat < (wSched.setReg (schTmrExp 0 0) 9).tmrExp 0 ∧ wSched.spillAnswer true = none ∧ (wSleep.thread 3).state = .sleeping ∧
    (wSleep.thread 4).state = .blocked ∧ laterSeq 32 (0 : Word).toNat (wSleep.reachLow 0).now32.toNat = false := by decide

theorem wit_SpillAnswers :
    (wSpill (.spill 2 0) 0).sched.job = some (.spill 2 0) ∧
    ((wSpill (.spill 2 0) 0).spillAnswer true).map (fun x => (x.1, (x.2.2.thread 2).state, (x.2.2.thread 2).gen == x.2.2.sched.jobGen)) =
      some (0, .ready, true) ∧
    ((wSpill (.spill 2 0) 1).spillAnswer true).map (fun x => x.1) = some 1 ∧
    (wSpill (.refill 2 0) 0).sched.job = some (.refill 2 0) ∧
    ((wSpill (.refill 2 0) 0).spillAnswer false).map (fun x => (x.1, (x.2.2.thread 2).state, (x.2.2.thread 2).gen == x.2.2.sched.jobGen)) =
      some (0, .ready, true) ∧
    ((wSpill (.refill 9 0) 0).spillAnswer false).map (fun x => (x.1, (x.2.2.thread 9).state)) = some (0, .free) ∧
    ((wSpill (.refill 2 0) 9).spillAnswer false).map (fun x => x.1) = some 9 ∧ (wSpill (.spill 2 0) 0).sched.waitingCreates = [] ∧
    (wSched.setRbit schStatus 29 true).rbit schStatus 29 = true := by decide

theorem wit_RegionFreeze : bit (setBit (0 : Word) 1 true) 0 = false ∧ wDev.rbit pwrStatus 31 = false ∧
    (wDev.setReg (rgnStatus 11) 0x80000000).frozen 11 = true ∧ (wDev.setReg (rgnStatus 11) 0x80000000).reasons 11 = 0 ∧
    isRegionEp 16 = true ∧ isRegionEp 39 = true ∧ isRegionEp 40 = false ∧ wDev.reasons 0 ≠ 0 ∧ wBram.frozen 11 = false := by decide

def wTaps : Dev :=
  { wBram with logic := { wBram.logic with taps :=
    [(lineKey 11 4095 * 16, { TapCfg.off with mode := .steady }), (lineKey 11 4095 * 16 + 1, { TapCfg.off with mode := .dynamic })] } }

theorem wit_Contention : popCount 16 (wTaps.enabledTaps (lineKey 11 4095) 3) = 2 ∧ popCount 16 (wBram.enabledTaps (lineKey 11 4095) 3) < 2 ∧
    popCount 12 (wBram.enabledTaps (chipLineKey 127) 3 % 4096) < 2 ∧ (2 : Word).toNat.testBit 1 = true ∧
    (1 : Word).toNat.testBit 1 = false ∧ lineKey 11 4095 < 65536 := by decide

theorem wit_BlockMemory : wBram.Quiet ∧ wBram.gateOpen 11 (wBram.bramCfg 11 239).treeA = true ∧ (wBram.bramCfg 11 239).queue = false ∧
    (wBram.bramCfg 11 239).ecc = false ∧ (wBram.bramCfg 11 239).outRegA = false ∧ wBram.bramErrOf 11 239 511 = 0 ∧
    ({ BramCfg.plain with ecc := true } : BramCfg).ecc = true ∧ (wQueue 1 |>.bramCfg 11 239).queue = true ∧
    wDev.gateOpen 11 (some 0) = false ∧ wBram.pendingRows 11 239 = [] ∧
    (wBram.setPendingRows 11 239 [511]).pendingRows 11 239 = [511] := by decide

theorem wit_Queues : (wQueue 1).Quiet ∧ (wQueue 1).queueLive 11 239 .a = true ∧ (wQueue 1).queueLive 11 239 .b = true ∧
    ({ BramCfg.plain with treeB := some 1 } : BramCfg).singleClock = false ∧
    ((wQueue 1).bramCfg 11 239).singleClock = true ∧ ((wQueue 1).bramCfg 11 239).ecc = false ∧
    ((wQueue 1).bramCfg 11 239).outRegB = false ∧ ((wQueue 1).queue 11 239).toRead = [] ∧ ((wQueue 1).queue 11 239).holdR = 0 ∧
    (wQueue 1).queueDepth 11 239 = 512 ∧ ((wQueue 512).queue 11 239).level = 512 ∧ ((wQueue 0).queue 11 239).level = 0 ∧
    wBram.queueLive 11 239 .a = false ∧ wBram.queueLive 11 239 .b = false ∧ (wBram.queue 11 239).qrst = false ∧
    (wBram.setQueue 11 239 { QueueCtl.empty with qrst := true } |>.queue 11 239).qrst = true := by decide

def wShift : Dev := { wBram with logic := { wBram.logic with cells := [(srlKey 11 79999, { CellCfg.plain with shift := true, sd := none, tree := some 0 })] } }

theorem wit_ShiftAndArith : wShift.Quiet ∧ (wShift.cellCfg 11 79999).shift = true ∧ (wBram.cellCfg 11 79999).shift = false ∧
    wShift.gateOpen 11 (wShift.cellCfg 11 79999).tree = true ∧ (wShift.cellCfg 11 79999).sd = none ∧ 79999 % 16 ≠ 0 ∧
    wBram.gateOpen 11 (wBram.arithCfg 11 319).tree = true ∧ wDev.gateOpen 11 (wDev.arithCfg 11 319).tree = false ∧
    ({ LogicState.reset with tapTrim := some 5 } : LogicState).tapTrim = some 5 := by decide

theorem wit_Window : (wWindow 4 0).frozen 11 = false ∧ ((wWindow 4 0).winTake 11).isSome = true ∧ (wWindow 4 0).winMem 11 = none ∧
    (wWindow 1 8).winMem 11 = some 239 ∧ (wWindow 1 8).gateOpen 11 ((wWindow 1 8).bramCfg 11 239).treeB = true ∧
    wBram.winTake 11 = none ∧ wDev.frozen 11 = true ∧ (wBram.bramCfg 11 239).ecc = false ∧
    ((wWindow 4 0).winTake 11).map (fun x => x.2.winReason 11 (x.1.any (fun c => c.err)) (messageBytes x.1)) = some 0 ∧
    ((wWindow 4 1).winTake 11).map (fun x => x.2.winReason 11 (x.1.any (fun c => c.err)) (messageBytes x.1)) = some 1 ∧
    ((wWindow 2 8).winTake 11).map (fun x => x.2.winReason 11 (x.1.any (fun c => c.err)) (messageBytes x.1)) = some 0 ∧
    ((wWindow 1 8).winTake 11).map (fun x => x.2.winReason 11 (x.1.any (fun c => c.err)) (messageBytes x.1)) = some 0 := by decide

theorem wit_Unmapped : (0xFFFFFC : BitVec 24).toNat % 4 = 0 ∧ regRow (0xFFFFFC : BitVec 24).toNat = none ∧
    (0x000044 : BitVec 24).toNat % 4 = 0 ∧ regRow (0x000044 : BitVec 24).toNat = none ∧ wDev.Quiet ∧ wDev.actionOf 0 = 0 := by decide

theorem wit_WrongWidth : ((true = true) ∨ (0 : BitVec 24).toNat % 4 ≠ 0) ∧ ((false = true) ∨ (0xFFFFFF : BitVec 24).toNat % 4 ≠ 0) := by
  decide

theorem wit_PlainWrite : wDev.Quiet ∧ (0x020010 : BitVec 24).toNat % 4 = 0 ∧
    (0x020000 ≤ (0x020010 : BitVec 24).toNat ∧ (0x020010 : BitVec 24).toNat < 0x030000) ∧
    (0x020010 : BitVec 24).toNat ≠ bistPowerCap ∧ (regRow (0x020010 : BitVec 24).toNat).isSome = true := by decide

theorem wit_RcRead : wDev.Quiet ∧ (0x100030 : BitVec 24).toNat % 4 = 0 ∧
    ((regRow (0x100030 : BitVec 24).toNat).map (fun r => r.acc)) = some .rc ∧ wDev.readOk 0 (0x100030 : BitVec 24).toNat = true ∧
    (0x100030 : BitVec 24).toNat < 0x200000 ∧ ((regRow (0x020010 : BitVec 24).toNat).map (fun r => r.acc)) = some .rw ∧
    wDev.readOk 0 (0x020010 : BitVec 24).toNat = true ∧ wDev.view 0 (0x020010 : BitVec 24).toNat = none := by decide

theorem wit_StatReads : wDev.Quiet ∧ (0x200044 : BitVec 24).toNat % 4 = 0 ∧
    (regRow (0x200044 : BitVec 24).toNat).isSome = true ∧ wDev.readOk 0 (0x200044 : BitVec 24).toNat = true ∧
    (regRow (0x200048 : BitVec 24).toNat).isSome = true ∧ wDev.readOk 0 (0x200048 : BitVec 24).toNat = true ∧
    (0x201018 : BitVec 24).toNat % 4 = 0 ∧ ((regRow (0x201018 : BitVec 24).toNat).map (fun r => r.acc)) = some .statLo ∧
    wDev.readOk 0 (0x201018 : BitVec 24).toNat = true ∧
    ((regRow (0x20101C : BitVec 24).toNat).map (fun r => r.acc)) = some .statHi ∧ wDev.readOk 0 (0x20101C : BitVec 24).toNat = true := by
  decide

theorem wit_Saturation : (0xFFFFFFFFFFFE : BitVec 48).toNat + 1 ≤ 0xFFFFFFFFFFFF ∧ 0xFFFFFFFFFFFF < (0xFFFFFFFFFFFF : BitVec 48).toNat + 1 := by
  decide

theorem wit_Policy : wDev.Quiet ∧ (wDev.setReg chipErrCtrl 1).rbit chipErrCtrl 0 = true ∧ wDev.served 1 = true ∧
    (20 : Word).toNat % 32 ≤ 20 ∧ 20 < (21 : Word).toNat % 32 := by decide

theorem wit_RegisterWrite : (0x020010 : BitVec 24).toNat % 4 = 0 ∧ (regRow (0x020010 : BitVec 24).toNat).isSome = true ∧
    wDev.portIdle 0 = false := by decide

theorem wit_HiveRegister : busIdentity (.beStop 12 1) = some 12 ∧ hiveOffset (.beStop 12 1) = some fabCtrl ∧
    (wDev.setReg (rgnStatus 11) 0).portIdle 12 = false ∧ (wDev.setReg (rgnStatus 11) 0x80000000).portIdle 12 = true := by decide

theorem wit_ShutdownPin : (wDev.setReg pwrCtrl 3).Quiet ∧ (wDev.setReg pwrCtrl 3).running = true ∧
    (wDev.setReg pwrCtrl 3).rbit pwrCtrl 1 = true ∧ (wDev.setReg pwrCtrl 3).sdStep = 0 ∧ (wDev.setReg pwrCtrl 0).rbit pwrCtrl 1 = false ∧
    Dev.reset.running = false ∧ (wStep 5).sdStep = 5 ∧ (wStep 1).sdStep ≠ 5 ∧ wFull.ticketsFull = true ∧ wDev.power.shutdown = none := by
  decide

theorem wit_ShutdownCommand : (wAsk wHive 0x0900 (zeros 8)).dev.Takes 0x0900 (wReq 0x0900 (zeros 8)) [] ∧
    checkParams (wReq 0x0900 (zeros 8)) 8 [(0, 0xFE), (1, 0xFF), (2, 0xFF), (3, 0xFF)] [] = none ∧
    (wAsk wHive 0x0900 (zeros 8)).dev.sdStep = 0 ∧ (wAsk wHive 0x0900 (zeros 8)).dev.ticketsFull = false := by
  unfold Dev.Takes; decide

theorem wit_Drained : (wStep 1).Quiet ∧ (wStep 1).power.shutdown = some wShutdown ∧ (wStep 1).sdStep = 1 ∧
    wShutdown.selftest = false := by decide

theorem wit_TestEnd : (wStep 3).suiteRuns (isSuiteRegion 2) = true ∧ (wStep 3).suiteRuns (isSuiteBank 16) = true ∧
    (wStep 3).suiteRuns (isSuiteRegion 3) = false ∧
    (wStep 3).suiteRuns (isSuiteBank 3) = false := by decide

theorem wit_HealthRecord : (wStep 4).Quiet ∧ (wStep 4).power.shutdown = some wShutdown ∧ (wStep 4).sdStep = 4 ∧
    (wStep 4).nvAwake = true ∧ (wStep 4).nvReady = true ∧ (wStep 4).nvHold = false ∧ (wStep 4).store.move = .none ∧
    (wStep 3).sdStep ≠ 4 := by decide

theorem wit_Selftest : (wAsk wHive 0x0507 [11, 1, 0, 0]).dev.Takes 0x0507 (wReq 0x0507 [11, 1, 0, 0]) [] ∧
    checkParams (wReq 0x0507 [11, 1, 0, 0]) 4 (zb [2, 3]) [(0, 1, 0, 11), (1, 1, 1, 2)] = none ∧
    (wAsk wHive 0x0507 [11, 1, 0, 0]).dev.served 1 = true ∧
    (wAsk wHive 0x0507 [11, 1, 0, 0]).dev.rbit (rgnStatus ((wReq 0x0507 [11, 1, 0, 0]).u 1 0)) 9 = false ∧
    (wAsk wHive 0x0507 [11, 1, 0, 0]).dev.rbit (rgnStatus ((wReq 0x0507 [11, 1, 0, 0]).u 1 0)) rsnSelftest = false ∧
    (wAsk wHive 0x0507 [11, 1, 0, 0]).dev.suiteRuns (isSuiteRegion ((wReq 0x0507 [11, 1, 0, 0]).u 1 0)) = false ∧
    (wAsk wHive 0x0507 [11, 1, 0, 0]).dev.ticketsFull = false := by
  unfold Dev.Takes; decide

theorem wit_SelftestPhases : (wSelf tstWaiting).selfKind 11 = some 1 ∧ (wSelf tstWaiting).testCode 11 1 = tstWaiting ∧
    (wSelf tstRunning).selfKind 11 = some 1 ∧ (wSelf tstRunning).testCode 11 1 = tstRunning ∧ wDev.selfKind 0 = none ∧
    ((wDev.setReg (rgnStatus 11) 0x80000004).setTestCode 11 2 tstRunning).selfKind 11 = some 2 ∧
    ((wDev.setReg (rgnStatus 11) 0x80000004).setTestCode 11 2 tstRunning).testCode 11 2 = tstRunning ∧
    (wHive.setReg (rgnStatus 11) 0x200).rbit (rgnStatus 11) 9 = true ∧ (wDeployed.served 1) = false ∧
    wDev.sdStep ≠ 3 := by decide

theorem wit_SpiPins : wReady.dev.spiTakes false = true ∧ wReady.dev.spiTakes true = false := by decide

theorem wit_Transports : wReady.dev.hive.ready = true ∧ wReady.dev.Quiet ∧ ([0xA7] : List Byte).head? = some 0xA7 ∧
    ([0x00] : List Byte).head? ≠ some 0xA7 ∧ wOn.dev.hive.ready = false ∧ wReady.dev.misoDriven = true ∧
    (0x48 : BitVec 7).toNat = 0x48 + wReady.dev.hive.addr.toNat ∧ (0x49 : BitVec 7).toNat ≠ 0x48 + wReady.dev.hive.addr.toNat := by
  decide

theorem wit_Packet : wPacket.length = 20 + getLE 4 wPacket 8 ∧ getLE 4 wPacket 8 ≤ viaLimit .spi ∧
    crc32c (wPacket.take 12) = getLE 4 wPacket 12 ∧ getLE 1 wPacket 1 = 1 ∧
    crc32c (wPacket.take (16 + getLE 4 wPacket 8)) = getLE 4 wPacket (16 + getLE 4 wPacket 8) ∧
    opcodes.contains (getLE 2 wPacket 2) = true ∧ getLE 2 wPacket 6 = 0 := by decide

theorem wit_JtagScan : wImfaIr.jtag.ir = irImfa ∧ wImfaIr.Quiet ∧ wDev.jtag.ir ≠ irImfa ∧ wImfaIr.hive.ready = true ∧
    wImfaIr.hive.jtag.discard = false ∧ wImfaIr.hive.jtag.part.length < 15 ∧
    (wImfaIr.hive.jtag.part ≠ [] ∨ (0xA7 : Byte) = 0xA7) ∧ wImfaIr.hive.jtag.part = [] ∧ (0 : Byte) ≠ 0xA7 := by decide

theorem wit_Ep48 : takeMessage 7 ((wEp48 wPacket).rxCells 48) = some ([wMsg wPacket], []) ∧
    ([wMsg wPacket] : List Cell).head? = some (wMsg wPacket) ∧
    [wMsg wPacket].any (fun c => c.err) = false ∧ getLE 1 (messageBytes [wMsg wPacket]) 0 = 0xA7 ∧ (wEp48 wPacket).hive.ready = true ∧
    (wEp48 wPacket).ep48Waiting < 4 ∧ (wDev.setRx 48 [wMsg wPacket]).hive.ready = false ∧
    ({ wEp48 wPacket with hive := { wHive.hive with waiting := List.replicate 4 { wReq 0 [] with via := .ep48 3 } } } : Dev).ep48Waiting = 4 ∧
    takeMessage 7 (wDev.rxCells 48) = none ∧ takeMessage 7 ((wEp48 [2]).rxCells 48) = some ([wMsg [2]], []) ∧
    getLE 1 (messageBytes [wMsg [2]]) 0 = 2 ∧ getLE 1 (messageBytes [wMsg [0]]) 0 = 0 ∧
    takeMessage 7 ((wEp48 [9]).rxCells 48) = some ([wMsg [9]], []) ∧
    4 < getLE 1 (messageBytes [wMsg [9]]) 0 ∧ getLE 1 (messageBytes [wMsg [9]]) 0 ≠ 0xA7 := by decide

theorem wit_Refused : wOn.dev.hive.ready = false ∧ ({ wHive with hive := { wHive.hive with jobs := [wJob none none] } } : Dev).currentJob ≠ none ∧
    (wAsk wHive 0x0001 [1]).dev.hive.waiting.head? = some (wReq 0x0001 [1]) ∧ (wReq 0x0001 [1]).opcode.toNat ≠ 0x0000 ∧
    (wAsk wHive 0x0001 [1]).dev.Takes 0x0001 (wReq 0x0001 [1]) [] ∧ (checkParams (wReq 0x0001 [1]) 0 [] []).isSome = true := by
  unfold Dev.Takes; decide

theorem wit_System : (wAsk wHive 0x0000 []).dev.Takes 0x0000 (wReq 0x0000 []) [] ∧
    (wAsk wHive 0x0001 []).dev.Takes 0x0001 (wReq 0x0001 []) [] ∧
    (wAsk wHive 0x0003 [2, 0, 0, 0]).dev.Takes 0x0003 (wReq 0x0003 [2, 0, 0, 0]) [] ∧
    checkParams (wReq 0x0003 [2, 0, 0, 0]) 4 (zb [1, 2, 3]) [(0, 1, 1, 2)] = none := by unfold Dev.Takes; decide

theorem wit_Tickets :
    (wAsk (wTicket none) 0x0002 [5, 0, 0, 0]).dev.Takes 0x0002 (wReq 0x0002 [5, 0, 0, 0]) [] ∧
    (wTicket none).hive.jobs.find? (fun j => decide (j.ticket = some (BitVec.ofNat 32 ((wReq 0x0002 [6, 0, 0, 0]).u 4 0)))) = none ∧
    ((wTicket none).hive.jobs.find? (fun j => decide (j.ticket = some (BitVec.ofNat 32 ((wReq 0x0002 [5, 0, 0, 0]).u 4 0))))).isSome = true ∧
    ((wTicket (some (0, []))).hive.jobs.map (fun j => j.final)) = [some (0, [])] ∧ (wTicket none).Quiet ∧
    ((wTicket (some (0, []))).hive.jobs.map (fun j => j.ticket)) = [some 5] ∧ (wTicket none).ticketsFull = false ∧
    wFull.ticketsFull = true := by unfold Dev.Takes; decide

theorem wit_RegCommands :
    (wAsk wHive 0x0100 [0x10, 0, 2, 0, 1, 0, 0, 0]).dev.Takes 0x0100 (wReq 0x0100 [0x10, 0, 2, 0, 1, 0, 0, 0]) [] ∧
    checkParams (wReq 0x0100 [0x10, 0, 2, 0, 1, 0, 0, 0]) 8 (zb [7]) [] = none ∧ addressOk (wReq 0x0100 [0x10, 0, 2, 0, 1, 0, 0, 0]) = true ∧
    (wReq 0x0100 [0x10, 0, 2, 0, 1, 0, 0, 0]).u 2 4 = 1 ∧ (wReq 0x0100 [0x10, 0, 2, 0, 1, 0, 0, 0]).u 1 6 ≤ 1 ∧
    (wAsk wHive 0x0101 [0x10, 0, 2, 0, 1, 0, 1, 0, 5, 0, 0, 0]).dev.Takes 0x0101 (wReq 0x0101 [0x10, 0, 2, 0, 1, 0, 1, 0, 5, 0, 0, 0]) [] ∧
    checkParams (wReq 0x0101 [0x10, 0, 2, 0, 1, 0, 1, 0, 5, 0, 0, 0]) 12 (zb [7]) [] = none ∧
    (wAsk wHive 0x0102 [0x10, 0, 2, 0, 1, 0, 0, 0, 1, 0, 0, 0]).dev.Takes 0x0102 (wReq 0x0102 [0x10, 0, 2, 0, 1, 0, 0, 0, 1, 0, 0, 0]) [] ∧
    checkParams (wReq 0x0102 [0x10, 0, 2, 0, 1, 0, 0, 0, 1, 0, 0, 0]) 12 [] [] = none ∧
    (wAsk wHive 0x0100 []).dev.Takes 0x0100 (wReq 0x0100 []) [] ∧
    (checkParams (wReq 0x0100 [0x10, 0, 2, 0, 1, 0, 0, 1]) 8 (zb [7]) []).isSome = true ∧
    (wAsk wHive 0x0100 [0x11, 0, 2, 0, 0, 0, 2, 0]).dev.Takes 0x0100 (wReq 0x0100 [0x11, 0, 2, 0, 0, 0, 2, 0]) [] ∧
    addressOk (wReq 0x0100 [0x11, 0, 2, 0, 1, 0, 0, 0]) = false ∧ (wReq 0x0100 [0x10, 0, 2, 0, 0, 0, 2, 0]).u 2 4 = 0 ∧
    (wReq 0x0100 [0x10, 0, 2, 0, 1, 0, 2, 0]).u 1 6 = 2 ∧
    (wHive.busRead 0 0x020010 false).1.isSome = true ∧ (wHive.busRead 0 0x000044 false).1 = none ∧
    wHive.decodeSince (wHive.busWrite 0 0x020010 false 1) = false ∧ wHive.decodeSince (wHive.busWrite 0 0x000044 false 1) = true := by
  unfold Dev.Takes; decide

theorem wit_NvsQueries : (wAsk wNv 0x0200 []).dev.Takes 0x0200 (wReq 0x0200 []) [] ∧
    (wAsk wNv 0x0207 []).dev.Takes 0x0207 (wReq 0x0207 []) [] ∧ (wTaken wNv 0x0207 []).nvBusy = none ∧
    wDev.Quiet ∧ (1 : Word).getLsbD 0 = true := by unfold Dev.Takes; decide

theorem wit_NvsRead : (wAsk wNv 0x0201 wUser).dev.Takes 0x0201 (wReq 0x0201 wUser) [] ∧
    checkParams (wReq 0x0201 wUser) 12 (zb [1, 2, 3]) [(0, 1, 0, 6)] = none ∧
    rangeCheck ((wReq 0x0201 wUser).u 1 0) ((wReq 0x0201 wUser).u 4 4) ((wReq 0x0201 wUser).u 4 8) 16384 = none ∧
    replyFits (wReq 0x0201 wUser) (8 + (wReq 0x0201 wUser).u 4 8 + ((wReq 0x0201 wUser).u 4 8 + 63) / 64) = true ∧
    (wTaken wNv 0x0201 wUser).readDenied 4 = none ∧
    (wTaken wNv 0x0201 wUser).nvBusy = none ∧
    (wTaken wNv 0x0201 wUser).unfinishedIn (partWords 4 0 32) = none := by unfold Dev.Takes; decide

theorem wit_NvsDigest : (wAsk wNv 0x0206 wUser).dev.Takes 0x0206 (wReq 0x0206 wUser) [] ∧
    rangeCheck 4 0 32 (partCount 4 * sectorBytes) = none ∧ (wReq 0x0206 wUser).u 1 0 < 5 ∧
    (wTaken wNv 0x0206 wUser).inRetired = false ∧
    (wTaken wNv 0x0206 wUser).nvBusy = none := by unfold Dev.Takes; decide

theorem wit_NvsProgram : (wAsk wNv 0x0202 wProg).dev.Takes 0x0202 (wReq 0x0202 wProg) [] ∧ (wReq 0x0202 wProg).len = 40 ∧
    checkParams (wReq 0x0202 wProg) 40 (zb [1, 2, 3]) [(0, 1, 0, 6)] = none ∧ rangeCheck 4 0 32 16384 = none ∧
    (0 : Nat) / sectorBytes = (0 + 32 - 1) / sectorBytes ∧
    (wTaken wNv 0x0202 wProg).writeDenied 4 = none ∧
    (wTaken wNv 0x0202 wProg).nvBusy = none ∧
    (wTaken wNv 0x0202 wProg).nvHold = false ∧
    (wTaken wNv 0x0202 wProg).unfinishedIn (partWords 4 0 32) = none ∧
    (wTaken wNv 0x0202 wProg).store.firstUsed 2688 (wordsOfData 0 (zeros 32)) = none ∧
    (wTaken wNv 0x0202 wProg).ticketsFull = false ∧
    (wTaken wNv 0x0202 wProg).planeCode (wNv.store.phys 2688 % 16) = 0 ∧
    (wTaken wNvUsed 0x0202 wProg).store.firstUsed 2688 (wordsOfData 0 (zeros 32)) = some 0 := by unfold Dev.Takes; decide

theorem wit_NvsErase : (wAsk wNv 0x0203 [4, 0, 1, 0, 0, 0, 0, 0]).dev.Takes 0x0203 (wReq 0x0203 [4, 0, 1, 0, 0, 0, 0, 0]) [] ∧
    checkParams (wReq 0x0203 [4, 0, 1, 0, 0, 0, 0, 0]) 8 (zb [1]) [(0, 1, 0, 6), (2, 2, 1, 256)] = none ∧
    0 + 1 ≤ partCount 4 ∧ (wTaken wNv 0x0203 [4, 0, 1, 0, 0, 0, 0, 0]).protectedSlot 4 = false ∧
    (wTaken wNv 0x0203 [4, 0, 1, 0, 0, 0, 0, 0]).writeDenied 4 = none ∧ (wTaken wNv 0x0203 [4, 0, 1, 0, 0, 0, 0, 0]).nvBusy = none ∧
    (wTaken wNv 0x0203 [4, 0, 1, 0, 0, 0, 0, 0]).ticketsFull = false := by
  unfold Dev.Takes; decide

theorem wit_NvsSuspend : checkParams (wReq 0x0204 [4, 0, 0, 0, 0, 0, 0, 0]) 8 (zb [1, 2, 3]) [(0, 1, 0, 6), (4, 4, 0, partCount 4 - 1)] = none ∧
    (wAsk wNvErasing 0x0204 [4, 0, 0, 0, 0, 0, 0, 0]).dev.Takes 0x0204 (wReq 0x0204 [4, 0, 0, 0, 0, 0, 0, 0]) [] ∧
    (wAsk wNvErasing 0x0205 [4, 0, 0, 0, 0, 0, 0, 0]).dev.Takes 0x0205 (wReq 0x0205 [4, 0, 0, 0, 0, 0, 0, 0]) [] ∧
    (wTaken wNvErasing 0x0204 [4, 0, 0, 0, 0, 0, 0, 0]).nvBusy = none ∧
    (wTaken wNvErasing 0x0204 [4, 0, 0, 0, 0, 0, 0, 0]).planeCode (wNvErasing.store.phys 2688 % 16) = 2 := by unfold Dev.Takes; decide

theorem wit_NvsDone : wNvErasing.nvAwake = true ∧ (wNvErasing.nvPlane (wNvErasing.store.phys 2688 % 16)).code = 2 ∧
    wNvProg.nvAwake = true ∧ (wNvProg.nvPlane 0).op = some (.program 2688 0 [(0, 5)]) ∧ (wNvProg.nvPlane 0).inner = none ∧
    (wNvProg.nvPlane 0).queue = [] ∧ (wNvProg.nvPlane 0).innerQueue = [] ∧ ([((0 : Nat), (5 : BitVec 256))].map Prod.fst).Nodup := by
  decide

theorem wit_NvsMoves : wNv.Quiet ∧ (wNvMove MoveStep.none).moveReady = true ∧ 0 < (wNvMove MoveStep.none).store.movesDue ∧
    (wNvMove MoveStep.none).store.refresh ≠ [] ∧ wDev.moveReady = false ∧ (wNvMove (.copying false)).store.move = .copying false ∧
    (wNvMove (.copying false)).nvAwake = true ∧ (wNvMove (.copying false)).nvHold = false ∧ (wNvMove (.copying false)).nvReady = true ∧
    ((wNvMove (.copying false)).nvPlane ((wNvMove (.copying false)).store.physAt (wNvMove (.copying false)).store.gap % 16)).code = 0 := by
  decide

theorem wit_NvsPatrol : (wNvMove MoveStep.none).store.extraPass = some 3071 ∧ (wNv.setReg nvsStatus 0x40000000).rbit nvsStatus 30 = true ∧
    (wNv.setReg nvsStatus 0x40000000).nvAwake = true ∧ (wNv.setReg nvsStatus 0x40000000).nvHold = false ∧ wNv.hive.jobs = [] := by decide

theorem wit_UserRead : takeMessage 7 ((wEp48 wUserReq).rxCells 48) = some ([wMsg wUserReq], []) ∧
    [wMsg wUserReq].any (fun c => c.err) = false ∧ getLE 1 (messageBytes [wMsg wUserReq]) 0 = 2 ∧
    userReason (messageBytes [wMsg wUserReq]) = 0 ∧ wNv.nvReady = true ∧ wNv.nvHalt = false ∧
    (partWords 4 0 32).any (fun w => wNv.unfinished w.1) = false ∧
    getLE 1 (messageBytes [wMsg [3]]) 0 = 3 ∧ getLE 1 (messageBytes [wMsg [4, 0, 1, 0]]) 0 = 4 ∧ getLE 2 (messageBytes [wMsg [4, 0, 1, 0]]) 2 ≠ 0 ∧
    getLE 2 (messageBytes [wMsg [4, 0, 0, 0]]) 2 = 0 ∧ userReason (messageBytes [wMsg [2, 0, 0, 0]]) ≠ 0 ∧
    4 < getLE 1 (messageBytes [wMsg [9]]) 0 := by decide

theorem wit_StreamOpen : (wAsk wNv 0x0301 [0, 0, 0, 0, 96, 0, 0, 0]).dev.Takes 0x0301 (wReq 0x0301 [0, 0, 0, 0, 96, 0, 0, 0]) [] ∧
    checkParams (wReq 0x0301 [31, 0, 0, 0, 96, 0, 0, 0]) 8 (zb [1, 2, 3]) [] = none ∧
    (wAsk wNv 0x0301 [31, 0, 0, 0, 96, 0, 0, 0]).dev.Takes 0x0301 (wReq 0x0301 [31, 0, 0, 0, 96, 0, 0, 0]) [] ∧
    checkParams (wReq 0x0301 [0, 0, 0, 0, 96, 0, 0, 0]) 8 (zb [1, 2, 3]) [] = none ∧
    targetOf 0 = some (.direct false) ∧ targetOf 31 = some (.lib 15) ∧ targetOf 32 = none ∧
    (wTaken wNv 0x0301 [31, 0, 0, 0, 96, 0, 0, 0]).cfgDenied = none ∧ (wTaken wNv 0x0301 [31, 0, 0, 0, 96, 0, 0, 0]).loading = false ∧
    (wReq 0x0301 [31, 0, 0, 0, 96, 0, 0, 0]).u 4 4 = 96 ∧ 96 ≤ targetSize (.lib 15) ∧ targetSize (.lib 15) < 0x300001 ∧
    (wTaken wNv 0x0301 [31, 0, 0, 0, 96, 0, 0, 0]).nvBusy = none ∧ (wTaken wNv 0x0301 [31, 0, 0, 0, 96, 0, 0, 0]).ticketsFull = false ∧
    (wTaken wNv 0x0301 [31, 0, 0, 0, 96, 0, 0, 0]).protectedSlot 3 = false ∧
    (wTaken wDeployed 0x0301 [3, 0, 0, 0, 96, 0, 0, 0]).protectedSlot 0 = true ∧
    (wTaken (wStream (.slot 0)) 0x0301 [0, 0, 0, 0, 96, 0, 0, 0]).loading = true := by
  unfold Dev.Takes; decide

theorem wit_StreamData : (wAsk (wStream (.slot 0)) 0x0302 (zeros 6)).dev.Takes 0x0302 (wReq 0x0302 (zeros 6)) [] ∧
    5 ≤ (wReq 0x0302 (zeros 6)).len ∧ (wReq 0x0302 (zeros 6)).len ≤ 16388 ∧ (wReq 0x0302 (zeros 4)).len < 5 ∧
    (wTaken (wStream (.slot 0)) 0x0302 (zeros 6)).cfgDenied = none ∧
    (wTaken (wStream (.slot 0)) 0x0302 (zeros 6)).hiveSession = some (wSession (.slot 0)) ∧
    (wTaken (wStream (.slot 0)) 0x0302 (zeros 6)).sessionErasing = false ∧ (wReq 0x0302 (zeros 6)).u 4 0 = (wSession (.slot 0)).bytes.length ∧
    (wReq 0x0302 (1 :: zeros 5)).u 4 0 ≠ (wSession (.slot 0)).bytes.length ∧
    (wSession (.slot 0)).bytes.length + ((wReq 0x0302 (zeros 6)).params.drop 4).length ≤ (wSession (.slot 0)).length ∧
    (wTaken (wStream (.slot 0)) 0x0302 (zeros 6)).nvHold = false ∧ isDirect (.slot 0) = false ∧ isDirect (.direct false) = true ∧
    ((wTaken (wStream (.direct false)) 0x0302 (zeros 6)).directRun { wSession (.direct false) with bytes := zeros 2 } false).2 = .goes ∧
    ((wTaken (wStream (.direct false)) 0x0302 (zeros 10)).directRun { wSession (.direct false) with bytes := zeros 6 } false).2 =
      .refused stBadParam := by
  unfold Dev.Takes; decide

theorem wit_StreamClose : (wAsk (wStream (.slot 0)) 0x0303 []).dev.Takes 0x0303 (wReq 0x0303 []) [] ∧
    (wAsk (wStream (.slot 0)) 0x0304 []).dev.Takes 0x0304 (wReq 0x0304 []) [] ∧ (wStream (.slot 0)).adm.loadWaits = none ∧
    (wStream (.slot 0)).stagePending = false ∧
    (wTaken (wStream (.slot 0)) 0x0303 []).cfgDenied = none ∧ (wTaken (wStream (.slot 0)) 0x0303 []).sessionErasing = false ∧
    (wTaken (wStream (.slot 0)) 0x0303 []).hiveSession = some (wSession (.slot 0)) ∧
    (wSession (.slot 0)).bytes.length < (wSession (.slot 0)).length ∧ (wSession (.slot 0)).load.finished = false ∧
    (wTaken wNv 0x0304 []).hiveSession = none ∧ wNv.sessionErasing = false ∧ (wStream (.slot 0)).cfg.session = some (wSession (.slot 0)) ∧
    ({ wNv with adm := { wNv.adm with loadWaits := some [] } } : Dev).adm.loadWaits ≠ none := by unfold Dev.Takes; decide

theorem wit_CfgLoad : wCfgLoad.jtag.ir = irCfgLoad ∧ wCfgLoad.power.por = false ∧ wCfgLoad.power.resetN = false ∧
    wCfgLoad.inRetired = false ∧ wCfgLoad.cfg.session = none ∧ wCfgLoad.adm.loadWaits = none ∧ wDev.jtag.ir ≠ irCfgLoad ∧
    (wSession (.slot 0)).target ≠ .direct true := by decide

theorem wit_CfgInfo : (wAsk wNv 0x0300 []).dev.Takes 0x0300 (wReq 0x0300 []) [] ∧ (wTaken wNv 0x0300 []).inRetired = false := by
  unfold Dev.Takes; decide

theorem wit_CfgCommit : (wAsk (wLib 1) 0x0305 [1, 1, 0, 0]).dev.Takes 0x0305 (wReq 0x0305 [1, 1, 0, 0]) [] ∧
    checkParams (wReq 0x0305 [1, 1, 0, 0]) 4 [(1, 0xFE), (2, 0xFF), (3, 0xFF)] [(0, 1, 0, 1)] = none ∧
    (wTaken (wLib 1) 0x0305 [1, 1, 0, 0]).inRetired = false ∧ (wTaken (wLib 1) 0x0305 [1, 1, 0, 0]).dirValid 1 = true ∧
    (wTaken (wLib 1) 0x0305 [1, 1, 0, 0]).nvBusy = none := by unfold Dev.Takes; decide

theorem wit_RegionLoad : (wTaken (wLib 16) 0x0306 [0]).loading = false ∧ (wAsk (wLib 16) 0x0306 [0]).dev.Takes 0x0306 (wReq 0x0306 [0]) [] ∧
    checkParams (wReq 0x0306 [0]) 1 [] [(0, 1, 0, 15)] = none ∧ (wTaken (wLib 16) 0x0306 [0]).inRetired = false ∧
    (wTaken (wLib 16) 0x0306 [0]).rbit pwrStatus 31 = false ∧ (wTaken (wLib 16) 0x0306 [0]).cfg.session = none ∧
    (wTaken (wLib 16) 0x0306 [0]).dirValid 16 = true ∧
    (wTaken (wLib 16) 0x0306 [0]).testing [bits ((wTaken (wLib 16) 0x0306 [0]).dirOf 16).1 16 4] = false ∧
    (wTaken (wLib 16) 0x0306 [0]).nvBusy = none := by unfold Dev.Takes; decide

theorem wit_RegionFreezeAgain : checkParams (wReq 0x0307 [11]) 1 [] [(0, 1, 0, 11)] = none ∧
    (wAsk wNv 0x0307 [11]).dev.Takes 0x0307 (wReq 0x0307 [11]) [] ∧ (wAsk wNv 0x0308 [11]).dev.Takes 0x0308 (wReq 0x0308 [11]) [] ∧
    (wTaken wNv 0x0308 [11]).rbit pwrStatus 31 = false ∧
    (wTaken (wNv.setReg pwrStatus 0x80000000) 0x0308 [11]).rbit pwrStatus 31 = true := by unfold Dev.Takes; decide

theorem wit_LibErase : (wAsk wNv 0x0309 [15]).dev.Takes 0x0309 (wReq 0x0309 [15]) [] ∧
    checkParams (wReq 0x0309 [15]) 1 [] [(0, 1, 0, 15)] = none ∧ (wTaken wNv 0x0309 [15]).inRetired = false ∧
    (wTaken wNv 0x0309 [15]).cfg.session = none ∧ (wTaken wNv 0x0309 [15]).nvBusy = none ∧
    (wTaken wNv 0x0309 [15]).ticketsFull = false := by unfold Dev.Takes; decide

theorem wit_Readback : (wAsk wNv 0x030A [0, 0, 0, 0, 2, 0]).dev.Takes 0x030A (wReq 0x030A [0, 0, 0, 0, 2, 0]) [] ∧
    checkParams (wReq 0x030A [0, 0, 0, 0, 2, 0]) 6 (zb [3]) [(4, 2, 1, 64)] = none ∧
    (frameRun 2 0).all (fun a => isLogicFrame a || isChipFrame a) = true ∧ replyFits (wReq 0x030A [0, 0, 0, 0, 2, 0]) (260 * (frameRun 2 0).length) = true ∧
    (wTaken wNv 0x030A [0, 0, 0, 0, 2, 0]).served 0 = true ∧ (wTaken wNv 0x030A [0, 0, 0, 0, 2, 0]).cfg.session = none := by
  unfold Dev.Takes; decide

theorem wit_Chain : (wChain false).fld cfgBoot 16 3 = 2 ∧ (wChain false).power.por = false ∧ (wChain false).power.resetN = false ∧
    sfdpTable [] = none ∧ sfdpTable ([0x53, 0x46, 0x44, 0x50, 0, 1, 0, 0, 0, 0, 1, 9, 16, 0, 0, 0xFF] ++ zeros 36) ≠ none ∧
    (wChain false).cfg.chainOpen = false ∧ (wChain true).cfg.chainOpen = true ∧ (wChain true).cfg.chainEnded = false ∧
    (wChain true).power.por = false ∧ (wChain true).power.resetN = false ∧ 16 ≤ wSeg.length ∧ segOk wSeg = true ∧ 1 ≤ segPos wSeg ∧
    segOk (zeros 16) = false ∧ (wChain true).cfg.chainWanted = false ∧ segPos (zeros 16) = 0 := by decide

theorem wit_Scrub : wDev.cfg.chip = [] ∧ (wDev.setReg (rgnStatus 11) 0x100).imageValid 11 = true ∧ wDev.imageValid 11 = false ∧
    ({ wDev with cfg := { wDev.cfg with chip := zeros 1 } } : Dev).cfg.chip ≠ [] := by decide

theorem wit_LoadFirst :
    (wAsk { wHive with adm := { wHive.adm with loadWaits := some [] } } 0x0402 [5, 0]).dev.adm.loadBehind = false ∧
    (wAsk { wHive with adm := { wHive.adm with loadWaits := some [] } } 0x0402 [5, 0]).dev.engineNext = true := by decide

theorem wit_AdmissionRequests : (wAsk wHive 0x0400 wAdmit).dev.Takes 0x0400 (wReq 0x0400 wAdmit) [] ∧
    (wAsk wHive 0x0400 wAdmit).dev.requestWaits = false ∧ wHive.adm.loadWaits = none ∧
    (wAsk { wHive with adm := { wHive.adm with loadWaits := some [], loadBehind := true } } 0x0400 wAdmit).dev.adm.loadBehind = true ∧
    checkParams (wReq 0x0402 []) 4 (zb [2, 3]) [(0, 2, 0, 4095)] = some (ansBad detLength) ∧
    (wReq 0x0400 wAdmit).params.length = 32 ∧
    (wAsk wHive 0x0401 [5, 0, 0, 0]).dev.Takes 0x0401 (wReq 0x0401 [5, 0, 0, 0]) [] ∧
    checkParams (wReq 0x0401 [5, 0, 0, 0]) 4 (zb [2, 3]) [(0, 2, 0, 4095)] = none ∧
    (wAsk wHive 0x0402 [5, 0]).dev.Takes 0x0402 (wReq 0x0402 [5, 0]) [] ∧ checkParams (wReq 0x0402 [5, 0]) 2 [] [(0, 2, 0, 4095)] = none ∧
    (wAsk wHive 0x0403 [51, 0, 0, 0]).dev.Takes 0x0403 (wReq 0x0403 [51, 0, 0, 0]) [] ∧
    checkParams (wReq 0x0403 [51, 0, 0, 0]) 4 (zb [1, 2, 3]) [(0, 1, 0, 51)] = none ∧
    (wAsk wHive 0x0404 [5, 11, 0, 0]).dev.Takes 0x0404 (wReq 0x0404 [5, 11, 0, 0]) [] ∧
    checkParams (wReq 0x0404 [5, 11, 0, 0]) 4 (zb [2, 3]) [(0, 1, 0, 5)] = none := by unfold Dev.Takes; decide

theorem wit_AdmissionChecks : (wHive.copiedAll.checkAdmit 5 (flowOfBytes wAdmit) (reservedSet wAdmit)).status = stOk ∧
    (flowOfBytes wAdmit).n = 0 ∧ (wHive.copiedAll.checkAdmit 0 (flowOfBytes wAdmit) (reservedSet wAdmit)).status ≠ stOk ∧
    ((wFlow .live 0).copiedAll.flow 5).state = .live ∧ ((wFlow .live 0).copiedAll.flow 5).n = 0 ∧
    ((wFlow .live 2).copiedAll.flow 5).state = .live ∧ ((wFlow .live 2).copiedAll.flow 5).n ≠ 0 ∧
    ((wFlow .pending 2).copiedAll.flow 5).state = .pending ∧ (wHive.copiedAll.flow 5).state = .free := by decide

theorem wit_AdmissionWindow : (wAsk (wShut wHive) 0x0403 [51, 0, 0, 0]).dev.Takes 0x0403 (wReq 0x0403 [51, 0, 0, 0]) [] ∧
    (wAsk (wShut wHive) 0x0403 [51, 0, 0, 0]).dev.requestWaits = true ∧
    (wHive.copiedAll.pair 5).declared = false ∧ wHive.copiedAll.shedHold = false ∧
    (wHive.setReg pwrStatus 1).copiedAll.shedHold = true := by
  unfold Dev.Takes; decide

theorem wit_Drains : (wFlow .live 2).stagingShut = false ∧ ((wFlow .live 2).flow 5).state ≠ .draining ∧ (wDev.pair 5).step ≠ 2 ∧
    ((wFlow .draining 2).flow 5).state = .draining ∧ ((wFlow .draining 2).flow 5).slotsOut = false ∧
    (wFlow .draining 2).cellsLeft 5 (fun _ => true) = false ∧ (wFlow .draining 2).stagingShut = false ∧
    (wDev.setPair 5 { PairState.none with step := 2 }).pair 5 = { PairState.none with step := 2 } ∧
    (wDev.setPair 5 { PairState.none with step := 2 }).stagingShut = false := by decide

theorem wit_Suspension : wDev.epCauses 48 = 0 ∧ ({ wDev with hive := { wDev.hive with held := true } } : Dev).suspendedEp 48 = false ∧
    ({ wDev with hive := { wDev.hive with held := true } } : Dev).epCauses 48 ≠ 0 ∧
    ({ wDev with adm := { wDev.adm with suspended := 0xFFFFFFFFFFFFF } } : Dev).suspendedEp 0 = true ∧
    ({ wDev with adm := { wDev.adm with suspended := 0xFFFFFFFFFFFFF } } : Dev).epCauses 0 = 0 ∧ wDev.Quiet := by decide

theorem wit_TxCell : wHive.epAwake 51 = true ∧ (wHive.ing 51).queue.length < 32 ∧
    wHive.framing 51 5 = Framing.closed ∧ wHive.classOk 51 3 = true ∧
    32 ≤ ((wDev.setIng 51 { Ingress.empty with queue := List.replicate 32 (wCell 5 []) }).ing 51).queue.length := by decide

theorem wit_IngressHead : ((wHead 1 1).ing 16).queue = [wCell 5 []] ∧ (wCell 5 []).flow.toNat ≠ 0 ∧
    ((wHead 1 1).flow 5).openAt 16 = true ∧ ((wHead 1 1).flow 5).judged = true ∧ ((wHead 1 1).flow 5).tokens ≠ 0 ∧
    ((wHead 1 1).flow 5).credits ≠ 0 ∧ ((wHead 0 1).flow 5).tokens = 0 ∧ ((wHead 1 0).flow 5).credits = 0 ∧
    ((wHead 0 1).flow 5).openAt 16 = true ∧ ((wHead 0 1).flow 5).judged = true ∧
    ((wDev.setIng 16 { Ingress.empty with queue := [wCell 5 []] }).flow 5).openAt 16 = false := by decide

theorem wit_Slots : wDev.fab.slotSet = false ∧ wDev.adm.loadWaits = none ∧ wDev.adm.handed = none ∧ ({ wDev with fab := { wDev.fab with slotSet := true, begun := true } } : Dev).fab.slotSet = true ∧
    ({ wDev with fab := { wDev.fab with slotSet := true, begun := true } } : Dev).boundaryDue = false := by decide

theorem wit_Arrival : wFlight.fab.flight.find? (fun x => decide (x.cell.dest.toNat = 51)) =
      some { cell := wCell 5 [], ingress := 16, seq := some 3, second := false, planes := [0, 1, 2, 3], mirror := none } ∧
    wFlight.suspendedEp 51 = false ∧ (wFlight.flow 5).skipToSom = false ∧ wDev.fab.flight = [] ∧ wDev.fab.acks = [] ∧
    wFlight.fab.acks.find? (fun a => decide (a.ingress = 16)) = some { ingress := 16, num := 1, good := true } ∧
    wFlight.Quiet ∧ 5 ∈ wFlight.fab.credits ∧ 5 ∉ wDev.fab.credits := by decide

/-- The crossing of the cell of `wFlight`, with every bit right and with one wrong. -/
theorem wit_Crossing : (Flight.cross
      { cell := wCell 5 [], ingress := 16, seq := some 3, second := false, planes := [0, 1, 2, 3], mirror := none } []).good = true ∧
    (Flight.cross { cell := wCell 5 [], ingress := 16, seq := some 3, second := false, planes := [0, 1, 2, 3], mirror := none }
      [(2, 7)]).good = false := by decide

theorem wit_Handover : wDev.portMessage 0 5 = none ∧ wDev.nextCell 51 5 true = none ∧ ({ wDev with hive := { wDev.hive with held := true } } : Dev).epCauses 48 ≠ 0 ∧ wPool.epCauses 51 = 0 ∧
    isLaneEp 51 = false ∧ isGatewayEp 51 = false ∧
    wPool.nextCell 51 5 true = some { cell := wCell 5 [], missed := false, payloadOk := true } ∧
    isLaneEp 0 = true ∧ wPool.epCauses 0 = 0 ∧ wPool.portMessage 0 5 = some [{ cell := wCell 5 [], missed := false, payloadOk := true }] := by
  decide

theorem wit_FabRegisters : wDev.Quiet ∧ (0x80000005 : Word).getLsbD 31 = true ∧ (1 : Word).getLsbD 0 = true ∧
    wDev.rbit (clsCmd 15) 31 = false ∧ (wDev.setReg (clsCmd 15) 0x81FFFFFF).rbit (clsCmd 15) 31 = true ∧
    (wDev.setReg (clsCmd 15) 0x81FFFFFF).fld (clsCmd 15) 24 2 = 1 ∧ (wDev.setReg (clsCmd 15) 0x81FFFFFF).clsDup 15 0xFFF = false := by decide

theorem wit_Gateway : wGate.gateReady (classKey 0 2) 9 = some ([wBankMsg 1], []) ∧
    getLE 1 (messageBytes [wBankMsg 1]) 0 = 1 ∧ getLE 1 (messageBytes [wBankMsg 2]) 0 = 2 ∧
    getLE 1 (messageBytes [wBankMsg 4]) 0 = 4 ∧ wGate.mayExecute (classKey 0 2) 9 = true ∧
    (wGateOf 2).mayExecute (classKey 0 2) 9 = true ∧ (wGateOf 4).mayExecute (classKey 0 2) 9 = true ∧
    (wGate.setBankPort 0 { BankPort.idle with second := true }).mayExecute (classKey 0 2) 9 = false := by decide

theorem wit_GatewayOther : (wGateOf 2).gateReady (classKey 0 2) 9 = some ([wBankMsg 2], []) ∧
    (wGateOf 4).gateReady (classKey 0 2) 9 = some ([wBankMsg 4], []) := by decide

theorem wit_Port : wDev.portBank 0 = some 0 ∧ wDev.march? 0 = none ∧ wWipingBank.bankWiping 0 = true ∧ wDev.bankWiping 0 = false ∧ wMarch.bankWiping 16 = false ∧
    (wMarch.march? 16).isSome = true ∧ wGate.bankWiping 0 = false ∧ wDev.portBank 16 = none ∧ wDev.bankWiping 16 = false ∧
    wDev.march? 16 = none ∧
    wGate.readyIn 0 1 = [] ∧ (wGate.bankPort 0).copyWait < 256 ∧ wGate.dataFirst 0 0 = some (16, 9) ∧ wGate.portBank 0 = some 0 ∧
    wGate.march? 0 = none ∧ wGateCpu.bankWiping 0 = false ∧ 3 ≤ (wGateCpu.bankPort 0).sinceCpu ∧
    wGateCpu.readyIn 0 1 = [(16, 9)] ∧ wGateCpu.portBank 0 = some 0 ∧ wGateCpu.march? 0 = none := by decide

theorem wit_HandoverAgain : wDev.Quiet ∧ ownerOk ((0x3F : Word).toNat % 64) = true ∧
    (wDev.reg (bankOwner 0)).getLsbD 31 = false ∧
    ((wDev.setReg (bankOwner 0) 0x8000103F).reg (bankOwner 0)).getLsbD 31 = true ∧
    (∀ c, c ∈ [1, 2, 3] → (wDev.setReg (bankOwner 0) 0x8000103F).bankQ (0 * 4 + c) = []) ∧
    (wDev.setReg (bankOwner 0) 0x8000103F).rbit (bankCtrl 0) 31 = false ∧ (wDev.setReg (bankOwner 0) 0x8000103F).rbit (bankCtrl 0) 1 = false ∧
    (wDev.setReg (bankCtrl 0) 2).rbit (bankCtrl 0) 1 = true ∧ wDev.bankDown (wDev.physOf 0) = false ∧ ownerOk 40 = false ∧
    wSecure.portIdle 1 = false ∧ wSecure.ownsBank 1 1 = false := by decide

theorem wit_Secure : wSecure.Quiet ∧ wSecure.ownsBank 1 0 = true ∧
    wSecure.secureMaster (wSecure.fld (bankOwner 0) 0 6) = true ∧ wSecure.rbit pwrStatus 2 = false ∧
    wSecure.bankDown (wSecure.physOf 0) = false ∧ wWipingBank.Quiet ∧
    (wWipingBank.reg (bankCtrl 0)).getLsbD 31 = true := by decide

theorem wit_TestGo : wDev.served 1 = true ∧ wDev.marchBusy 16 = 0 ∧ wMarch.served 1 = true ∧ wMarch.marchBusy 16 ≠ 0 ∧
    wDeployed.served 1 = false ∧ wDev.Quiet ∧ wMarch.Quiet ∧ wDeployed.Quiet := by decide

theorem wit_MarchDone : wMarch.march? 16 = some { checker := false, preserving := true, cause := .command, stopped := false } ∧
    wMarch.rbit pwrStatus 2 = false := by decide

theorem wit_Copied : (wRemap 0x41000003).fld bankRemap 8 17 = 65536 ∧ (wRemap 0x41000003).remapState = 1 ∧
    (wRemap 0xC1000003).fld bankRemap 8 17 = 65536 ∧ (wRemap 0xC1000003).remapState = 3 := by decide

theorem wit_BankInfo : (wAsk wHive 0x0500 []).dev.Takes 0x0500 (wReq 0x0500 []) [] ∧
    checkParams (wReq 0x0500 []) 0 [] [] = none ∧ (wTaken wHive 0x0500 []).inRetired = false := by unfold Dev.Takes; decide

theorem wit_BankOwnerSet : (wAsk wHive 0x0501 [15, 16, 0, 0]).dev.Takes 0x0501 (wReq 0x0501 [15, 16, 0, 0]) [] ∧
    checkParams (wReq 0x0501 [15, 16, 0, 0]) 4 (zb [2, 3]) [(0, 1, 0, 15)] = none ∧
    ownerOk ((wReq 0x0501 [15, 16, 0, 0]).u 1 1) = true ∧ (wTaken wHive 0x0501 [15, 16, 0, 0]).inRetired = false ∧ (wTaken wHive 0x0501 [15, 16, 0, 0]).ticketsFull = false ∧
    (wTaken wHive 0x0501 [15, 16, 0, 0]).rbit (bankOwner 15) 31 = false := by unfold Dev.Takes; decide

theorem wit_BankGuest : (wAsk wHive 0x0502 (15 :: zeros 11)).dev.Takes 0x0502 (wReq 0x0502 (15 :: zeros 11)) [] ∧
    checkParams (wReq 0x0502 (15 :: zeros 11)) 12 (zb [1, 2, 3] ++ [(7, 0xF0), (11, 0xF0)]) [(0, 1, 0, 15)] = none ∧
    (wTaken wHive 0x0502 (15 :: zeros 11)).inRetired = false ∧
    (wAsk wHive 0x0503 [15, 1, 0, 0]).dev.Takes 0x0503 (wReq 0x0503 [15, 1, 0, 0]) [] ∧
    checkParams (wReq 0x0503 [15, 1, 0, 0]) 4 (zb [2, 3]) [(0, 1, 0, 15), (1, 1, 0, 1)] = none ∧
    (wTaken wHive 0x0503 [15, 1, 0, 0]).inRetired = false ∧ (wTaken wHive 0x0503 [15, 1, 0, 0]).rbit pwrStatus 2 = false := by
  unfold Dev.Takes; decide

theorem wit_BankMarch : (wAsk wHive 0x0504 [16, 1, 0, 0]).dev.Takes 0x0504 (wReq 0x0504 [16, 1, 0, 0]) [] ∧
    checkParams (wReq 0x0504 [16, 1, 0, 0]) 4 (zb [3]) [(0, 1, 0, 16), (1, 1, 0, 1), (2, 1, 0, 1)] = none ∧
    (wTaken wHive 0x0504 [16, 1, 0, 0]).served 1 = true ∧ (wTaken wHive 0x0504 [16, 1, 0, 0]).ticketsFull = false ∧
    (wTaken wHive 0x0504 [16, 1, 0, 0]).marchBusy 16 = 0 ∧
    (wTaken (wHive.setReg bankShed 0x10000) 0x0504 [16, 1, 0, 0]).marchBusy 16 = 2 := by unfold Dev.Takes; decide

theorem wit_BankMigrate : (wAsk wGood16 0x0505 [3, 0, 0, 0]).dev.Takes 0x0505 (wReq 0x0505 [3, 0, 0, 0]) [] ∧
    checkParams (wReq 0x0505 [3, 0, 0, 0]) 4 (zb [1, 2, 3]) [(0, 1, 0, 15)] = none ∧
    (wTaken wGood16 0x0505 [3, 0, 0, 0]).inRetired = false ∧ (wTaken wGood16 0x0505 [3, 0, 0, 0]).ticketsFull = false ∧
    (wTaken wGood16 0x0505 [3, 0, 0, 0]).remapState = 0 ∧ (wTaken wGood16 0x0505 [3, 0, 0, 0]).march? 16 = none ∧
    (wTaken wGood16 0x0505 [3, 0, 0, 0]).march? 3 = none ∧ (wTaken wGood16 0x0505 [3, 0, 0, 0]).marchGood 16 = true := by
  unfold Dev.Takes; decide

theorem wit_BankUndo : (wAsk wUndo 0x0506 [3, 0, 0, 0]).dev.Takes 0x0506 (wReq 0x0506 [3, 0, 0, 0]) [] ∧
    (wTaken wUndo 0x0506 [3, 0, 0, 0]).inRetired = false ∧ (wTaken wUndo 0x0506 [3, 0, 0, 0]).ticketsFull = false ∧
    (wTaken wUndo 0x0506 [3, 0, 0, 0]).remapState = 2 ∧ (wTaken wUndo 0x0506 [3, 0, 0, 0]).remapTarget = 3 ∧
    (wTaken wUndo 0x0506 [3, 0, 0, 0]).bank.retested = true ∧
    (wTaken wUndo 0x0506 [3, 0, 0, 0]).fld (bankTestStatus 3) 0 3 = resPass := by unfold Dev.Takes; decide

theorem wit_SdsCfg : (1 : Fin 13) ≠ 0 ∧ wDev.Quiet ∧ bits (0x84000000 : Word) 24 4 ≤ 4 ∧ wDev.laneReset 15 = true ∧
    4 < bits (0x85000000 : Word) 24 4 ∧ (wLane 3 0).laneReset 15 = false ∧
    (0x84000000 : Word) &&& 0x8F300000 ≠ (wLane 3 0).reg (sdsCfg 15) ∧
    (1 : Word) &&& 0xFFFFFF ≠ (wLane 3 0).reg (sdsRate 15) := by decide

theorem wit_SdsPorts : wBram.portIdle 1 = false ∧ (1 : Fin 13) ≠ 0 ∧ wDev.portIdle 2 = true ∧ bits (0 : Word) 24 4 = 0 ∧
    (1 : Word) &&& 0xFFFFFF = 1 ∧ wDev.laneReset 3 = true ∧ 4 < bits (0x50000000 : Word) 28 3 := by decide

theorem wit_SdsCtrl : bits (0x00000006 : Word) 28 3 ≤ 4 ∧ (6 : Word).getLsbD 1 = true ∧ (4 : Word).getLsbD 1 = false ∧
    wDev.rbit (sdsCtrl 15) 1 = false ∧ wDev.lanePermit 15 = false ∧ wDev.inRetired = false ∧ wDev.fld pwrStatus 28 3 < 2 ∧
    bits (6 : Word) 28 3 = 0 := by decide

theorem wit_SdsCtrlForms : (wLane 3 0).rbit (sdsCtrl 15) 2 = true ∧ (0x80000003 : Word).getLsbD 2 = false ∧
    (0x80000003 : Word).getLsbD 0 = true ∧ (0x80000003 : Word).getLsbD 31 = true ∧ (wLane 3 0).lanePermit 15 = false ∧
    (wLane 3 0).rbit (sdsCtrl 15) 1 = true := by decide

theorem wit_BringUp : (wLane 3 0).Quiet ∧ (wLane 3 0).laneMode 15 ≠ 0 ∧ (wLane 3 0).laneReset 15 = false ∧
    (wLane 3 0).rbit (sdsCtrl 15) 1 = true ∧ (wLane 3 0).rbit (sdsCtrl 15) 2 = true ∧
    (wLane 3 0x54000000).laneMode 15 = 3 ∧ (wLane 3 0x54000000).rbit (sdsStatus 15) 28 = true ∧
    (wLane 3 0x54000000).laneTest 15 = false ∧ (wLane 3 0x54000000).rbit (sdsStatus 15) 26 = true := by decide

theorem wit_NoLock : wDev.laneMode 15 = 0 ∧ (wLane 2 0x54000000).laneMode 15 = 2 ∧ (wLane 2 0x54000000).rbit (sdsRawCfg 15) 30 = false ∧
    ((wLane 2 0x54000000).setReg (sdsRawCfg 15) 0x40000000).rbit (sdsRawCfg 15) 30 = true ∧ (wLane 3 0).rbit (sdsStatus 15) 26 = false ∧
    (wLane 3 0).laneMode 15 ≠ 2 ∧ wDev.portOn 15 = false ∧ 15 ∈ (wPort 0x82018000 0).portLanes 15 ∧
    (∀ i, i ∈ (wPort 0x82018000 0).portLanes 15 →
      (wPort 0x82018000 0).laneMode i = 1 ∧ (wPort 0x82018000 0).rbit (sdsStatus i) 28 = true) ∧
    ((wPort 0x82018000 0).setReg (sdsStatus 15) 0).rbit (sdsStatus 15) 28 = false := by decide

theorem wit_LinkFalls : (wPort 0x82018000 0xE0000000).rbit (macCfg 15) 31 = true ∧ 15 ∈ (wPort 0x82018000 0xE0000000).members 15 ∧
    bit (0x8000 : BitVec 16) 15 = true ∧ (wPort 0x82018000 0xE0000000).rbit (sdsStatus 15) 26 = true ∧
    ((wPort 0x82018000 0).setReg fenceLane 0x8000).txOn 15 = true ∧ wDev.rbit (macCfg 15) 31 = false ∧
    (wPort 0x82018000 0).portLocked 15 = false ∧ (wPort 0x82018000 0xE0000000).portLocked 15 = true := by decide

theorem wit_PortAgain : (wPort 0x82018000 0x60000000).Quiet ∧ (wPort 0x82018000 0).laneMode 15 = 1 ∧
    (wPort 0x82018000 0).portOn 15 = true ∧
    ((wPort 0x82018000 0).members 15).all (fun i => (wPort 0x82018000 0).rbit (sdsStatus i) 28) = true ∧
    (wPort 0x82018000 0x60000000).rbit (macStatus 15) 30 = true ∧ (wPort 0x82018000 0x60000000).fld (macCfg 15) 14 2 ≠ 0 ∧
    (wPort 0x82018000 0x60000000).portLocked 15 = true ∧ (wPort 0x82018000 0x60000000).rbit (macStatus 15) 31 = false ∧
    (wPort 0x82018000 0xE0000000).rbit (macCfg 15) 31 = true ∧ (wPort 0x82018000 0xE0000000).rbit (macStatus 15) 31 = true := by
  decide

theorem wit_LaneLoss : (wLane 3 0x54000000).rbit (sdsStatus 15) 30 = true ∧ wSeen.rbit (sdsStatus 15) 30 = true ∧ wSeen.rbit (sdsStatus 15) 28 = true ∧
    bit wSeen.serial.exempt 15 = false ∧ wSeen.rbit (sdsCtrl 15) 2 = true ∧ wSeen.laneTest 15 = false ∧
    bit ((wLane 3 0x54000000).exemptLane 15).serial.exempt 15 = true ∧ (wLane 3 0x54000000).rbit (sdsCtrl 15) 2 = true := by decide

theorem wit_LossForms : (true && wSeen.rbit (sdsStatus 15) 30 || false && wSeen.rbit (sdsStatus 15) 28) = true ∧
    (true && wDev.rbit (sdsStatus 15) 30 || true && wDev.rbit (sdsStatus 15) 28) = false ∧ wSeen.isRaw 15 = true ∧
    (wPort 0x82018000 0).portOfLane 15 = some (15, 1) ∧ (wPort 0x82018000 0).rbit (sdsStatus 15) 28 = true := by decide

theorem wit_MacCfgForms : (0x02018000 : Word).getLsbD 31 = false ∧ (wPort 0x82018000 0).rbit (macCfg 15) 31 = true ∧
    setBit ((0x02018000 : Word) &&& 0x8F0FC000) 31 false = setBit ((wPort 0x82018000 0).reg (macCfg 15)) 31 false ∧
    setBit ((0x01010000 : Word) &&& 0x8F0FC000) 31 false ≠ setBit ((wPort 0x82018000 0).reg (macCfg 15)) 31 false ∧
    ¬ (1 ≤ bits (0x80000000 : Word) 24 4) := by decide

theorem wit_MacCfg : 1 ≤ bits (0x83018000 : Word) 24 4 ∧ bits (0x83018000 : Word) 24 4 ≤ 6 ∧
    [1, 2, 4, 8].contains (bits (0x83018000 : Word) 16 4) = true ∧ bits (0x83018000 : Word) 14 2 ≠ 3 ∧
    (wPort 0x02018000 0).rbit (macCfg 15) 31 = false ∧ (0x83018000 : Word).getLsbD 31 = true ∧
    (wPort 0x02018000 0).macCfgOk 15 ((0x83018000 : Word) &&& 0x8F0FC000) = true ∧
    wDev.macCfgOk 15 ((0x83018000 : Word) &&& 0x8F0FC000) = false ∧ wDev.rbit (macCfg 15) 31 = false ∧
    (wPort 0x82018000 0).rbit (macCfg 15) 31 = true ∧ bits (0x83018000 : Word) 24 4 ≠ (wPort 0x82018000 0).fld (macCfg 15) 24 4 := by
  decide

theorem wit_Frames : (wPort 0x82018000 0x60000000).portLocked 15 = true ∧ 60 ≤ (zeros 60).length ∧
    (zeros 60).length + 4 ≤ (wPort 0x82018000 0x60000000).fld (macMaxFrame 15) 0 15 ∧
    (wPort 0x82018000 0x60000000).Quiet ∧ wDev.portLocked 15 = false := by decide

theorem wit_FrameForms : ((false : Bool) || decide ((zeros 10).length + 4 < 64) || false || false) = true ∧
    ((false : Bool) || decide ((zeros 60).length + 4 < 64) || decide ((wPort 0x82018000 0x60000000).fld (macMaxFrame 15) 0 15 < 64) ||
      (false || decide ((0 : BitVec 16) ≠ 0))) = false ∧
    wDev.farLoop 15 = false ∧
    (((wPort 0x82018000 0x60000000).setReg (sdsCtrl 15) 0xB0000006).setReg fenceLane 0x8000).farLoop 15 = true ∧
    (((wPort 0x82018000 0x60000000).setReg (sdsCtrl 15) 0xB0000006).setReg fenceLane 0x8000).portLocked 15 = false ∧
    wDev.rbit (fabCls 15) 31 = false ∧ (wDev.setReg (fabCls 15) 0x40000000).rbit (fabCls 15) 30 = true ∧
    ((wDev.setReg (fabCls 15) 0x40000000).stagingUse [15] = 0) := by decide

/-- A PTP Sync message of 44 bytes after the Ethernet header, as a port's transmit queue holds it. -/
theorem wit_Stamped : (wDev.ptpAt 15 (fit 60 (zeros 12 ++ [0x88, 0xF7, 0, 2] ++ zeros 42))) = some (14, 0, 14) ∧
    getBE 1 (fit 60 (zeros 12 ++ [0x88, 0xF7, 0, 2] ++ zeros 42)) 14 % 16 = 0 ∧ (14 : Nat) + 44 ≤ 60 ∧
    ((wSend 0xE0000000).setReg (macCtrl 15) 0x80000000).fld (macCtrl 15) 30 2 = 2 ∧
    ((wSend 0xE0000000).setReg (macCtrl 15) 0x40000000).fld (macCtrl 15) 30 2 = 1 := by decide

theorem wit_Transmit : (wSend 0xE0000000).Quiet ∧ (wSend 0xE0000000).macTx 15 = [{ flow := 5, bytes := [1] }] ∧
    (wSend 0xE0000000).rbit (macStatus 15) 31 = true ∧ (wSend 0xE0000000).fld (macCtrl 15) 30 2 = 0 ∧
    (wSend 0).rbit (macStatus 15) 31 = false ∧ (wSend 0).macTx 15 = [{ flow := 5, bytes := [1] }] ∧
    (wDev.setTxts 15 [{ tag := 3, time := 0 }]).txtsOf 15 = [{ tag := 3, time := 0 }] ∧
    (wDev.setTxts 15 [{ tag := 3, time := 0 }]).Quiet ∧ wBram.granted 1 2 = false ∧ wBram.portIdle 1 = false ∧
    wDev.granted 0 2 = true := by decide

theorem wit_RawRx : (wLane 3 0x74000000).rawOn 15 = true ∧ (wLane 3 0x74000000).rbit (sdsCtrl 15) 2 = true ∧
    (0 : BitVec 3).getLsbD 0 = false ∧ (wLane 3 0x74000000).fld (sdsRawCfg 15) 0 12 = 0 ∧
    wRawFlow.rawOn 15 = true ∧ wRawFlow.rbit (sdsCtrl 15) 2 = true ∧ wRawFlow.fld (sdsRawCfg 15) 0 12 ≠ 0 ∧
    (wRawFlow.flow (wRawFlow.fld (sdsRawCfg 15) 0 12)).liveFrom 15 = true := by decide

theorem wit_RawLoss : (wLane 4 0).rawOn 15 = true ∧ (wLane 4 0).rbit (sdsCtrl 15) 2 = true ∧ (wLane 4 0x70000000).laneMode 15 = 4 ∧
    ((wLane 4 0x70000000).rawLane 15).lost = false ∧ (wLane 4 0x70000000).rbit (sdsStatus 15) 30 = true ∧
    (wLane 4 0x70000000).rbit (sdsStatus 15) 28 = true ∧ wDev.rawOn 15 = false ∧ wDev.isRaw 15 = false ∧
    (((wLane 3 0x74000000).setReg (sdsCtrl 15) 0xB0000006).setReg fenceLane 0x8000).farLoop 15 = true ∧
    (((wLane 3 0x74000000).setReg (sdsCtrl 15) 0xB0000006).setReg fenceLane 0x8000).rawOn 15 = false := by decide

theorem wit_RawTx : wRawTx.Quiet ∧ wRawTx.rawOn 15 = true ∧ wRawTx.txOn 15 = true ∧ (wRawTx.rawLane 15).txQueue = [] ∧
    (wRawTx.rawEnqueue 15 (wCell 5 [])).rawOn 15 = true ∧ (wRawTx.rawEnqueue 15 (wCell 5 [])).txOn 15 = true ∧
    ((wRawTx.rawEnqueue 15 (wCell 5 [])).rawLane 15).txQueue = [wCell 5 []] ∧
    bit ((fit 64 (wCell 5 []).payload).getD 6 0) 7 = false := by decide

theorem wit_RawTimed : bit ((fit 64 (wCell 5 [5, 0, 0, 0, 0, 0, 0x80]).payload).getD 6 0) 7 = true ∧ wRawTx.dense 15 = false ∧
    laterSeq 32 (getLE 4 (fit 64 (wCell 5 [5, 0, 0, 0, 0, 0, 0x80]).payload) 0) (wRawTx.ns.toNat % 2 ^ 32) = true ∧
    laterSeq 32 (getLE 4 (fit 64 (wCell 5 [0, 0, 0, 0, 0, 0, 0x80]).payload) 0) (wRawTx.ns.toNat % 2 ^ 32) = false ∧
    wTestLane.rawOn 15 = false ∧ wTestLane.laneTest 15 = true ∧ wTestLane.rbit (sdsPrbsCtrl 15) 31 = true := by decide

theorem wit_Prbs : bits (0xC0000004 : Word) 0 3 ≤ 4 ∧ (0xC0000004 : Word).getLsbD 28 = false ∧ wTestLane.laneTest 15 = true ∧
    wDev.laneTest 15 = false ∧ wDev.reg (sdsPrbsCtrl 15) = 0 ∧ bits (wTestLane.reg (sdsPrbsCtrl 15)) 0 3 ≤ 4 ∧
    wTestLane.rbit (sdsPrbsCtrl 15) 31 = true ∧ wTestLane.rbit (sdsPrbsCtrl 15) 30 = true ∧
    wTestLane.rbit (sdsPrbsStatus 15) 31 = true ∧ 32 ≤ (32 : Word).toNat ∧ (32 : Word).toNat ≤ (64 : BitVec 48).toNat ∧
    wTestLane.Quiet ∧ wDev.Quiet := by decide

theorem wit_PortConfig : (wAsk wHive 0x0800 wCfgReq).dev.Takes 0x0800 (wReq 0x0800 wCfgReq) [] ∧
    checkParams (wReq 0x0800 wCfgReq) 24 (zb [1, 2, 3, 21, 22, 23] ++ [(20, 0xFE)]) [(0, 1, 0, 15)] = none ∧
    wCfgX.2 = none ∧ (wCfgX.1.portSteps [fixedWrite (macCfg 15) 0x01010000]).2 = none ∧
    (0x01010000 : Word).getLsbD 31 = false ∧
    ((wCfgX.1.portSteps [fixedWrite (macCfg 15) 0x01010000]).1.portSteps [fixedWrite (macCtrl 15) 0]).2 = none := by
  unfold Dev.Takes; decide

theorem wit_LaneTest : (wAsk wHive 0x0801 (15 :: zeros 7)).dev.Takes 0x0801 (wReq 0x0801 (15 :: zeros 7)) [] ∧
    checkParams (wReq 0x0801 (15 :: zeros 7)) 8 ([(4, 0xF8)] ++ zb [5, 6, 7])
      [(0, 1, 0, 15), (1, 1, 0, 1), (2, 1, 0, 4), (3, 1, 0, 4)] = none ∧
    (wTaken wHive 0x0801 (15 :: zeros 7)).inRetired = false := by unfold Dev.Takes; decide

theorem wit_RawForms : (((wLane 3 0x74000000).setReg (sdsCtrl 15) 0xC0000006).setReg fenceLane 0x8000).farLoop 15 = true ∧
    (((wLane 3 0x74000000).setReg (sdsCtrl 15) 0xC0000006).setReg fenceLane 0x8000).loopback 15 = 4 ∧
    (((wLane 3 0x74000000).setReg (sdsCtrl 15) 0xC0000006).setReg fenceLane 0x8000).isRaw 15 = true ∧
    (((wLane 3 0x74000000).setReg (sdsCtrl 15) 0xB0000006).setReg fenceLane 0x8000).loopback 15 ≠ 4 ∧
    ((wLane 3 0x74000000).setReg (sdsCtrl 15) 0x90000006).nearLoop 15 = true ∧
    ((wLane 3 0x74000000).setReg (sdsCtrl 15) 0x90000006).rawOn 15 = false ∧
    ((wLane 3 0x74000000).setReg (sdsCtrl 15) 0x90000006).rbit (sdsPrbsCtrl 15) 31 = false ∧
    ((wLane 3 0x74000000).setReg (sdsCtrl 15) 0x90000006).laneReset 15 = false ∧
    ((wRawTx.rawEnqueue 15 (wCell 5 [5, 0, 0, 0, 0, 0, 0x80])).rawLane 15).waits = true ∧
    (1 : BitVec 31).toNat % 2 ^ (prbsTaps (wTestLane.fld (sdsPrbsCtrl 15) 0 3)).1 ≠ 0 ∧
    (wTestLane.setReg (sdsCtrl 15) 0x90000006).nearLoop 15 = true := by decide

theorem wit_DmaGo : (1 : Fin 13) ≠ 0 ∧ wDev.granted 1 5 = false ∧ wDmaOwned.granted 1 5 = true ∧ wDmaOwned.ownsChan 1 1 15 = true ∧
    (wDmaOwned.dmaChan 1 15).state = .idle ∧ wDmaOwned.Quiet ∧ (wChan .faulted).Quiet ∧
    ((wChan .faulted).dmaChan 1 15).state = .faulted ∧ (0 : Word).getLsbD 29 = false ∧
    ((wChan .faulted).dmaChan 1 15).state ≠ .idle ∧ wDev.ownsChan 1 1 15 = false ∧ (wDev.dmaEng 1).reqs = [] ∧
    (1 : Word).getLsbD 0 = true := by decide

theorem wit_DmaPorts : (wDmaOwned.setReg (rgnStatus 0) 0).portIdle 1 = false ∧ (wDmaOwned.setReg (rgnStatus 0) 0).granted 1 5 = true ∧
    (wDmaOwned.setReg (rgnStatus 0) 0).ownsEngine 1 1 = true ∧ wDev.portIdle 2 = true ∧ wBram.portIdle 1 = false ∧
    wBram.granted 1 5 = false ∧ wDev.portIdle 0 = false ∧ (31 : Nat) ∈ [29, 30, 31] ∧ bit (setBit (0 : Word) 31 true) 31 = true ∧
    bit (setBit (0 : Word) 30 true) 31 = false ∧ bit (setBit (0x20000000 : Word) 30 true) 29 = true ∧
    ((wOut .desc).dmaEng 1).reqs.map (fun r => r.chan) = [15] := by decide

theorem wit_DmaIssue : ((wChan .active).dmaEng 1).reqs = [] ∧ ((wChan .active).dmaEng 1).walk = none ∧
    ((wChan .active).dmaChan 1 15).desc = [] ∧ ((wChan .active).dmaChan 1 15).asked = false ∧
    ((wChan .active).dmaChan 1 15).groups = [] ∧ ((wChan .active).dmaChan 1 15).fault = none ∧
    (∀ j, j < 16 → j ≠ 15 → ((wChan .active).dmaChan 1 j).state = .idle) ∧ ((wChan .active).dmaChan 1 15).state = .active ∧
    ((wChan .active).setReg (dmaChDesc 1 15 0) 8).chDesc 1 15 % 32 ≠ 0 := by decide

theorem wit_DmaSend : (wRoute .active).chDesc 1 15 % 32 = 0 ∧
    (wRoute .active).rbit (xltAsCfg ((wRoute .active).chSpace 1 15)) 31 = true ∧
    (wRoute .active).rbit (xltAsCfg ((wRoute .active).chSpace 1 15)) 30 = true ∧
    (wRoute .active).serverOf ((wRoute .active).chDesc 1 15) = some 0 ∧ (wRoute .active).routeOk 1 0 = true ∧
    (wRoute .active).serverSuspended 0 = false ∧ (wRoute .active).canSend 1 0 1 = true ∧
    ((wRoute .waitTest).dmaChan 1 15).state = .waitTest ∧ ((wRoute .waitTest).dmaChan 1 15).trying = none ∧
    (wRoute .waitTest).serverSuspended 0 = false ∧ (wRoute .waitTest).canSend 1 0 1 = true := by decide

theorem wit_DmaNothing : (wDev.dmaEng 1).reqs = [] ∧
    (∀ j, j < 16 → (wDev.dmaChan 1 j).state ∉ [ChState.active, .preempted, .waitTest]) ∧ (wDev.dmaChan 1 15).state ≠ .waitTest := by
  decide

theorem wit_DmaGroups : (wRun 1 0).dmaChan 1 15 = { DmaChan.idle with state := .active, desc := wDesc 1, next := 0, stop := 64 } ∧
    isM2M (wDesc 1) = true ∧ m2mSpan (wDesc 1) 0 = (64, [(0x1000, 64)]) ∧ (wRun 1 0).serverOf ((dDst (wDesc 1) + 0) % 2 ^ 40) = some 0 ∧
    (wRun 1 0).routeOk 1 0 = true ∧ (wRun 1 0).serverSuspended 0 = false ∧ (wRun 1 0).canSend 1 0 ((79 + 64) / 64) = true ∧
    (wRun 1 0).serverOf 0x1000 = some 0 := by decide

theorem wit_DmaStream : isM2F (wDesc 2) = true ∧ (wRun 2 0).flowOk 1 (wDesc 2) = true ∧ 0 < dLen (wDesc 2) ∧
    (0x1000 : Nat) = (dSrc (wDesc 2) + 0) % 2 ^ 40 ∧ (64 : Nat) = min (dLen (wDesc 2) - 0) (4096 - 0x1000 % 4096) ∧
    (wRun 2 0).canSend 1 0 ((79 + 64) / 64) = true ∧ ((wRun 1 64).dmaChan 1 15).next = ((wRun 1 64).dmaChan 1 15).stop ∧
    dChain (wDesc 1) = false := by decide

theorem wit_DmaAnswer : wReply.isReplyFlow 1 7 = true ∧ takeMessage 7 (wReply.rxCells 50) = some ([wMsg48], []) ∧
    (wReply.dmaEng 1).reqs.find? (fun r => decide (r.tag.toNat = getLE 2 (messageBytes [wMsg48]) 6)) = none ∧
    wDev.isReplyFlow 1 7 = false := by decide

theorem wit_DmaDesc : (wOut .desc).isReplyFlow 1 7 = true ∧ takeMessage 7 ((wOut .desc).rxCells 50) = some ([wMsg48], []) ∧
    ((wOut .desc).dmaEng 1).reqs.find? (fun r => decide (r.tag.toNat = getLE 2 (messageBytes [wMsg48]) 6)) =
      some { tag := 3, chan := 15, kind := .desc, server := 0, cells := 1, dead := false, lost := false } ∧
    [wMsg48].any (fun c => c.err) = false ∧ ((wOut .desc).dmaChan 1 15).state = .active ∧ ((wOut .desc).dmaChan 1 15).fault = none ∧
    getLE 2 (messageBytes [wMsg48]) 14 = 0 ∧ (messageBytes [wMsg48]).length = 48 := by decide

theorem wit_DmaDescOk :
    (wOut .desc).descOk 1 ((messageBytes [wMsg48]).drop 16) ((wOut .desc).dmaChan 1 15).msgOpen = true := by decide

theorem wit_DmaWalk : (wOutMsg .walk wMsg24).isReplyFlow 1 7 = true ∧
    takeMessage 7 ((wOutMsg .walk wMsg24).rxCells 50) = some ([wMsg24], []) ∧
    ((wOutMsg .walk wMsg24).dmaEng 1).reqs.find? (fun r => decide (r.tag.toNat = getLE 2 (messageBytes [wMsg24]) 6)) =
      some { tag := 3, chan := 15, kind := .walk, server := 0, cells := 1, dead := false, lost := false } ∧
    getLE 2 (messageBytes [wMsg24]) 14 = 0 ∧ (messageBytes [wMsg24]).length = 24 ∧
    getLE 8 ((messageBytes [wMsg24]).drop 16) 0 = 0x500F ∧
    ((wOutMsg .walk wMsg24).dmaEng 1).walk = some wWalk ∧ wWalk.stale = false ∧ wWalk.level = 3 := by decide

theorem wit_DmaInTest : takeMessage 7 ((wOutMsg (.write 0) wMsgTest).rxCells 50) = some ([wMsgTest], []) ∧
    ((wOutMsg (.write 0) wMsgTest).dmaEng 1).reqs.find? (fun r => decide (r.tag.toNat = getLE 2 (messageBytes [wMsgTest]) 6)) =
      some { tag := 3, chan := 15, kind := .write 0, server := 0, cells := 1, dead := false, lost := false } ∧
    getLE 2 (messageBytes [wMsgTest]) 14 = stInTest ∧ ((wOutMsg (.write 0) wMsgTest).dmaChan 1 15).state = .active := by decide

theorem wit_DmaAnswers : ((wOutMsg (.read 0) wMsg24).updChan 1 15 (fun x => { x with groups := [wRead] })).dmaChan 1 15 =
      { DmaChan.idle with state := .active, groups := [wRead] } ∧ [wRead].find? (fun g => decide (g.off = 0)) = some wRead ∧
    wRead.parts.head?.map (·.2) = some 8 ∧ (messageBytes [wMsg24]).length = 16 + 8 ∧
    getLE 2 (messageBytes [wMsgBad]) 14 = stBadParam ∧ getLE 1 (messageBytes [wMsgBad]) 13 ∈ [4, 9, 5] ∧
    takeMessage 7 ((wOutMsg (.write 0) wMsgBad).rxCells 50) = some ([wMsgBad], []) ∧
    ((wOutMsg (.write 0) wMsgBad).dmaEng 1).reqs.find? (fun r => decide (r.tag.toNat = getLE 2 (messageBytes [wMsgBad]) 6)) =
      some { tag := 3, chan := 15, kind := .write 0, server := 0, cells := 1, dead := false, lost := false } := by decide

theorem wit_DmaFaultAnswer :
    let x := (wOutMsg (.write 0) wMsgBad).updChan 1 15 (fun x => { x with desc := wDesc 1, groups := [wGroup] })
    isM2M (x.dmaChan 1 15).desc = true ∧ (∀ h, h ∈ (x.dmaChan 1 15).groups → 0 ≤ h.off) ∧ x.chLevel 1 15 = 0 ∧
    (x.dmaChan 1 15).state = .active ∧ (x.dmaChan 1 15).fault = none ∧
    (∀ q, q ∈ (x.dmaEng 1).reqs → q.chan = 15 → q.tag = 3) := by decide

theorem wit_DmaRetry :
    let x := (wRun 1 64).updChan 1 15 (fun x => { x with state := .waitTest, groups := [wGroup] })
    (x.dmaEng 1).reqs = [] ∧ ((x.dmaChan 1 15).groups.filter (x.dmaChan 1 15).unsent).head? = some wGroup ∧ wGroup.st = .toWrite ∧
    x.serverOf ((x.dmaChan 1 15).dstOf wGroup) = some 0 ∧ x.routeOk 1 0 = true ∧ x.canSend 1 0 1 = true ∧
    (x.dmaChan 1 15).trying = none ∧ (x.dmaEng 1).walk = none ∧ [wGroup].find? (fun h => decide (h.off = wGroup.off)) = some wGroup := by decide

theorem wit_DmaExpiry : (wWaiting.dmaChan 1 15).state = .waitTest ∧ wWaiting.fld (dmaEngCfg 1) 16 8 ≠ 0 ∧
    (wWaiting.dmaChan 1 15).groups = [wGroup] ∧ (wWaiting.dmaChan 1 15).fault = none ∧
    ((wWaiting.dmaChan 1 15).groups.filter (wWaiting.dmaChan 1 15).unsent).head? = some wGroup ∧
    (wWaiting.dmaChan 1 15).trying = none ∧ (wWaiting.dmaEng 1).walk = none ∧
    isM2M (wWaiting.dmaChan 1 15).desc = true ∧ wWaiting.chLevel 1 15 = 0 ∧
    ((wChan .waitTest).dmaChan 1 15).desc = [] ∧ ((wChan .waitTest).dmaChan 1 15).asked = false ∧
    ((wChan .waitTest).dmaChan 1 15).trying = none := by decide

theorem wit_DmaOrder : (((wRoute .active).dmaSuspend 1).flowsGone 1).dmaOrder 1 = [] ++ 15 :: [] ∧
    ((((wRoute .active).dmaSuspend 1).flowsGone 1).chanAct 1 15).isSome = true := by decide

theorem wit_DmaStale :
    let x := (wOutMsg .walk wMsg24).updEng 1 (fun y => { y with walk := some { wWalk with stale := true } })
    (x.dmaEng 1).walk = some { wWalk with stale := true } ∧ (wOut .desc).staleWalk 1
      { tag := 3, chan := 15, kind := .desc, server := 0, cells := 1, dead := false, lost := false } = none := by decide

theorem wit_Xlt : wDev.dma.inval = none ∧ bits (0 : Word) 28 2 = 0 ∧ bits (0x1000003F : Word) 28 2 = 1 ∧
    (∀ e, e < 2 → (wDev.dmaEng e).walk = none) := by decide

theorem wit_XltForms : bits (0x20000000 : Word) 28 2 = 2 ∧ bits (0x30000000 : Word) 28 2 = 3 ∧
    ({ wDev with dma := { wDev.dma with inval := some .all } } : Dev).dma.inval ≠ none ∧
    (wDev.setReg (dmaEngCfg 1) 0).fld (dmaEngCfg 1) 16 8 = 0 := by decide

theorem wit_Gpio : wDev.Quiet ∧ wDev.gpioReach 0 14 = true ∧ wDev.gpioReach 1 14 = false ∧ (1 : Fin 13) ≠ 0 ∧
    (0x8000 : Word).getLsbD 15 = true ∧ (wDev.reg (gpioOe 14)).getLsbD 15 = false ∧ (wDev.selMask 14).testBit 15 = false ∧
    wPermits.pinPermit (16 * 14 + 15) = false ∧ (∀ j, j < 15 → wPermits.pinPermit (16 * 14 + j) = true) ∧
    (∀ k, k < 16 → wPermits.pinPermit (16 * 13 + k) = true) ∧ wDev.power.por = false := by decide

theorem wit_Pmux : pmuxOk 223 0x00000002 = true ∧ pmuxOk 239 0x00000002 = false ∧ wDev.pinPermit 223 = false ∧
    wDev.pinFunc 223 ≠ 2 ∧ peripheralDrives 223 = true ∧ bits (2 : Word) 0 2 = 2 ∧ wPermits.pinPermit 222 = true ∧
    pmuxOk 222 0x00000001 = true ∧ bits (1 : Word) 0 2 ≠ wPermits.pinFunc 222 := by decide

theorem wit_Presence : wLead.isLead 15 = true ∧ (wLead.presPin 15).isSome = true ∧ bit wLead.mods.presence 15 ≠ true ∧
    wLead.Quiet ∧ bit wLead.mods.queued 15 = true ∧ wLead.busScans (wLead.busOf 15) = false ∧
    wLead.xferBusy (wLead.busOf 15) = false ∧ wLead.presentNow 15 ≠ some false ∧ wLead.selPin 15 = some 230 := by decide

theorem wit_Scan : bit wScan.mods.running 15 = true ∧ bit wScan.mods.again 15 = false ∧
    wScan.busUsable (wScan.busOf 15) = true ∧ wScan.laneEnabled 15 = true ∧ wScan.leadOf 15 = 15 := by decide

theorem wit_Xfer : bits (0 : Word) 16 5 < 16 ∧ bits (0x1F0000 : Word) 16 5 = 31 ∧ wDev.xferBusy 3 = false ∧
    16 ≤ bits (0x100000 : Word) 16 5 ∧ bits (0x100000 : Word) 16 5 < 31 ∧ wXfer.xferBusy 0 = true ∧ wXfer.busScans 0 = false ∧
    wXfer.busUsable 0 = true ∧ wXfer.Quiet ∧ bit (wXfer.xferWord 0) 28 = true := by decide

theorem wit_Modules : (wAsk wHive 0x0802 []).dev.Takes 0x0802 (wReq 0x0802 []) [] ∧ checkParams (wReq 0x0802 []) 0 [] [] = none ∧
    (wTaken wHive 0x0802 []).ticketsFull = false ∧ (wTaken wFull 0x0802 []).ticketsFull = true ∧
    (wAsk wHive 0x0803 [15]).dev.Takes 0x0803 (wReq 0x0803 [15]) [] ∧
    checkParams (wReq 0x0803 [15]) 1 [] [(0, 1, 0, 15)] = none := by unfold Dev.Takes; decide

theorem wit_TestPort : wDev.Quiet ∧ irBoundary wDev.jtag.ir = false := by decide

theorem wit_PinForms : wDev.portIdle 0 = false ∧ wDev.portIdle 2 = true ∧ wBram.portIdle 1 = false ∧ wBram.gpioReach 1 14 = false ∧
    wPermits.gpioReach 0 14 = true ∧ (wPermits.gpioOwn 0 14).testBit 15 = true ∧ (0x80008000 : Word).getLsbD (16 + 15) = true ∧
    Dev.reset.power.por = true ∧ (bits (1 : Word) 0 2 ≠ wDev.pinFunc 222 ∧ wDev.pinPermit 222 = false ∧
      (wDev.setReg (gpioOe 13) 0x4000).rbit (gpioOe (222 / 16)) (222 % 16) = true) ∧ bits (2 : Word) 0 2 ≠ wDev.pinFunc 223 := by decide

theorem wit_PresenceForms : wScan.presentNow 15 = none ∧ wLead.presentNow 15 = some true ∧
    (wLead.setReg (modLaneCfg 15) 0xAF3FE6E7).presentNow 15 = some false ∧ bit wLead.mods.again 15 = false ∧
    (wLead.setReg (modLaneCfg 15) 0xAF3FE6E7).isLead 15 = true ∧ bit wDev.mods.running 15 = false ∧
    wScan.presentNow 15 ≠ some false ∧ bit ({ wScan with mods := { wScan.mods with again := 0x8000 } } : Dev).mods.again 15 = true ∧
    wLead.busUsable (wLead.busOf 15) = false := by decide

theorem wit_BusForms : wXfer.busUsable 1 = false ∧ (wXfer.setReg (modXferCtrl 1) 0x80000000).xferBusy 1 = true ∧
    wScan.busScans 0 = true ∧ wScan.busOf 15 = 0 ∧ (∀ m, m < 15 → ¬ (bit wScan.mods.running m = true ∧ wScan.busOf m = 0)) ∧
    wLead.mods.queued ≠ 0 := by decide

end Sys2Proof.Tests
end

/-! PROOFS. The statements about scope and the control bus: what an access reads, writes and escalates, the statistics
counters and their latches, and the PPS pins. The facts about the model's operations come first, the statements last. -/
section
namespace Sys2Proof.Machine

/-! ## The end of a command -/

/-- The control port of the hive is never idle (R73). -/
@[simp] theorem portIdle_hive (d : Dev) : d.portIdle 0 = false := rfl

/-- What an access leaves stands, where the identity may issue it. -/
theorem finishBy_active {id : Fin 13} {s : State} (h : s.dev.portIdle id = false) (d : Dev) :
    finishBy id s d = .next (s.after d) := by
  simp [finishBy, h, finish, State.after]

/-- A frozen region issues no access (R73). -/
theorem finishBy_idle {id : Fin 13} {s : State} (h : s.dev.portIdle id = true) (d : Dev) :
    finishBy id s d = .next (s.after s.dev) := by
  simp [finishBy, h, finish, State.after]

/-- With nothing waiting, a command ends with its device settled. -/
theorem after_dev_quiet (s : State) {d : Dev} (h : d.Quiet) : (s.after d).dev = settle d := by
  rw [State.after, flush_quiet h.1 h.2]

/-! ## Read data of a requester identity -/

@[simp] theorem setRead_raised (d : Dev) (id : Fin 13) (v : Word) : (d.setRead id v).raised = d.raised := rfl
@[simp] theorem setRead_log (d : Dev) (id : Fin 13) (v : Word) : (d.setRead id v).log = d.log := rfl
@[simp] theorem setRead_fab (d : Dev) (id : Fin 13) (v : Word) : (d.setRead id v).fab = d.fab := rfl
@[simp] theorem setRead_reg (d : Dev) (id : Fin 13) (v : Word) (o : Nat) : (d.setRead id v).reg o = d.reg o := rfl
@[simp] theorem setRead_stat (d : Dev) (id : Fin 13) (v : Word) (o : Nat) : (d.setRead id v).stat o = d.stat o := rfl
@[simp] theorem setRead_idReg (d : Dev) (id : Fin 13) (v : Word) (i o : Nat) : (d.setRead id v).idReg i o = d.idReg i o := rfl

/-- An identity finds the word that its latest read returned. -/
@[simp] theorem readData_setRead (d : Dev) (id : Fin 13) (v : Word) :
    mget (fun _ => 0) (d.setRead id v).readData id.val = v := mget_mset_same _ _ _ _

/-! ## The control bus (R16, R17, R49) -/

theorem badAccess_word {off : Nat} (h : off % 4 = 0) : badAccess off false = false := by simp [badAccess, h]

theorem badAccess_of {off : Nat} {narrow : Bool} (h : narrow = true ∨ off % 4 ≠ 0) : badAccess off narrow = true := by
  simpa [badAccess] using h

/-- A write of another width or alignment. -/
theorem busWrite_bad (d : Dev) (id : Fin 13) {off : Nat} {narrow : Bool} (h : badAccess off narrow = true) (v : Word) :
    d.busWrite id off narrow v = d.ctrlDecode id.val true true off := by
  simp [Dev.busWrite, h]

/-- A write at an offset with no register. -/
theorem busWrite_unmapped (d : Dev) (id : Fin 13) {off : Nat} (h4 : off % 4 = 0) (h : regRow off = none) (v : Word) :
    d.busWrite id off false v = d.ctrlDecode id.val true false off := by
  simp [Dev.busWrite, badAccess_word h4, h]

/-- A write of a register is its block's write. -/
theorem busWrite_mapped (d : Dev) (id : Fin 13) {off : Nat} {r : RegRow} (h4 : off % 4 = 0) (h : regRow off = some r) (v : Word) :
    d.busWrite id off false v = d.blockWrite id r off v := by
  simp [Dev.busWrite, badAccess_word h4, h]

/-- A read of another width or alignment. -/
theorem readInto_bad (d : Dev) (id : Fin 13) {off : Nat} {narrow : Bool} (h : badAccess off narrow = true) :
    d.readInto id off narrow = (d.ctrlDecode id.val false true off).setRead id 0 := by
  simp [Dev.readInto, Dev.busRead, h]

/-- A read at an offset with no register. -/
theorem readInto_unmapped (d : Dev) (id : Fin 13) {off : Nat} (h4 : off % 4 = 0) (h : regRow off = none) :
    d.readInto id off false = (d.ctrlDecode id.val false false off).setRead id 0 := by
  simp [Dev.readInto, Dev.busRead, badAccess_word h4, h]

/-- A read of a register by an identity that may read it is by its access type. -/
theorem readInto_mapped (d : Dev) (id : Fin 13) {off : Nat} {r : RegRow} (h4 : off % 4 = 0) (h : regRow off = some r)
    (hr : d.readOk id off = true) :
    d.readInto id off false = (d.readReg id r off).2.setRead id (d.readReg id r off).1 := by
  simp [Dev.readInto, Dev.busRead, badAccess_word h4, h, hr]

/-! ## Reads by access type (R19, R20) -/

/-- A read at the offset has no behaviour of its own: the register's access type says what it does. -/
def ReadsByType (off : Nat) : Prop :=
  off ≠ 0x200044 ∧ off ≠ 0x200048 ∧ off ≠ 0x20004C ∧ off ≠ timeNow 0 ∧ off ≠ timePpsInTs 0 ∧
  ¬ (0x380000 ≤ off ∧ off < 0x400000 ∧ (off - 0x380000) % 0x1000 = 0x2C)

theorem readsByType_of_lt {off : Nat} (h : off < 0x200000) : ReadsByType off := by
  simp only [ReadsByType, timeNow, timePpsInTs]
  omega

/-- MAC_TXTS3 of every port is read-only in its table. -/
theorem regRow_txts3_ro : ∀ p, p < 128 → ∀ r ∈ regRow (0x38002C + 0x1000 * p), r.acc = .ro := by decide

/-- A register whose read has behaviour of its own is read-only in its table. -/
theorem acc_ro_of_not_readsByType {off : Nat} {r : RegRow} (h : ¬ ReadsByType off) (hr : regRow off = some r) : r.acc = .ro := by
  simp only [ReadsByType, timeNow, timePpsInTs] at h
  have hcases : off = 0x200044 ∨ off = 0x200048 ∨ off = 0x20004C ∨ off = 0x40000C ∨ off = 0x400038 ∨
      ∃ p, p < 128 ∧ off = 0x38002C + 0x1000 * p := by
    by_cases hm : 0x380000 ≤ off ∧ off < 0x400000 ∧ (off - 0x380000) % 0x1000 = 0x2C
    · exact .inr (.inr (.inr (.inr (.inr ⟨(off - 0x380000) / 0x1000, by omega, by omega⟩))))
    · omega
  rcases hcases with rfl | rfl | rfl | rfl | rfl | ⟨p, hp, rfl⟩
  case inr.inr.inr.inr.inr => exact regRow_txts3_ro p hp r hr
  all_goals revert r; decide

theorem readsByType_of_acc {off : Nat} {r : RegRow} (hr : regRow off = some r) (ha : r.acc ≠ .ro) : ReadsByType off :=
  Classical.byContradiction fun h => ha (acc_ro_of_not_readsByType h hr)

section
variable (d : Dev) (id : Fin 13) {off : Nat} {r : RegRow}

theorem readReg_rc (h : ReadsByType off) (ha : r.acc = .rc) : d.readReg id r off = (d.reg off, d.setReg off 0) := by
  obtain ⟨h1, h2, h3, h4, h5, h6⟩ := h
  simp only [Dev.readReg, h1, h2, h3, h4, h5, h6, ha, if_false, Dev.rcRead, Access.afterRead]

theorem readReg_statLo (h : ReadsByType off) (ha : r.acc = .statLo) : d.readReg id r off = d.statLatch id off (d.stat off) := by
  obtain ⟨h1, h2, h3, h4, h5, h6⟩ := h
  simp only [Dev.readReg, h1, h2, h3, h4, h5, h6, ha, if_false]

theorem readReg_statHi (h : ReadsByType off) (ha : r.acc = .statHi) : d.readReg id r off = (d.idReg id off, d) := by
  obtain ⟨h1, h2, h3, h4, h5, h6⟩ := h
  simp only [Dev.readReg, h1, h2, h3, h4, h5, h6, ha, if_false]

/-- A register that no block computes reads as its stored word. -/
theorem readReg_stored (h : ReadsByType off) (ha : r.acc = .ro ∨ r.acc = .rw ∨ r.acc = .w1c ∨ r.acc = .w1s)
    (hv : d.view id off = none) : d.readReg id r off = (d.reg off, d) := by
  obtain ⟨h1, h2, h3, h4, h5, h6⟩ := h
  rcases ha with ha | ha | ha | ha <;>
    simp only [Dev.readReg, h1, h2, h3, h4, h5, h6, ha, hv, if_false, Option.getD_none]

/-- The statistics counter whose low word stands at the offset: that of the flow in FAB_FLOW_SEL, or the register's (R182). -/
def Dev.counterRead (d : Dev) (off : Nat) : Stat :=
  if off = 0x200044 then mget (fun _ => Stat.zero) d.fab.flowAcc (d.fld fabFlowSel 0 12) else d.stat off

/-- A read of the low word of a statistics counter latches its high word for the reader (R12). -/
theorem readReg_lowWord (hr : regRow off = some r) (h : r.acc = .statLo ∨ off = 0x200044) :
    d.readReg id r off = ((d.counterRead off).low, d.setIdReg id (off + 4) (d.counterRead off).high) := by
  by_cases hoff : off = 0x200044
  · rw [Dev.readReg, if_pos hoff, Dev.counterRead, if_pos hoff, Dev.statLatch]
  · have ha := h.resolve_right hoff
    rw [readReg_statLo d id (readsByType_of_acc hr (by simp [ha])) ha, Dev.counterRead, if_neg hoff, Dev.statLatch]

/-- A read of the high word of a statistics counter returns the reader's latch (R12). -/
theorem readReg_highWord (hr : regRow off = some r) (h : r.acc = .statHi ∨ off = 0x200048) :
    d.readReg id r off = (d.idReg id off, d) := by
  rcases h with ha | rfl
  · exact readReg_statHi d id (readsByType_of_acc hr (by simp [ha])) ha
  · rfl

end

/-! ## Accesses that a control port issues -/

section
variable {id : Fin 13} {s : State} (h : s.dev.portIdle id = false) (off : BitVec 24)
include h

theorem registerWrite_runs (narrow : Bool) (v : Word) :
    exec (.registerWrite id off narrow v) s = .next (s.after (s.dev.busWrite id off.toNat narrow v)) :=
  finishBy_active h _

theorem rcRead_runs (narrow : Bool) :
    exec (.rcRead id off narrow) s = .next (s.after (s.dev.readInto id off.toNat narrow)) := finishBy_active h _

theorem statLowRead_runs : exec (.statLowRead id off) s = .next (s.after (s.dev.readInto id off.toNat false)) :=
  finishBy_active h _

end

/-! ## Copies of a register per requester identity -/

theorem idKey_ne {i j : Nat} (h : i ≠ j) (o : Nat) : idKey i o ≠ idKey j o := by
  simp only [idKey]; omega

theorem quiet_setRead {d : Dev} (h : d.Quiet) {id : Fin 13} {v : Word} : (d.setRead id v).Quiet := h

theorem quiet_setIdReg {d : Dev} (h : d.Quiet) {id off : Nat} {v : Word} : (d.setIdReg id off v).Quiet := by
  rwa [Dev.Quiet, setIdReg_raised, setIdReg_log]

/-- A latch is no counter. -/
@[simp] theorem stat_setIdReg (d : Dev) (id off : Nat) (v : Word) (o : Nat) : (d.setIdReg id off v).stat o = d.stat o := by
  rw [Dev.stat, setIdReg_stats, Dev.stat]

/-! ## One escalation (R26, R27, R30, R32) -/

@[simp] theorem forEach_nil {α : Type} (d : Dev) (f : Dev → α → Dev) : d.forEach [] f = d := rfl
@[simp] theorem forEach_cons {α : Type} (d : Dev) (x : α) (xs : List α) (f : Dev → α → Dev) :
    d.forEach (x :: xs) f = (f d x).forEach xs f := rfl

/-- Marking flows changes no register. -/
@[simp] theorem markSeq_regs (d : Dev) (fs : List Nat) (seq : Word) : (d.markSeq fs seq).regs = d.regs := by
  unfold Dev.markSeq
  induction fs.filter (fun f => decide ((d.flow f).state ≠ .free)) generalizing d with
  | nil => rfl
  | cons f fs ih => rw [forEach_cons, ih, setFlow_regs]

@[simp] theorem markSeq_log (d : Dev) (fs : List Nat) (seq : Word) : (d.markSeq fs seq).log = d.log := by
  unfold Dev.markSeq
  induction fs.filter (fun f => decide ((d.flow f).state ≠ .free)) generalizing d with
  | nil => rfl
  | cons f fs ih => rw [forEach_cons, ih, setFlow_log]

@[simp] theorem append_intake (l : LogState) (t : DWord) (c src : Nat) (p : BitVec 16) (x : List Byte) :
    (l.append t c src p x).intake = l.intake := by
  unfold LogState.append
  dsimp only
  split <;> rfl

/-- An entry that the log takes or loses leaves the offers that wait. -/
@[simp] theorem logTake_intake (d : Dev) (o : LogOffer) : (d.logTake o).log.intake = d.log.intake := by
  unfold Dev.logTake Dev.cond
  rw [markSeq_log]
  dsimp only
  split <;> split <;> simp

@[simp] theorem logTake_regs (d : Dev) (o : LogOffer) : (d.logTake o).regs = d.regs := by
  unfold Dev.logTake Dev.cond
  rw [markSeq_regs]
  dsimp only
  split <;> simp

@[simp] theorem logTake_reg (d : Dev) (o : LogOffer) (off : Nat) : (d.logTake o).reg off = d.reg off := by
  simp [Dev.reg]

/-- Recording an escalation leaves the offers to the log that wait. -/
@[simp] theorem raise_intake (d : Dev) (e : Escalation) : (d.raise e).log.intake = d.log.intake := by
  unfold Dev.raise
  dsimp only
  split <;> split <;> simp

/-- Recording an escalation changes its counter, CHIP_ERR_PENDING and CHIP_ERR_FIRST alone among the registers. -/
theorem raise_reg_other (d : Dev) (e : Escalation) {o : Nat} (hc : o ≠ chipErrCount e.cls) (hp : o ≠ chipErrPending)
    (hf : o ≠ chipErrFirst) : (d.raise e).reg o = d.reg o := by
  have hchip : ∀ (d : Dev) (x : ChipState), ({ d with chip := x } : Dev).reg o = d.reg o := fun _ _ => rfl
  unfold Dev.raise
  dsimp only
  split <;> split <;>
    simp only [hchip, reg_setRbit_other _ hp, reg_setReg_other _ hf, reg_count_other _ hc, logTake_reg]

/-- Recording an escalation leaves the action of every class. -/
theorem raise_actionOf (d : Dev) (e : Escalation) {c : Nat} (hc : c < 32) : (d.raise e).actionOf c = d.actionOf c := by
  have hreg : (d.raise e).reg (chipErrPolicy (c / 8)) = d.reg (chipErrPolicy (c / 8)) := by
    apply raise_reg_other <;> simp only [chipErrPolicy, chipErrCount, chipErrPending, chipErrFirst] <;> omega
  simp only [Dev.actionOf, Dev.policy, Dev.fld, hreg]

/-- An escalation whose class has no action is recorded, and nothing follows (R30). -/
theorem escalateNow_recorded {d : Dev} {c : Nat} (hc : c < 32) (h : d.actionOf c = 0) (src : Nat) (p : Path) (x : List Byte) :
    d.escalateNow c src p x = d.raise { cls := c, source := src, path := p, data := x } := by
  have hact := (raise_actionOf d { cls := c, source := src, path := p, data := x } hc).trans h
  simp [Dev.escalateNow, Dev.escalateAll, insSort, insOne, Dev.freezeFor, hact]

/-- Escalations that leave no offer to the log waiting are all that the end of a command adds. -/
theorem flush_raised {d : Dev} (hr : d.raised ≠ []) (hi : ({ d with raised := [] }.escalateAll d.raised).log.intake = []) :
    d.flush = { d with raised := [] }.escalateAll d.raised := by
  simp only [Dev.flush, if_neg hr, hi, if_true]

/-- The only escalation of a command, of a class without action, reaches the policy engine at the end of the command. -/
theorem flush_escalate {d : Dev} (hq : d.Quiet) {c : Nat} (hc : c < 32) (h : d.actionOf c = 0) (src : Nat) (p : Path)
    (x : List Byte) : (d.escalate c src p x).flush = d.escalateNow c src p x := by
  obtain ⟨hr, hi⟩ := hq
  have hd : ({ d.escalate c src p x with raised := [] } : Dev) = d := by rw [Dev.escalate, ← hr]
  have hraised : (d.escalate c src p x).raised = [{ cls := c, source := src, path := p, data := x }] := by
    simp [Dev.escalate, hr]
  have hgroup : ({ d.escalate c src p x with raised := [] } : Dev).escalateAll (d.escalate c src p x).raised =
      d.escalateNow c src p x := by rw [hd, hraised, Dev.escalateNow]
  have hintake : (d.escalateNow c src p x).log.intake = [] := by
    rw [escalateNow_recorded hc h, raise_intake, hi]
  rw [flush_raised (by simp [hraised]) (by rw [hgroup, hintake]), hgroup]

/-! ## Bits of a word -/

theorem bit_eq_getLsbD {n : Nat} (w : BitVec n) (i : Nat) : bit w i = w.getLsbD i := rfl

/-- The single-bit field that `setBit` places. -/
theorem getLsbD_ofNat_bit {n : Nat} (i j : Nat) (b : Bool) :
    (BitVec.ofNat n (b2n b % 2 ^ 1 * 2 ^ i)).getLsbD j = (decide (j < n) && b && decide (i = j)) := by
  rw [BitVec.getLsbD_ofNat]
  cases b
  · rw [show b2n false % 2 ^ 1 * 2 ^ i = 0 from Nat.zero_mul _, Nat.zero_testBit, Bool.and_false, Bool.false_and]
  · rw [show b2n true % 2 ^ 1 * 2 ^ i = 2 ^ i from Nat.one_mul _, Nat.testBit_two_pow, Bool.and_true]

/-- The mask of a single bit. -/
theorem getLsbD_mask_one {n : Nat} (i j : Nat) :
    (mask i 1 : BitVec n).getLsbD j = (decide (j < n) && decide (i = j)) := by
  rw [mask, BitVec.getLsbD_ofNat, show (2 ^ 1 - 1) * 2 ^ i = 2 ^ i from Nat.one_mul _, Nat.testBit_two_pow]

/-- Setting a bit changes that bit alone. -/
theorem bit_setBit {n : Nat} (w : BitVec n) {i : Nat} (hi : i < n) (b : Bool) (j : Nat) :
    bit (setBit w i b) j = if j = i then b else bit w j := by
  simp only [setBit, setBits, bit_eq_getLsbD, BitVec.getLsbD_or, BitVec.getLsbD_and, BitVec.getLsbD_not, getLsbD_mask_one,
    getLsbD_ofNat_bit]
  by_cases hj : j = i
  · subst hj; simp [hi]
  · have hle : w.getLsbD j = true → j < n := BitVec.lt_of_getLsbD
    cases hw : w.getLsbD j <;> simp [hj, Ne.symm hj, hle, hw]

theorem rbit_setRbit (d : Dev) {i : Nat} (hi : i < 32) (off : Nat) (b : Bool) (j : Nat) :
    (d.setRbit off i b).rbit off j = if j = i then b else d.rbit off j := by
  rw [Dev.rbit, reg_setRbit_same, bit_setBit _ hi]
  rfl

/-- Setting the top bit of a word that lies below it adds that bit. -/
theorem toNat_setBit_top {w : Word} (h : w.toNat < 2 ^ 31) (b : Bool) :
    (setBit w 31 b).toNat = w.toNat + if b then 2 ^ 31 else 0 := by
  have hclear : w &&& ~~~(mask 31 1) = w := by
    apply BitVec.eq_of_getLsbD_eq
    intro j hlt
    have htop : w.getLsbD 31 = false := Nat.testBit_lt_two_pow h
    rw [BitVec.getLsbD_and, BitVec.getLsbD_not, getLsbD_mask_one]
    by_cases hj : j = 31
    · rw [hj, htop, Bool.false_and]
    · simp only [hlt, Ne.symm hj, decide_true, decide_false, Bool.and_false, Bool.not_false, Bool.and_true]
  rw [setBit, setBits, hclear, BitVec.toNat_or]
  cases b
  · simp [b2n]
  · have hor := Nat.two_pow_add_eq_or_of_lt h 1
    simp only [b2n, if_true]
    rw [Nat.or_comm, Nat.add_comm]
    exact hor.symm

/-! ## Statistics counters (R11) -/

theorem stat_add_fits {c : Stat} {n : Nat} (h : c.count.toNat + n ≤ 0xFFFFFFFFFFFF) :
    c.add n = { c with count := BitVec.ofNat 48 (c.count.toNat + n) } := if_pos h

theorem stat_add_lost {c : Stat} {n : Nat} (h : 0xFFFFFFFFFFFF < c.count.toNat + n) :
    c.add n = { count := 0xFFFFFFFFFFFF, sat := true } := if_neg (Nat.not_le.mpr h)

/-- The high word of a statistics counter is bits [47:32] of its count, with SAT in bit 31. -/
theorem stat_high_toNat (c : Stat) : c.high.toNat = c.count.toNat / 2 ^ 32 + if c.sat then 2 ^ 31 else 0 := by
  have hlt : c.count.toNat < 2 ^ 48 := c.count.isLt
  have hword : (BitVec.ofNat 32 (c.count.toNat / 2 ^ 32)).toNat = c.count.toNat / 2 ^ 32 := by
    rw [BitVec.toNat_ofNat]; omega
  rw [Stat.high, toNat_setBit_top (by omega), hword]

theorem toNat_ofNat_min (x : Nat) : (BitVec.ofNat 32 (min x 0xFFFFFFFF)).toNat = min x 0xFFFFFFFF := by
  rw [BitVec.toNat_ofNat]; omega

/-! ## Plain writes (R18, R19, R642) -/

section
variable (m old v : Word) {i : Nat} (hi : i < 32)
include hi

theorem getLsbD_write_rw :
    (Access.rw.write m old v).getLsbD i = if m.getLsbD i then v.getLsbD i else old.getLsbD i := by
  simp only [Access.write, BitVec.getLsbD_or, BitVec.getLsbD_and, BitVec.getLsbD_not, hi]
  cases m.getLsbD i <;> simp

theorem getLsbD_write_w1c :
    (Access.w1c.write m old v).getLsbD i = (old.getLsbD i && !(m.getLsbD i && v.getLsbD i)) := by
  simp only [Access.write, BitVec.getLsbD_and, BitVec.getLsbD_not, hi, decide_true, Bool.true_and,
    Bool.and_comm (v.getLsbD i)]

omit hi in
theorem getLsbD_write_w1s :
    (Access.w1s.write m old v).getLsbD i = (old.getLsbD i || (m.getLsbD i && v.getLsbD i)) := by
  simp only [Access.write, BitVec.getLsbD_or, BitVec.getLsbD_and, Bool.and_comm (v.getLsbD i)]

end

/-- A write of a register without behaviour of its own is by its access type. -/
theorem plainWrite_mapped (d : Dev) {off : Nat} {r : RegRow} (hr : regRow off = some r) (v : Word) :
    d.plainWrite off v = d.setReg off (r.acc.write r.mask (d.reg off) v) := by
  simp [Dev.plainWrite, hr]

/-- A write of the PWR_ block by the hive. -/
theorem blockWrite_power (d : Dev) (r : RegRow) {off : Nat} (hlo : 0x020000 ≤ off) (hhi : off < 0x030000) (v : Word) :
    d.blockWrite 0 r off v = d.powerWrite off v := by
  rw [Dev.blockWrite, if_neg (by omega), if_neg (by omega), if_pos hhi, hiveWrite, if_pos rfl]

/-! ## The access commands (R46, R48, R73) -/

/-- Every access command of the control bus ends as an access of its identity (R73). -/
theorem exec_busIdentity {c : Instr} {id : Fin 13} (h : busIdentity c = some id) (s : State) :
    ∃ d, exec c s = finishBy id s d := by
  cases c <;> cases h <;> exact ⟨_, rfl⟩

/-- A write of a CHIP_ register is the hive's alone. -/
theorem busWrite_chip (d : Dev) (id : Fin 13) {off : Nat} {r : RegRow} (h4 : off % 4 = 0) (hr : regRow off = some r)
    (hoff : off < 0x010000) (v : Word) :
    d.busWrite id off false v = hiveWrite d id off (fun d => d.chipWrite id off v) := by
  rw [busWrite_mapped d id h4 hr, Dev.blockWrite, if_pos hoff]

/-- The two names of a write that is the hive's alone are one function. -/
theorem hiveOnly_eq_hiveWrite (d : Dev) (id : Fin 13) (off : Nat) (f : Dev → Dev) :
    hiveOnly d id off f = hiveWrite d id off f := rfl

/-- A command that writes a register of the hive's is the hive's write of it: the CHIP_ commands by the bus, the others
of themselves. -/
theorem exec_hiveOffset {c : Instr} {id : Fin 13} {off : Nat} (h : busIdentity c = some id)
    (ho : hiveOffset c = some off) (s : State) :
    ∃ f, exec c s = finishBy id s (hiveWrite s.dev id off f) := by
  cases c <;> cases ho <;> cases h
  case chipErrLock | chipErrPendingClear | chipErrInject =>
    exact ⟨_, congrArg (finishBy id s) (busWrite_chip s.dev id rfl rfl (by decide) _)⟩
  case rgnCtrlFreeze | rgnCtrlThaw | rgnFaultClear =>
    exact ⟨_, congrArg (finishBy id s) (hiveOnly_eq_hiveWrite s.dev id _ _)⟩
  all_goals exact ⟨_, rfl⟩

/-- A write of a register of the hive's by a control port is refused (R49). -/
theorem hiveWrite_port (d : Dev) {id : Fin 13} (h : id ≠ 0) (off : Nat) (f : Dev → Dev) :
    hiveWrite d id off f = d.ctrlDecode id.val true false off := if_neg h

/-! ## PPS_OUT (R281) -/

/-- A pulse starts where PPS_OUT may pulse, no pulse runs and device time counts. -/
theorem execPpsOutPulse_starts {s : State} (hon : s.dev.ppsOn = true) (hout : s.dev.time.ppsOut = none)
    (hrun : s.dev.time.running = true) :
    let d := s.dev.reachAhead s.dev.ppsNext
    execPpsOutPulse s = .next (s.after { d with time := { d.time with
      ppsOut := some (d.time.uptime + BitVec.ofNat 96 (1000 * s.dev.fld timePpsOutCtrl 0 20 * 2 ^ 32)) } }) := by
  simp only [execPpsOutPulse, hon, hout, hrun, Dev.cond, Option.isNone_none, Bool.and_self, if_true]
  rfl

theorem execPpsOutPulse_stays {s : State}
    (h : s.dev.ppsOn = false ∨ s.dev.time.ppsOut ≠ none ∨ s.dev.time.running = false) :
    execPpsOutPulse s = .next (s.after s.dev) := by
  have hcond : (s.dev.ppsOn && s.dev.time.ppsOut.isNone && s.dev.time.running) = false := by
    rcases h with h | h | h
    · rw [h, Bool.false_and, Bool.false_and]
    · rw [Option.isNone_eq_false_iff.mpr (Option.isSome_iff_ne_none.mpr h), Bool.and_false, Bool.false_and]
    · rw [h, Bool.and_false]
  simp only [execPpsOutPulse, hcond, Dev.cond]
  rfl

theorem execPpsOutPulseEnd_ends {s : State} {x : Time96} (h : s.dev.time.ppsOut = some x) :
    execPpsOutPulseEnd s = .next (s.after { s.dev with time :=
      { s.dev.time.pass (x.toNat - s.dev.time.uptime.toNat) with ppsOut := none } }) := by
  rw [execPpsOutPulseEnd, h]
  rfl

theorem execPpsOutPulseEnd_stays {s : State} (h : s.dev.time.ppsOut = none) :
    execPpsOutPulseEnd s = .next (s.after s.dev) := by
  rw [execPpsOutPulseEnd, h]
  rfl

/-- Where the count of ns does not wrap, a pulse starts the rest of a second after the first whole ns not before now. -/
theorem ppsNext_unwrapped {d : Dev} (h : d.time.now.toNat / 2 ^ 32 + 1000000001 < 2 ^ 64) :
    let n := d.time.now.toNat / 2 ^ 32
    let up := if d.time.now.toNat % 2 ^ 32 = 0 then 0 else 1
    d.ppsNext = up + (((d.reg timePpsOutOffset).toInt - ((n + up : Nat) : Int)) % 1000000000).toNat := by
  intro n up
  have hup : up ≤ 1 := by dsimp only [up]; split <;> omega
  have hgo : (((d.reg timePpsOutOffset).toInt - ((n + up : Nat) : Int)) % 1000000000).toNat < 1000000000 := by omega
  exact if_pos (show n + (up + (((d.reg timePpsOutOffset).toInt - ((n + up : Nat) : Int)) % 1000000000).toNat) < 2 ^ 64 by omega)

/-- The next pulse starts not before now and within a second, at a whole second from OFFSET (R281). -/
theorem ppsNext_spec {d : Dev} (h : d.time.now.toNat / 2 ^ 32 + 1000000001 < 2 ^ 64) :
    let at_ := d.time.now.toNat / 2 ^ 32 + d.ppsNext
    d.time.now.toNat ≤ at_ * 2 ^ 32 ∧ at_ * 2 ^ 32 < d.time.now.toNat + (1000000000 + 1) * 2 ^ 32 ∧
    ((at_ : Int) - (d.reg timePpsOutOffset).toInt) % 1000000000 = 0 := by
  rw [ppsNext_unwrapped h]
  generalize (d.reg timePpsOutOffset).toInt = off
  generalize d.time.now.toNat = now
  dsimp only
  split <;> omega

/-! ## PPS_IN (R282) -/

section
variable (d : Dev)

/-- The stamp of an edge: the overflow bit where a stamp waited, the time, TS_VALID and the count (R282). -/
def Dev.ppsStamp (t : Time96) : Dev :=
  let d := if d.rbit timeEvent 1 then d.setRbit timeEvent 2 true else d
  let d := ((d.setReg (timePpsInTs 0) (BitVec.ofNat 32 (nsOf t))).setReg (timePpsInTs 1)
    (BitVec.ofNat 32 (nsOf t / 2 ^ 32))).setReg (timePpsInTs 2) (BitVec.ofNat 32 (fracOf t))
  (d.setRbit timeEvent 1 true).count timePpsInCount

variable (t : Time96)

/-- A stamp does not read the time base and leaves it. -/
theorem ppsStamp_with_time (x : TimeState) :
    ({ d with time := x } : Dev).ppsStamp t = { d.ppsStamp t with time := x } := by
  unfold Dev.ppsStamp
  by_cases h : d.rbit timeEvent 1 = true
  · simp only [show ({ d with time := x } : Dev).rbit timeEvent 1 = true from h, h, if_true]
    rfl
  · simp only [show ¬ ({ d with time := x } : Dev).rbit timeEvent 1 = true from h, h]
    rfl

@[simp] theorem ppsStamp_raised : (d.ppsStamp t).raised = d.raised := by
  unfold Dev.ppsStamp
  dsimp only
  split <;> simp

@[simp] theorem ppsStamp_log : (d.ppsStamp t).log = d.log := by
  unfold Dev.ppsStamp
  dsimp only
  split <;> simp

/-- A stamp leaves every register but its own, TIME_EVENT and the count. -/
theorem ppsStamp_reg_other {o : Nat} (he : o ≠ timeEvent) (hc : o ≠ timePpsInCount)
    (ht : ∀ i, i < 3 → o ≠ timePpsInTs i) : (d.ppsStamp t).reg o = d.reg o := by
  unfold Dev.ppsStamp
  dsimp only
  rw [reg_count_other _ hc, reg_setRbit_other _ he, reg_setReg_other _ (ht 2 (by decide)), reg_setReg_other _ (ht 1 (by decide)),
    reg_setReg_other _ (ht 0 (by decide))]
  split
  · rw [reg_setRbit_other _ he]
  · rfl

theorem ppsStamp_count :
    (d.ppsStamp t).reg timePpsInCount = BitVec.ofNat 32 (min ((d.reg timePpsInCount).toNat + 1) 0xFFFFFFFF) := by
  unfold Dev.ppsStamp
  dsimp only
  rw [reg_count_same, reg_setRbit_other _ (by decide), reg_setReg_other _ (by decide), reg_setReg_other _ (by decide),
    reg_setReg_other _ (by decide)]
  split
  · rw [reg_setRbit_other _ (by decide)]
  · rfl

theorem ppsStamp_ts0 : (d.ppsStamp t).reg (timePpsInTs 0) = BitVec.ofNat 32 (nsOf t) := by
  unfold Dev.ppsStamp
  dsimp only
  rw [reg_count_other _ (by decide), reg_setRbit_other _ (by decide), reg_setReg_other _ (by decide),
    reg_setReg_other _ (by decide), reg_setReg_same]

theorem ppsStamp_ts1 : (d.ppsStamp t).reg (timePpsInTs 1) = BitVec.ofNat 32 (nsOf t / 2 ^ 32) := by
  unfold Dev.ppsStamp
  dsimp only
  rw [reg_count_other _ (by decide), reg_setRbit_other _ (by decide), reg_setReg_other _ (by decide), reg_setReg_same]

theorem ppsStamp_ts2 : (d.ppsStamp t).reg (timePpsInTs 2) = BitVec.ofNat 32 (fracOf t) := by
  unfold Dev.ppsStamp
  dsimp only
  rw [reg_count_other _ (by decide), reg_setRbit_other _ (by decide), reg_setReg_same]

/-- A word holds the whole fraction of a nanosecond. -/
theorem ofNat_fracOf : BitVec.ofNat 32 (fracOf t) = BitVec.ofNat 32 t.toNat :=
  BitVec.eq_of_toNat_eq (by rw [BitVec.toNat_ofNat, BitVec.toNat_ofNat, fracOf, Nat.mod_mod])

/-- TIME_EVENT after a stamp: TS_VALID, and the overflow bit where a stamp waited. -/
theorem ppsStamp_event (j : Nat) : (d.ppsStamp t).rbit timeEvent j =
    if j = 1 then true else if j = 2 then d.rbit timeEvent 2 || d.rbit timeEvent 1 else d.rbit timeEvent j := by
  have hts : ∀ (d : Dev) (a b c : Word), (((d.setReg (timePpsInTs 0) a).setReg (timePpsInTs 1) b).setReg
      (timePpsInTs 2) c).rbit timeEvent j = d.rbit timeEvent j := by
    intro d a b c
    rw [Dev.rbit, reg_setReg_other _ (by decide), reg_setReg_other _ (by decide), reg_setReg_other _ (by decide), Dev.rbit]
  unfold Dev.ppsStamp
  dsimp only
  rw [Dev.rbit, reg_count_other _ (by decide), ← Dev.rbit, rbit_setRbit _ (by decide), hts]
  split
  · rfl
  · split
    · next hwait =>
      rw [rbit_setRbit _ (by decide), hwait, Bool.or_true]
    · next hwait =>
      by_cases h2 : j = 2
      · simp [h2, hwait]
      · simp [h2]

end

/-- An edge to the level that the pin holds is none. -/
theorem ppsInEdge_same {d : Dev} {rising : Bool} (skew : BitVec 35) (hin : d.time.ppsIn = rising) :
    d.ppsInEdge rising skew = d := if_pos hin

/-- Another edge than the chosen one, or one with stamping off, changes the level alone. -/
theorem ppsInEdge_unstamped {d : Dev} {rising : Bool} (skew : BitVec 35) (hin : d.time.ppsIn ≠ rising)
    (h : d.rbit timePpsInCtrl 31 = false ∨ d.rbit timePpsInCtrl 30 = rising) :
    d.ppsInEdge rising skew = { d with time := { d.time with ppsIn := rising } } := by
  have hcond : ¬ (d.rbit timePpsInCtrl 31 && (d.rbit timePpsInCtrl 30 != rising)) = true := by
    rcases h with h | h <;> simp [h]
  exact (if_neg hin).trans (if_neg hcond)

/-- The device after a stamped edge to the level `rising`: the stamp, the level, and the interrupt where it is enabled. -/
def Dev.ppsStamped (d : Dev) (rising : Bool) (t : Time96) : Dev :=
  { d.ppsStamp t with time := { d.time with ppsIn := rising, ppsIrq := d.time.ppsIrq || d.rbit timePpsInCtrl 29 } }

theorem quiet_ppsStamped {d : Dev} (h : d.Quiet) (rising : Bool) (t : Time96) : (d.ppsStamped rising t).Quiet :=
  ⟨(ppsStamp_raised d t).trans h.1, (congrArg LogState.intake (ppsStamp_log d t)).trans h.2⟩

@[simp] theorem ppsStamped_reg (d : Dev) (rising : Bool) (t : Time96) (o : Nat) :
    (d.ppsStamped rising t).reg o = (d.ppsStamp t).reg o := rfl
@[simp] theorem ppsStamped_rbit (d : Dev) (rising : Bool) (t : Time96) (o i : Nat) :
    (d.ppsStamped rising t).rbit o i = (d.ppsStamp t).rbit o i := rfl

/-- The chosen edge, with stamping enabled, is stamped and raises the interrupt where that is enabled (R282). -/
theorem ppsInEdge_stamped {d : Dev} {rising : Bool} (skew : BitVec 35) (hin : d.time.ppsIn ≠ rising)
    (hen : d.rbit timePpsInCtrl 31 = true) (hpol : d.rbit timePpsInCtrl 30 = !rising) :
    d.ppsInEdge rising skew = d.ppsStamped rising (d.time.now + skew.signExtend 96) := by
  have hcond : (d.rbit timePpsInCtrl 31 && (d.rbit timePpsInCtrl 30 != rising)) = true := by simp [hen, hpol]
  have hirq : (d.ppsStamp (d.time.now + skew.signExtend 96)).rbit timePpsInCtrl 29 = d.rbit timePpsInCtrl 29 := by
    rw [Dev.rbit, ppsStamp_reg_other _ _ (by decide) (by decide) (by decide), Dev.rbit]
  have hbody : d.ppsInEdge rising skew =
      let e := ({ d with time := { d.time with ppsIn := rising } } : Dev).ppsStamp (d.time.now + skew.signExtend 96)
      if e.rbit timePpsInCtrl 29 then { e with time := { e.time with ppsIrq := true } } else e :=
    (if_neg hin).trans (if_pos hcond)
  rw [hbody, ppsStamp_with_time, Dev.ppsStamped]
  dsimp only
  rw [show (({ d.ppsStamp (d.time.now + skew.signExtend 96) with time := { d.time with ppsIn := rising } } : Dev).rbit
    timePpsInCtrl 29) = d.rbit timePpsInCtrl 29 from hirq]
  split
  · next h => rw [h, Bool.or_true]
  · next h => rw [Bool.eq_false_iff.mpr h, Bool.or_false]

/-! ## The statements -/

/-- Settles O22: each form of the commands of the PPS pins, and the instant at which the next pulse starts. -/
theorem pulsePerSecondPins : Obligations.PulsePerSecondPins := by
  unfold Obligations.PulsePerSecondPins
  refine ⟨?_, ?_, ?_, ?_, ?_, ?_, ?_, ?_⟩
  · exact fun s hon hout hrun => execPpsOutPulse_starts hon hout hrun
  · exact fun s h => execPpsOutPulse_stays h
  · exact fun x s hx => execPpsOutPulseEnd_ends hx
  · exact fun s hx => execPpsOutPulseEnd_stays hx
  · intro rising skew s hin
    exact congrArg (finish s) (ppsInEdge_same skew hin)
  · intro rising skew s hq hin hen hpol n
    refine ⟨_, congrArg (finish s) (ppsInEdge_stamped skew hin hen hpol), ?_⟩
    rw [← State.after, after_dev_quiet s (quiet_ppsStamped hq _ _)]
    simp only [settle_time, settle_reg, settle_rbit, ppsStamped_reg, ppsStamped_rbit]
    refine ⟨rfl, ppsStamp_ts0 _ _, ?_, ?_, ppsStamp_event _ _ 1, ppsStamp_event _ _ 2, ?_, ?_⟩
    · exact (ppsStamp_ts1 _ _).trans (congrArg (BitVec.ofNat 32) (Nat.div_div_eq_div_mul _ _ _))
    · exact (ppsStamp_ts2 _ _).trans (ofNat_fracOf _)
    · rw [ppsStamp_count, toNat_ofNat_min]
    · exact fun o he hc ht => ppsStamp_reg_other _ _ he hc ht
  · intro rising skew s hin h
    exact congrArg (finish s) (ppsInEdge_unstamped skew hin h)
  · exact fun d h => ppsNext_spec h

/-- Settles O34: the bus finds no register, and the escalation that it raises is the only one of its command. -/
theorem unmappedAccessReadsZeroAndIsReported : Obligations.UnmappedAccessReadsZeroAndIsReported := by
  unfold Obligations.UnmappedAccessReadsZeroAndIsReported
  refine ⟨?_, ?_, fun _ _ _ => rfl, fun d hq ha x => flush_escalate hq (by decide) ha _ _ x⟩
  · intro id off s hp h4 hr
    rw [rcRead_runs hp, readInto_unmapped _ _ h4 hr]
    rfl
  · intro id off v s hp h4 hr
    rw [registerWrite_runs hp, busWrite_unmapped _ _ h4 hr]
    rfl

/-- Settles O35: an access of another width or alignment is a bad access, which the bus turns into the escalation. -/
theorem wrongWidthOrAlignmentIsRefused : Obligations.WrongWidthOrAlignmentIsRefused := by
  unfold Obligations.WrongWidthOrAlignmentIsRefused
  refine ⟨?_, ?_⟩
  · intro id off narrow v s hp hbad
    rw [registerWrite_runs hp, busWrite_bad _ _ (badAccess_of hbad)]
    rfl
  · intro id off narrow s hp hbad
    rw [rcRead_runs hp, readInto_bad _ _ (badAccess_of hbad)]
    rfl

/-- Settles O36: the write of a PWR_ register is a plain write, and each access type says what becomes of a bit. -/
theorem plainWritesFollowTheAccessTypes : Obligations.PlainWritesFollowTheAccessTypes := by
  unfold Obligations.PlainWritesFollowTheAccessTypes
  rintro off r v s hq h4 ⟨hlo, hhi⟩ hcap hr
  refine ⟨_, registerWrite_runs (portIdle_hive _) off false v, ?_⟩
  rw [busWrite_mapped _ _ h4 hr, blockWrite_power _ _ hlo hhi, Dev.powerWrite, if_neg hcap, plainWrite_mapped _ hr,
    after_dev_quiet s (d := s.dev.setReg _ _) hq]
  refine ⟨?_, fun o ho => reg_setReg_other _ ho _⟩
  intro i hi
  rw [settle_reg, reg_setReg_same]
  generalize r.acc = a
  cases a
  case rw | perId => exact getLsbD_write_rw _ _ _ hi
  case w1c => exact getLsbD_write_w1c _ _ _ hi
  case w1s => exact getLsbD_write_w1s _ _ _
  all_goals rfl

/-- Settles O37: below the blocks whose reads have behaviour of their own, the access type says what a read does. -/
theorem readOfAnRcRegisterClearsIt : Obligations.ReadOfAnRcRegisterClearsIt := by
  unfold Obligations.ReadOfAnRcRegisterClearsIt
  refine ⟨?_, ?_⟩
  · intro id off r s hp hq h4 hr ha hok hlt
    refine ⟨_, rcRead_runs hp off false, ?_⟩
    rw [readInto_mapped _ _ h4 hr hok, readReg_rc _ _ (readsByType_of_lt hlt) ha,
      after_dev_quiet s (d := (s.dev.setReg _ _).setRead _ _) hq]
    exact ⟨readData_setRead _ _ _, reg_setReg_same _ _ _, fun o ho => reg_setReg_other _ ho _⟩
  · intro id off r s hp hq h4 hr ha hok hlt hv
    refine ⟨_, rcRead_runs hp off false, ?_⟩
    rw [readInto_mapped _ _ h4 hr hok, readReg_stored _ _ (readsByType_of_lt hlt) ha hv,
      after_dev_quiet s (d := s.dev.setRead _ _) hq]
    exact ⟨readData_setRead _ _ _, fun _ => rfl⟩

/-- Settles O38: the low word fills the reader's own copy of the high word, which a read of the high word returns. -/
theorem statisticsReadsLatchPerRequester : Obligations.StatisticsReadsLatchPerRequester := by
  unfold Obligations.StatisticsReadsLatchPerRequester
  refine ⟨?_, ?_⟩
  · intro id off r s hp hq h4 hr ha hok c
    have hc : s.dev.counterRead off.toNat = c := rfl
    refine ⟨_, statLowRead_runs hp off, ?_⟩
    rw [readInto_mapped _ _ h4 hr hok, readReg_lowWord _ _ hr ha, hc,
      after_dev_quiet s (quiet_setRead (quiet_setIdReg hq))]
    refine ⟨readData_setRead _ _ _, ?_, ?_, ?_, ?_⟩
    · rw [settle_idReg, setRead_idReg, idReg_setIdReg_same, stat_high_toNat]
    · intro id' hid
      rw [settle_idReg, setRead_idReg, idReg_setIdReg_other _ (idKey_ne (Fin.val_ne_of_ne hid) _)]
    · intro o
      rw [settle_stat, setRead_stat, stat_setIdReg]
    · rw [settle_fab, setRead_fab, setIdReg_fab]
  · intro id off r s hp hq h4 hr ha hok
    refine ⟨_, rcRead_runs hp off false, ?_⟩
    rw [readInto_mapped _ _ h4 hr hok, readReg_highWord _ _ hr ha,
      after_dev_quiet s (d := s.dev.setRead _ _) hq]
    exact ⟨readData_setRead _ _ _, fun _ _ => rfl⟩

/-- Settles O39: a statistics counter by whether the largest value is passed, the other counters by the word they write. -/
theorem statisticsCountersSaturate : Obligations.StatisticsCountersSaturate := by
  unfold Obligations.StatisticsCountersSaturate
  refine ⟨?_, ?_, ?_, ?_⟩
  · intro c n h
    rw [stat_add_fits h]
    refine ⟨?_, rfl⟩
    rw [BitVec.toNat_ofNat]; omega
  · intro c n h
    rw [stat_add_lost h]
    exact ⟨rfl, rfl⟩
  · intro d off n
    refine ⟨?_, fun o ho => reg_count_other d ho n⟩
    rw [reg_count_same, toNat_ofNat_min]
  · intro d off
    refine ⟨?_, fun o ho => reg_seqUp_other d ho⟩
    rw [reg_seqUp_same, BitVec.toNat_add]
    rfl

/-- Settles O41: by the bus for a register write, and by the commands' shared ends for the rest. -/
theorem registerWritesReachTheirBlock : Obligations.RegisterWritesReachTheirBlock := by
  unfold Obligations.RegisterWritesReachTheirBlock
  refine ⟨?_, ?_, ?_, fun _ _ => rfl⟩
  · intro id off r v s hp h4 hr
    rw [← busWrite_mapped s.dev id h4 hr]
    exact finishBy_active hp _
  · intro c id off s hid ho h0 hp
    obtain ⟨f, hf⟩ := exec_hiveOffset hid ho s
    rw [hf, finishBy_active hp, hiveWrite_port _ h0]
    rfl
  · intro c id s hid hp
    obtain ⟨d, hd⟩ := exec_busIdentity hid s
    rw [hd, finishBy_idle hp]

end Sys2Proof.Machine
end

/-! PROOFS. What holds between commands: the policy engine escalates nothing of itself, so that the end of every command
leaves neither escalation nor log entry waiting, and a cycle in which no command waits changes nothing of it. -/
section
namespace Sys2Proof.Machine

/-! ## What an operation over a list leaves alone -/

/-- What each turn leaves alone, the whole pass leaves alone. -/
theorem forEach_frame {α β : Type} (g : Dev → β) {f : Dev → α → Dev} (h : ∀ d x, g (f d x) = g d) :
    ∀ (xs : List α) (d : Dev), g (d.forEach xs f) = g d
  | [], _ => rfl
  | x :: xs, d => (forEach_frame g h xs (f d x)).trans (h d x)

@[simp] theorem forEach_raised {α : Type} {f : Dev → α → Dev} (h : ∀ d x, (f d x).raised = d.raised) (xs : List α) (d : Dev) :
    (d.forEach xs f).raised = d.raised := forEach_frame Dev.raised h xs d

@[simp] theorem cond_raised {f : Dev → Dev} (h : ∀ d, (f d).raised = d.raised) (b : Bool) (d : Dev) :
    (d.cond b f).raised = d.raised := by
  cases b with
  | false => rfl
  | true => exact h d

@[simp] theorem foldl_raised {α : Type} {f : Dev → α → Dev} (h : ∀ d x, (f d x).raised = d.raised) (xs : List α) (d : Dev) :
    (xs.foldl f d).raised = d.raised := forEach_raised h xs d

/-! ## Messages at an ingress (R124 to R127) -/

@[simp] theorem setIng_raised (d : Dev) (e : Nat) (x : Ingress) : (d.setIng e x).raised = d.raised := rfl
@[simp] theorem setFraming_raised (d : Dev) (e f : Nat) (x : Framing) : (d.setFraming e f x).raised = d.raised := rfl
@[simp] theorem enqueue_raised (d : Dev) (e : Nat) (c : Cell) : (d.enqueue e c).raised = d.raised := rfl
@[simp] theorem markErr_raised (d : Dev) (e f : Nat) : (d.markErr e f).raised = d.raised := rfl
@[simp] theorem igDiscard_raised (d : Dev) (e : Nat) : (d.igDiscard e).raised = d.raised := by simp [Dev.igDiscard]

@[simp] theorem takeFramed_raised (d : Dev) (e : Nat) (c : Cell) : (d.takeFramed e c).raised = d.raised := by
  simp [Dev.takeFramed, apply_ite Dev.raised]

/-- A cell that is taken or discarded escalates nothing. -/
@[simp] theorem takeCell_raised (d : Dev) (e : Nat) (c : Cell) : (d.takeCell e c).raised = d.raised := by
  simp [Dev.takeCell, apply_ite Dev.raised]

@[simp] theorem feedOne_raised (d : Dev) (e : Nat) : (d.feedOne e).raised = d.raised := by
  unfold Dev.feedOne
  dsimp only
  split
  · split <;> simp
  · rfl

@[simp] theorem sendMessage_raised (d : Dev) (e f : Nat) (cls : BitVec 2) (aspace : BitVec 6) (bs : List Byte) :
    (d.sendMessage e f cls aspace bs).raised = d.raised := by
  simp [Dev.sendMessage, Dev.feed, Dev.postMessage]

/-! ## The scheduler's part of a freeze (R455, R461, R465, R466) -/

@[simp] theorem setThread_raised (d : Dev) (i : Nat) (t : Thread) : (d.setThread i t).raised = d.raised := rfl
@[simp] theorem setDport_raised (d : Dev) (p : Nat) (x : DispPort) : (d.setDport p x).raised = d.raised := rfl
@[simp] theorem makeReady_raised (d : Dev) (i result : Nat) : (d.makeReady i result).raised = d.raised := rfl

@[simp] theorem makeReadyFirst_raised (d : Dev) (i result : Nat) : (d.makeReadyFirst i result).raised = d.raised := by
  unfold Dev.makeReadyFirst
  dsimp only
  split <;> simp

@[simp] theorem portFreeze_raised (d : Dev) (p : Fin 32) : (d.portFreeze p).raised = d.raised := by
  simp [Dev.portFreeze, apply_ite Dev.raised]

@[simp] theorem freezePorts_raised (d : Dev) (n : Nat) : (d.freezePorts n).raised = d.raised := by simp [Dev.freezePorts]

@[simp] theorem dispatch_raised (d : Dev) (p : Fin 32) (i : Nat) : (d.dispatch p i).raised = d.raised := by
  simp [Dev.dispatch, Dev.portResult]

@[simp] theorem serveTakeNext_raised (d : Dev) : (d.serveTakeNext).raised = d.raised := by
  refine forEach_raised (fun d p => ?_) _ d
  split
  · split <;> simp
  · rfl

@[simp] theorem sendJob_raised (d : Dev) : (d.sendJob).raised = d.raised := by
  unfold Dev.sendJob
  dsimp only
  split <;> simp

@[simp] theorem startJob_raised (d : Dev) (i : Nat) (j : SpillJob) : (d.startJob i j).raised = d.raised := by
  simp [Dev.startJob]

@[simp] theorem startSpill_raised (d : Dev) (i : Nat) : (d.startSpill i).raised = d.raised := by
  unfold Dev.startSpill
  split <;> simp

@[simp] theorem balance_raised (d : Dev) : (d.balance).raised = d.raised := by
  unfold Dev.balance
  split
  · rfl
  · split
    · rfl
    · split
      · simp
      · split <;> simp [apply_ite Dev.raised]

@[simp] theorem schedSettle_raised (d : Dev) : (d.schedSettle).raised = d.raised := by simp [Dev.schedSettle]

/-! ## A DMA engine whose server is suspended (R496) -/

@[simp] theorem updChan_raised (d : Dev) (e c : Nat) (f : DmaChan → DmaChan) : (d.updChan e c f).raised = d.raised := rfl
@[simp] theorem updEng_raised (d : Dev) (e : Nat) (f : DmaEngine → DmaEngine) : (d.updEng e f).raised = d.raised := rfl
@[simp] theorem enterWait_raised (d : Dev) (e c s : Nat) : (d.enterWait e c s).raised = d.raised := rfl

@[simp] theorem inTest_raised (d : Dev) (e : Nat) (r : DmaReq) : (d.inTest e r).raised = d.raised := by
  rw [Dev.inTest, enterWait_raised]
  cases r.kind <;> simp only [updChan_raised, updEng_raised]

@[simp] theorem dmaSuspendAll_raised (d : Dev) : (d.dmaSuspendAll).raised = d.raised := by
  simp [Dev.dmaSuspendAll, Dev.dmaSuspend]

/-! ## The freeze of a region (R75 to R77) -/

@[simp] theorem freezeEntry_raised (d : Dev) (n : Nat) : (d.freezeEntry n).raised = d.raised := by
  unfold Dev.freezeEntry
  extract_lets d1 d2 d3 d4 d5
  have hlatch : d1.raised = d.raised := by
    rw [setRbit_raised]
    split <;> rfl
  rw [dmaSuspendAll_raised, schedSettle_raised, freezePorts_raised, setReg_raised, setReg_raised, count_raised]
  exact hlatch

@[simp] theorem setReason_raised (d : Dev) (n rsn : Nat) : (d.setReason n rsn).raised = d.raised := by
  simp [Dev.setReason]

/-! ## The wipe of the secure partitions (R418, R549) -/

@[simp] theorem zeroSecure_raised (d : Dev) (p : Nat) : (d.zeroSecure p).raised = d.raised := by
  simp [Dev.zeroSecure, Dev.setBword, apply_ite Dev.raised]

@[simp] theorem startWipe_raised (d : Dev) (k : Nat) : (d.startWipe k).raised = d.raised := by
  unfold Dev.startWipe
  dsimp only
  split
  · rfl
  · split <;> simp only [Dev.setMarch, setRbit_raised, foldl_raised zeroSecure_raised]

@[simp] theorem wipeIdle_raised (d : Dev) : (d.wipeIdle).raised = d.raised := by
  unfold Dev.wipeIdle
  dsimp only
  split
  · rfl
  · split <;> rfl

@[simp] theorem wipeAllSecure_raised (d : Dev) : (d.wipeAllSecure).raised = d.raised := by simp [Dev.wipeAllSecure]

/-! ## The resets (R335, R523, R555, R618) -/

@[simp] theorem cfgEnd_raised (d : Dev) (status : Nat) : (d.cfgEnd status).raised = d.raised := by simp [Dev.cfgEnd]

@[simp] theorem loadFail_raised (d : Dev) (status : Nat) (addr : Word) : (d.loadFail status addr).raised = d.raised := by
  simp [Dev.loadFail, Dev.loadCounted]

@[simp] theorem loadAborted_raised (d : Dev) (rs : List Nat) : (d.loadAborted rs).raised = d.raised := by
  simp [Dev.loadAborted]

/-- A session that is cut off offers an entry to the log and escalates nothing. -/
@[simp] theorem truncateSession_raised (d : Dev) : (d.truncateSession).raised = d.raised := by
  unfold Dev.truncateSession
  split
  · rfl
  · dsimp only
    split
    · simp [Dev.dropSession]
    · split <;> simp [Dev.dropSession]

@[simp] theorem endSession_raised (d : Dev) (cause : Nat) : (d.endSession cause).raised = d.raised := by
  unfold Dev.endSession
  split <;> simp

@[simp] theorem hiveReset_raised (d : Dev) (b : Nat) : (d.hiveReset b).raised = d.raised := by
  simp only [Dev.hiveReset, Dev.hiveCause, Dev.hiveClear, setRbit_raised, setFld_raised, dmaSuspendAll_raised]
  rw [forEach_raised (fun _ _ => setReg_raised _ _ _), endSession_raised, truncateSession_raised]

/-- A device reset discards what waits for the policy engine. -/
@[simp] theorem deviceReset_raised (d : Dev) (b : Nat) : (d.deviceReset b).raised = [] := rfl

/-! ## The policy engine leaves nothing behind (R27, R32, R570) -/

@[simp] theorem markSeq_raised (d : Dev) (fs : List Nat) (seq : Word) : (d.markSeq fs seq).raised = d.raised := by
  refine forEach_raised (fun _ _ => ?_) _ d
  rfl

@[simp] theorem logTake_raised (d : Dev) (o : LogOffer) : (d.logTake o).raised = d.raised := by
  rw [Dev.logTake, markSeq_raised]
  exact cond_raised freeNext_raised _ d

@[simp] theorem raise_raised (d : Dev) (e : Escalation) : (d.raise e).raised = d.raised := by
  simp [Dev.raise, apply_ite Dev.raised]

@[simp] theorem freezeFor_raised (d : Dev) (e : Escalation) : (d.freezeFor e).raised = d.raised := by
  unfold Dev.freezeFor
  split
  · split <;> simp
  · rfl

/-- No freeze and no reset that a group of escalations brings about escalates again. -/
theorem escalateAll_raised {d : Dev} (h : d.raised = []) (es : List Escalation) : (d.escalateAll es).raised = [] := by
  unfold Dev.escalateAll
  dsimp only
  split
  · simp
  · split <;> simp [h]

theorem logDrain_raised (d : Dev) : d.logDrain.raised = d.raised := by simp [Dev.logDrain]

theorem logDrain_intake (d : Dev) : d.logDrain.log.intake = [] :=
  forEach_frame (fun d => d.log.intake) logTake_intake _ _

/-- The end of a command leaves no escalation and no log entry waiting. -/
theorem quiet_flush (d : Dev) : d.flush.Quiet := by
  unfold Dev.flush
  extract_lets e
  have hraised : e.raised = [] := by
    by_cases h : d.raised = []
    · exact (congrArg Dev.raised (if_pos h)).trans h
    · exact (congrArg Dev.raised (if_neg h)).trans (escalateAll_raised rfl _)
  by_cases hintake : e.log.intake = []
  · rw [if_pos hintake]
    exact ⟨hraised, hintake⟩
  · rw [if_neg hintake]
    exact ⟨(logDrain_raised e).trans hraised, logDrain_intake e⟩

/-- Whatever device a command makes, the state after it keeps the invariant. -/
theorem inv_after (s : State) (d : Dev) : (s.after d).Inv := by
  obtain ⟨hraised, hintake⟩ := quiet_flush d
  exact ⟨hraised, hintake, rfl, rfl⟩

/-! ## A cycle with nothing waiting (R63, R69, R71, R78, R97, R132) -/

/-- What the invariant speaks of: registers, ALERT_N's forced classes, what waits, and the pins that follow. -/
def Dev.alarms (d : Dev) : List (Nat × Word) × ChipState × List Escalation × LogState × OutPins :=
  (d.regs, d.chip, d.raised, d.log, d.out)

/-- What ALERT_N and SHUTDOWN_DONE follow from is among the alarms. -/
theorem reg_of_alarms {a b : Dev} (h : a.alarms = b.alarms) : a.reg = b.reg :=
  funext fun o => congrArg (fun m => mget regReset m o) (congrArg Prod.fst h)

theorem alertNow_of_alarms {a b : Dev} (h : a.alarms = b.alarms) : a.alertNow = b.alertNow := by
  have hreg : a.reg = b.reg := reg_of_alarms h
  have hchip : a.chip = b.chip := congrArg (fun x => x.2.1) h
  have hgpio : a.gpioAlert = b.gpioAlert := funext fun q => by
    unfold Dev.gpioAlert Dev.fld
    rw [hreg]
  simp only [Dev.alertNow, hgpio, Dev.alertOf, Dev.policy, Dev.fld, Dev.rbit, hreg, hchip]

theorem laneTick_alarms (d : Dev) (k : Nat) : (d.laneTick k).alarms = d.alarms := by
  unfold Dev.laneTick
  split <;> rfl

theorem queueEdge_alarms (d : Dev) (n m : Nat) (side : BramSide) : (d.queueEdge n m side).alarms = d.alarms := by
  unfold Dev.queueEdge
  dsimp only
  split <;> rfl

theorem sideEdge_alarms (d : Dev) (x : Nat × Bool × BitVec 12) : (d.sideEdge x).alarms = d.alarms := by
  unfold Dev.sideEdge Dev.cond
  dsimp only
  split
  · refine forEach_frame Dev.alarms (fun _ _ => ?_) _ _
    rfl
  · rfl

theorem treeRise_alarms (d : Dev) (gates : List (Nat × Bool)) (t : Nat) : (d.treeRise gates t).alarms = d.alarms := by
  refine forEach_frame Dev.alarms (fun _ _ => ?_) _ _
  rfl

theorem setFf_alarms (d : Dev) (k : Nat) (v : Bool) : (d.setFf k v).alarms = d.alarms := rfl
theorem setIoReg_alarms (d : Dev) (n i : Nat) (x : IoRegs) : (d.setIoReg n i x).alarms = d.alarms := rfl
theorem settleLine_alarms (d : Dev) (line : Nat) : (d.settleLine line).alarms = d.alarms := rfl

/-- The clocked logic changes no register and escalates nothing. -/
theorem clockLogic_alarms (d : Dev) (es : List Edge) : (d.clockLogic es).alarms = d.alarms := by
  unfold Dev.clockLogic
  extract_lets _ _ _ ffs ios sides eps gates _ rs d1 d2 d3 d4 d5 _ _ d6 d7
  calc (d7.forEach d7.tappedLines Dev.settleLine).alarms
      = d7.alarms := forEach_frame _ settleLine_alarms _ _
    _ = d6.alarms := forEach_frame _ (fun _ _ => setFf_alarms _ _ _) _ _
    _ = d5.alarms := rfl
    _ = d4.alarms := forEach_frame _ (fun _ _ => treeRise_alarms _ _ _) _ _
    _ = d3.alarms := forEach_frame _ sideEdge_alarms _ _
    _ = d2.alarms := forEach_frame _ (fun _ _ => queueEdge_alarms _ _ _ _) _ _
    _ = d1.alarms := forEach_frame _ (fun _ _ => setIoReg_alarms _ _ _ _) _ _
    _ = d.alarms := forEach_frame _ (fun _ _ => setFf_alarms _ _ _) _ _

theorem idle_alarms (s : State) : (idle s).dev.alarms = s.dev.alarms :=
  (clockLogic_alarms _ _).trans (forEach_frame _ laneTick_alarms _ _)

/-- A state keeps the invariant while nothing that it speaks of changes. -/
theorem inv_of_alarms {s t : State} (h : t.dev.alarms = s.dev.alarms) (hs : s.Inv) : t.Inv := by
  obtain ⟨hraised, hintake, halert, hdone⟩ := hs
  have hout : t.dev.out = s.dev.out := congrArg (fun x => x.2.2.2.2) h
  have hreg : t.dev.reg = s.dev.reg := reg_of_alarms h
  refine ⟨?_, ?_, ?_, ?_⟩
  · exact (congrArg (fun x => x.2.2.1) h).trans hraised
  · exact (congrArg (fun x => x.2.2.2.1.intake) h).trans hintake
  · rw [hout, alertNow_of_alarms h, halert]
  · rw [hout, hdone, Dev.rbit, Dev.rbit, hreg]

/-- Settles O4: nothing waits after reset, and no register asserts a pin. -/
theorem invariantHoldsAtReset : Obligations.InvariantHoldsAtReset := by
  unfold Obligations.InvariantHoldsAtReset
  exact ⟨rfl, rfl, by decide, by decide⟩

/-- Settles O5: a command ends with the policy engine and the log served and the pins settled, and a cycle with nothing
waiting changes none of it. -/
theorem invariantKeptByEveryStep : Obligations.InvariantKeptByEveryStep := by
  unfold Obligations.InvariantKeptByEveryStep
  intro s t hs hstep
  unfold step at hstep
  split at hstep
  · cases hstep
    exact inv_of_alarms (idle_alarms s) hs
  · next c rest _ =>
    obtain ⟨d, hd⟩ := exec_finish c { s with pending := rest }
    cases hd.symm.trans hstep
    exact inv_after _ d

end Sys2Proof.Machine
end

/-! PROOFS. The policy engine's record of one escalation, and the registers of the error policy. -/
section
namespace Sys2Proof.Machine

/-! ## What the log makes of one offer (R570) -/

@[simp] theorem append_nextSeq (l : LogState) (t : DWord) (c src : Nat) (p : BitVec 16) (x : List Byte) :
    (l.append t c src p x).nextSeq = l.nextSeq + 1 := by
  unfold LogState.append
  dsimp only
  split <;> rfl

/-- SEQ passes, whether the entry is accepted or discarded. -/
theorem logTake_nextSeq (d : Dev) (o : LogOffer) : (d.logTake o).log.nextSeq = d.log.nextSeq + 1 := by
  rw [Dev.logTake, markSeq_log]
  dsimp only
  cases decide (32 ≤ d.log.queued d.time.uptime) <;> cases decide (d.freeVal 1 = 1) <;> simp [Dev.cond]

/-- Where the intake queue has room, the log accepts the entry. -/
theorem logTake_room {d : Dev} (h : d.log.queued d.time.uptime < 32) (o : LogOffer) :
    (d.logTake o).log = { d.log.append o.time o.code o.source o.path o.data with
      fill := min 32 (d.log.queued d.time.uptime + 1), fillAt := d.time.uptime } := by
  have hfull : decide (32 ≤ d.log.queued d.time.uptime) = false := decide_eq_false (Nat.not_le.mpr h)
  rw [Dev.logTake, markSeq_log]
  simp [hfull, Dev.cond]

/-- Where the intake queue can be full, the entry is accepted, or discarded and counted as lost. -/
theorem logTake_full {d : Dev} (h : 32 ≤ d.log.queued d.time.uptime) (o : LogOffer) :
    ((d.logTake o).log.entries = (d.log.append o.time o.code o.source o.path o.data).entries ∧
      (d.logTake o).log.lost = (d.log.append o.time o.code o.source o.path o.data).lost) ∨
    ((d.logTake o).log.entries = d.log.entries ∧
      (d.logTake o).log.lost.toNat = min (d.log.lost.toNat + 1) 0xFFFFFFFF) := by
  have hfull : decide (32 ≤ d.log.queued d.time.uptime) = true := decide_eq_true h
  rw [Dev.logTake, markSeq_log]
  cases hlost : decide (d.freeVal 1 = 1)
  case true =>
    right
    simp only [hfull, Dev.cond, Bool.and_self, if_true, toNat_ofNat_min]
    exact ⟨rfl, rfl⟩
  case false =>
    left
    simp only [hfull, Dev.cond, Bool.and_false, if_true, Bool.false_eq_true, if_false]
    exact ⟨rfl, rfl⟩

/-! ## The record of one escalation (R27, R39, R40) -/

/-- The entry that an escalation offers to the log, stamped with device time. -/
def Dev.offerOf (d : Dev) (e : Escalation) : LogOffer :=
  { time := d.ns, code := e.cls, source := e.source, path := e.path.toWord, data := e.data, flows := [] }

section
variable (d : Dev) (e : Escalation)

theorem raise_log : (d.raise e).log = (d.logTake (d.offerOf e)).log := by
  unfold Dev.raise
  dsimp only
  split <;> split <;> simp <;> rfl

/-- The registers of the policy engine once they have recorded an escalation: its count, its pending bit and, where nothing
was pending, CHIP_ERR_FIRST. -/
def Dev.noted : Dev :=
  let x := d.count (chipErrCount e.cls)
  (if d.reg chipErrPending = 0 then x.setReg chipErrFirst (setBit (BitVec.ofNat 32 e.cls) 31 true) else x).setRbit
    chipErrPending e.cls true

theorem pending_ne_count (c : Nat) : chipErrPending ≠ chipErrCount c := by
  simp only [chipErrPending, chipErrCount]; omega

theorem first_ne_count (c : Nat) : chipErrFirst ≠ chipErrCount c := by
  simp only [chipErrFirst, chipErrCount]; omega

/-- The log, and a forced ALERT, are no register. -/
theorem raise_reg (o : Nat) : (d.raise e).reg o = (d.noted e).reg o := by
  have hchip : ∀ (d : Dev) (x : ChipState), ({ d with chip := x } : Dev).reg o = d.reg o := fun _ _ => rfl
  unfold Dev.raise Dev.noted
  dsimp only
  rw [reg_count_other _ (pending_ne_count _), logTake_reg]
  by_cases hfirst : d.reg chipErrPending = 0
  · simp only [hfirst, if_true]
    split <;> simp only [hchip, Dev.setRbit, Dev.count, reg_setReg, logTake_reg]
  · simp only [hfirst, if_false]
    split <;> simp only [hchip, Dev.setRbit, Dev.count, reg_setReg, logTake_reg]

theorem noted_count : ((d.noted e).reg (chipErrCount e.cls)).toNat =
    min ((d.reg (chipErrCount e.cls)).toNat + 1) 0xFFFFFFFF := by
  rw [Dev.noted, reg_setRbit_other _ (pending_ne_count _).symm]
  split
  · rw [reg_setReg_other _ (first_ne_count _).symm, reg_count_same, toNat_ofNat_min]
  · rw [reg_count_same, toNat_ofNat_min]

theorem noted_pending : (d.noted e).reg chipErrPending = setBit (d.reg chipErrPending) e.cls true := by
  have hfirst : chipErrPending ≠ chipErrFirst := by decide
  rw [Dev.noted, reg_setRbit_same]
  split <;> simp [reg_setReg_other _ hfirst, reg_count_other _ (pending_ne_count _)]

theorem noted_first : (d.noted e).reg chipErrFirst =
    if d.reg chipErrPending = 0 then setBit (BitVec.ofNat 32 e.cls) 31 true else d.reg chipErrFirst := by
  have hfirst : chipErrFirst ≠ chipErrPending := by decide
  rw [Dev.noted, reg_setRbit_other _ hfirst]
  split <;> simp [reg_count_other _ (first_ne_count _)]

end

/-- VALID stands above the class in CHIP_ERR_FIRST (R40). -/
theorem first_word {c : Nat} (hc : c < 21) : (setBit (BitVec.ofNat 32 c) 31 true : Word) = BitVec.ofNat 32 (2 ^ 31 + c) := by
  have hlt : (BitVec.ofNat 32 c).toNat < 2 ^ 31 := by rw [BitVec.toNat_ofNat]; omega
  apply BitVec.eq_of_toNat_eq
  rw [toNat_setBit_top hlt, if_pos rfl, BitVec.toNat_ofNat, BitVec.toNat_ofNat]
  omega

/-! ## The registers of the error policy (R36 to R41) -/

/-- A field of a word, bit by bit. -/
theorem testBit_bits {n : Nat} (w : BitVec n) (lo len j : Nat) :
    (bits w lo len).testBit j = (decide (j < len) && w.getLsbD (lo + j)) := by
  simp [bits, Nat.testBit_mod_two_pow, Nat.testBit_shiftRight, BitVec.getLsbD]

/-- Setting a bit above a field leaves the field. -/
theorem bits_setBit_above {n : Nat} (w : BitVec n) {i lo len : Nat} (hi : i < n) (h : lo + len ≤ i) (b : Bool) :
    bits (setBit w i b) lo len = bits w lo len := by
  apply Nat.eq_of_testBit_eq
  intro j
  simp only [testBit_bits, ← bit_eq_getLsbD, bit_setBit w hi]
  by_cases hj : j < len
  · rw [if_neg (by omega)]
  · simp [hj]

/-- What a command writes to a CHIP_ register, the hive writes there. -/
theorem busWrite_chip_hive (d : Dev) {off : Nat} {r : RegRow} (h4 : off % 4 = 0) (hr : regRow off = some r)
    (hoff : off < 0x010000) (v : Word) : d.busWrite 0 off false v = d.chipWrite 0 off v :=
  busWrite_chip d 0 h4 hr hoff v

/-- A write of CHIP_ERR_CTRL adds its bit LOCK to the register (R38). -/
theorem chipWrite_ctrl (d : Dev) (v : Word) :
    d.chipWrite 0 chipErrCtrl v = d.setReg chipErrCtrl (Access.w1s.write 1 (d.reg chipErrCtrl) v) := rfl

theorem chipWrite_pending (d : Dev) (v : Word) : d.chipWrite 0 chipErrPending v = d.pendingClear v := rfl

theorem chipWrite_inject (d : Dev) (v : Word) : d.chipWrite 0 chipErrInject v = d.errInject 0 v := rfl

theorem regRow_policy : ∀ k : Fin 4, (regRow (chipErrPolicy k)).isSome = true := by decide

/-- LOCK freezes the policies (R38). -/
theorem chipWrite_policy_locked {d : Dev} (h : d.rbit chipErrCtrl 0 = true) (k : Fin 4) (v : Word) :
    d.chipWrite 0 (chipErrPolicy k) v = d := by
  have hoff : 0x20 ≤ chipErrPolicy k ∧ chipErrPolicy k < 0x30 := by simp only [chipErrPolicy]; omega
  rw [Dev.chipWrite, if_pos hoff, Dev.policyWrite, if_pos h]

/-- GO raises a class of 0 to 20 and no other (R41). -/
theorem errInject_served {d : Dev} (h : d.served 1 = true) (v : Word) :
    d.errInject 0 (setBit v 31 true) =
      if v.toNat % 32 ≤ 20 then d.escalate (v.toNat % 32) srcInjected Path.chip [] else d := by
  have hgo : bit (setBit v 31 true) 31 = true := by rw [bit_setBit v (by decide), if_pos rfl]
  have hcls : bits (setBit v 31 true) 0 5 = v.toNat % 32 := bits_setBit_above v (by decide) (by decide) true
  simp only [Dev.errInject, h, hgo, hcls, Bool.not_true, Bool.false_eq_true, if_false, true_and]

section
variable (d : Dev) (v : Word)

theorem quiet_pendingClear {d : Dev} (h : d.Quiet) : (d.pendingClear v).Quiet := by
  unfold Dev.pendingClear
  dsimp only
  split
  · rwa [Dev.Quiet, setRbit_raised, setRbit_log]
  · exact h

/-- The registers after a write of CHIP_ERR_PENDING: the bits written as 1 are gone, and with the last one VALID of
CHIP_ERR_FIRST (R39, R40). -/
theorem pendingClear_reg (o : Nat) : (d.pendingClear v).reg o =
    if o = chipErrPending then d.reg chipErrPending &&& ~~~v
    else if o = chipErrFirst ∧ d.reg chipErrPending &&& ~~~v = 0 then setBit (d.reg chipErrFirst) 31 false
    else d.reg o := by
  have hchip : ∀ (d : Dev) (x : ChipState), ({ d with chip := x } : Dev).reg o = d.reg o := fun _ _ => rfl
  have hne : chipErrFirst ≠ chipErrPending := by decide
  have hfirst (x : ChipState) (w : Word) :
      ({ d.setReg chipErrPending w with chip := x } : Dev).reg chipErrFirst = d.reg chipErrFirst := reg_setReg_other d hne w
  unfold Dev.pendingClear
  dsimp only
  by_cases hw : d.reg chipErrPending &&& ~~~v = 0
  · simp only [hw, if_true, and_true, Dev.setRbit, reg_setReg, hchip, hfirst]
    split
    · next h => rw [h, if_neg hne]
    · rfl
  · simp only [hw, if_false, and_false, hchip, reg_setReg]

theorem pendingClear_forcedAlert :
    (d.pendingClear v).chip.forcedAlert = d.chip.forcedAlert &&& (d.reg chipErrPending &&& ~~~v) := by
  unfold Dev.pendingClear
  dsimp only
  split <;> rfl

end

/-- Settles O7: an escalation without action is its record alone, whose entry the log takes and whose registers the policy
engine notes. -/
theorem escalationIsRecorded : Obligations.EscalationIsRecorded := by
  unfold Obligations.EscalationIsRecorded
  intro d c src p x hc ha
  have he := escalateNow_recorded (by omega) ha src p x
  generalize hesc : ({ cls := c, source := src, path := p, data := x } : Escalation) = esc at he
  have hcls : esc.cls = c := by rw [← hesc]
  extract_lets e a q
  have hlog : e.log = (d.logTake (d.offerOf esc)).log := (congrArg Dev.log he).trans (raise_log d esc)
  have hreg (o : Nat) : e.reg o = (d.noted esc).reg o := (congrArg (·.reg o) he).trans (raise_reg d esc o)
  refine ⟨fun hq => ?_, fun hq => ?_, ?_, ?_, ?_, ?_, fun o h1 h2 h3 => ?_⟩
  · rw [hlog, logTake_room hq, ← hesc]
    rfl
  · rw [hlog]
    have := logTake_full hq (d.offerOf esc)
    rwa [← hesc] at this ⊢
  · rw [hlog, logTake_nextSeq]
  · rw [hreg, ← hcls, noted_count]
  · rw [hreg, noted_pending, hcls]
  · rw [hreg, noted_first, hcls, first_word hc]
  · exact (congrArg (·.reg o) he).trans (raise_reg_other d esc (hcls ▸ h1) h2 h3)

/-- Settles O40: each register of the error policy by what its block makes of the write. -/
theorem errorPolicyRegisters : Obligations.ErrorPolicyRegisters := by
  unfold Obligations.ErrorPolicyRegisters
  refine ⟨?_, ?_, ?_, ?_, ?_⟩
  · intro v s hq
    refine ⟨_, finishBy_active (portIdle_hive _) _, ?_⟩
    rw [busWrite_chip_hive s.dev rfl rfl (by decide), chipWrite_ctrl, after_dev_quiet s (d := s.dev.setReg _ _) hq]
    refine ⟨?_, fun o ho => reg_setReg_other _ ho _⟩
    rw [settle_rbit, Dev.rbit, reg_setReg_same, bit_eq_getLsbD, getLsbD_write_w1s, ← bit_eq_getLsbD (setBit v 0 true),
      bit_setBit v (by decide)]
    simp
  · intro k v s h
    have hoff : (BitVec.ofNat 24 (chipErrPolicy k)).toNat = chipErrPolicy k := by
      rw [BitVec.toNat_ofNat, Nat.mod_eq_of_lt]
      simp only [chipErrPolicy]; omega
    obtain ⟨r, hr⟩ := Option.isSome_iff_exists.1 (regRow_policy k)
    have h4 : chipErrPolicy k % 4 = 0 := by simp only [chipErrPolicy]; omega
    have hchip : chipErrPolicy k < 0x010000 := by simp only [chipErrPolicy]; omega
    rw [registerWrite_runs (portIdle_hive _), hoff, busWrite_chip_hive _ h4 hr hchip, chipWrite_policy_locked h]
  · intro v s hq
    refine ⟨_, finishBy_active (portIdle_hive _) _, ?_⟩
    rw [busWrite_chip_hive s.dev rfl rfl (by decide), chipWrite_pending, after_dev_quiet s (quiet_pendingClear v hq)]
    refine ⟨?_, pendingClear_forcedAlert s.dev v, ?_, fun o h1 h2 => ?_⟩ <;> rw [settle_reg, pendingClear_reg]
    · exact if_pos rfl
    · rw [if_neg (by decide)]
      simp only [true_and]
    · rw [if_neg h1, if_neg (by simp [h2])]
  · intro v s hs hv
    refine (finishBy_active (portIdle_hive _) _).trans ?_
    rw [busWrite_chip_hive s.dev rfl rfl (by decide), chipWrite_inject, errInject_served hs, if_pos hv]
  · intro v s hs hv
    refine (finishBy_active (portIdle_hive _) _).trans ?_
    rw [busWrite_chip_hive s.dev rfl rfl (by decide), chipWrite_inject, errInject_served hs, if_neg (by omega)]

end Sys2Proof.Machine
end

/-! PROOFS. The window engine of a region and the user-data engine at endpoint 48: which message each serves, and what a
window access of one row does to its bits. -/
section
namespace Sys2Proof.Machine

/-! ## Fields and bytes of words (R5, R6) -/

/-- Replacing a field, bit by bit. -/
theorem getLsbD_setBits {n : Nat} (w : BitVec n) {lo len : Nat} (h : lo + len ≤ n) (v j : Nat) :
    (setBits w lo len v).getLsbD j = if lo ≤ j ∧ j < lo + len then v.testBit (j - lo) else w.getLsbD j := by
  have hw : w.getLsbD j = true → j < n := BitVec.lt_of_getLsbD
  simp only [setBits, mask, BitVec.getLsbD_or, BitVec.getLsbD_and, BitVec.getLsbD_not, BitVec.getLsbD_ofNat,
    Nat.testBit_mul_two_pow, Nat.testBit_mod_two_pow, Nat.testBit_two_pow_sub_one]
  by_cases hlo : lo ≤ j
  · by_cases hhi : j < lo + len
    · have hj : j < n := by omega
      have hlen : j - lo < len := by omega
      simp [hlo, hhi, hj, hlen]
    · have hlen : ¬ j - lo < len := by omega
      simpa [hlo, hhi, hlen] using hw
  · simpa [hlo] using hw

/-- The first k bytes of a word replaced one after another. -/
theorem getLsbD_putBytes {n : Nat} (b : Nat → Byte) (w : BitVec n) (j : Nat) : ∀ k, 8 * k ≤ n →
    (((List.range k).map (fun i => (i, b i))).foldl (fun v x => setBits v (8 * x.1) 8 x.2.toNat) w).getLsbD j =
      if j < 8 * k then (b (j / 8)).getLsbD (j % 8) else w.getLsbD j
  | 0, _ => by simp
  | k + 1, h => by
    have ih := getLsbD_putBytes b w j k (by omega)
    rw [List.range_succ, List.map_append, List.foldl_append, List.map_singleton, List.foldl_cons, List.foldl_nil,
      getLsbD_setBits _ (by omega), ih]
    by_cases hk : 8 * k ≤ j ∧ j < 8 * k + 8
    · have hdiv : j / 8 = k := by omega
      have hmod : j - 8 * k = j % 8 := by omega
      rw [if_pos hk, if_pos (by omega), hdiv, hmod]
      rfl
    · rw [if_neg hk]
      by_cases hlt : j < 8 * k
      · rw [if_pos hlt, if_pos (by omega)]
      · rw [if_neg hlt, if_neg (by omega)]

/-- A little-endian number, bit by bit. -/
theorem testBit_getLE (bs : List Byte) : ∀ (n off j : Nat),
    (getLE n bs off).testBit j = (decide (j < 8 * n) && (bs.getD (off + j / 8) 0).getLsbD (j % 8))
  | 0, off, j => by simp [getLE]
  | n + 1, off, j => by
    have hlt : (bs.getD off 0).toNat < 2 ^ 8 := (bs.getD off 0).isLt
    rw [getLE, Nat.add_comm, Nat.testBit_two_pow_mul_add (i := 8) _ hlt]
    by_cases hj : j < 8
    · have hdiv : j / 8 = 0 := by omega
      have hmod : j % 8 = j := by omega
      rw [if_pos hj, hdiv, hmod, Nat.add_zero, decide_eq_true (by omega), Bool.true_and]
      rfl
    · have hdiv : off + 1 + (j - 8) / 8 = off + j / 8 := by omega
      have hmod : (j - 8) % 8 = j % 8 := by omega
      have hbound : (j - 8 < 8 * n) = (j < 8 * (n + 1)) := by rw [eq_iff_iff]; omega
      rw [if_neg hj, testBit_getLE bs n (off + 1) (j - 8), hdiv, hmod]
      simp only [hbound]

/-- The bytes of a number, least significant first. -/
theorem putLE_eq_map : ∀ n v : Nat, putLE n v = (List.range n).map (fun i => BitVec.ofNat 8 (v / 256 ^ i))
  | 0, _ => rfl
  | n + 1, v => by
    rw [putLE, putLE_eq_map n, List.range_succ_eq_map, List.map_cons, List.map_map, Nat.pow_zero, Nat.div_one]
    refine congrArg _ (List.map_congr_left fun i _ => ?_)
    rw [Nat.div_div_eq_div_mul, ← Nat.pow_succ', Function.comp]

/-! ## A window access of one row (R50, R91, R92) -/

/-- The eight bytes from a row's address lie in that row alone. -/
theorem winRows_row (r : Fin 512) : winRows (8 * r.val) 8 = [r.val] := by
  have hrow : ∀ x, (decide (8 * x < 8 * r.val + 8 ∧ 8 * r.val < 8 * x + 8)) = (x == r.val) := by
    intro x
    rw [Bool.eq_iff_iff, decide_eq_true_eq, beq_iff_eq]
    omega
  simp only [winRows, hrow]
  rw [List.filter_beq, List.count_range, if_pos r.isLt]
  rfl

theorem rowBytes_row (r : Nat) : rowBytes r (8 * r) 8 = (List.range 8).map (fun i => (i, i)) := by
  rw [rowBytes, List.filter_eq_self.2]
  · exact List.map_congr_left fun i _ => by rw [Nat.add_sub_cancel_left]
  · intro i hi
    have := List.mem_range.1 hi
    rw [decide_eq_true_eq]
    omega

/-- Without a user access on port A nothing clashes. -/
theorem clashAt_none (d : Dev) (n m r : Nat) : d.clashAt n m r [] = none := by
  unfold Dev.clashAt
  split <;> rfl

/-- The row that a write of its 8 bytes leaves: bits [71:64] stay (R92). -/
def rowOver (row : BitVec 72) (bs : List Byte) : BitVec 72 :=
  ((List.range 8).map (fun i => (i, bs.getD i 0))).foldl (fun v x => setBits v (8 * x.1) 8 x.2.toNat) row

theorem rowOver_data (row : BitVec 72) (bs : List Byte) : bits (rowOver row bs) 0 64 = getLE 8 bs 0 := by
  apply Nat.eq_of_testBit_eq
  intro j
  rw [testBit_bits, testBit_getLE, rowOver, Nat.zero_add, Nat.zero_add,
    getLsbD_putBytes (fun i => bs.getD i 0) row j 8 (by decide)]
  by_cases hj : j < 64
  · rw [if_pos hj]
  · simp only [hj, decide_false, Bool.false_and]

theorem rowOver_top (row : BitVec 72) (bs : List Byte) : bits (rowOver row bs) 64 8 = bits row 64 8 := by
  apply Nat.eq_of_testBit_eq
  intro j
  rw [testBit_bits, testBit_bits, rowOver, getLsbD_putBytes (fun i => bs.getD i 0) row _ 8 (by decide), if_neg (by omega)]

section
variable (d : Dev) (n m : Nat) (r : Fin 512)

@[simp] theorem bramRow_rowWritten_same (r : Nat) (v : BitVec 72) : (d.rowWritten n m r v).bramRow n m r = v :=
  bramRow_setBramRow_same d n m r v

theorem bramRow_rowWritten_other {r n' m' r' : Nat} (h : rowKey n' m' r' ≠ rowKey n m r) (v : BitVec 72) :
    (d.rowWritten n m r v).bramRow n' m' r' = d.bramRow n' m' r' := bramRow_setBramRow_other d h v

variable {d n m} (hecc : (d.bramCfg n m).ecc = false)
include hecc

theorem winWrite_row {bs : List Byte} (hbs : bs.length = 8) :
    d.winWrite n m (8 * r.val) bs [] .clean [] = d.rowWritten n m r (rowOver (d.bramRow n m r) bs) := by
  rw [Dev.winWrite, hbs, winRows_row, forEach_cons, forEach_nil]
  simp only [List.any_nil, Dev.cond, Bool.false_eq_true, if_false, clashAt_none, Dev.winWriteRow, Dev.winRowWrite, hecc,
    Bool.false_and, rowBytes_row, List.map_map]
  rfl

theorem winRead_row :
    (d.winRead n m (8 * r.val) 8 [] .clean []).2 = (putLE 8 (bits (d.bramRow n m r) 0 64), false) := by
  have hlt : bits (d.bramRow n m r) 0 64 < 2 ^ 64 := Nat.mod_lt _ (by decide)
  have hbyte (i : Nat) : BitVec.ofNat 8 (bits (BitVec.ofNat 64 (bits (d.bramRow n m r) 0 64)) (8 * i) 8) =
      BitVec.ofNat 8 (bits (d.bramRow n m r) 0 64 / 256 ^ i) := by
    apply BitVec.eq_of_toNat_eq
    rw [BitVec.toNat_ofNat, BitVec.toNat_ofNat, bits, BitVec.toNat_ofNat, Nat.mod_eq_of_lt hlt, Nat.mod_mod,
      Nat.shiftRight_eq_div_pow, Nat.pow_mul]
  rw [Dev.winRead, winRows_row, List.foldl_cons, List.foldl_nil]
  simp only [List.any_nil, Dev.cond, Bool.false_eq_true, if_false, clashAt_none, Dev.winReadRow, Dev.winRow, hecc,
    rowBytes_row, List.map_map, List.nil_append, Bool.or_false, putLE_eq_map, Function.comp_def, hbyte]

end

/-! ## The message that a region's window engine serves (R53, R71, R90, R91, R93, R141, R143) -/

/-- Without a message the engine does nothing. -/
theorem windowServe_none {d : Dev} {n : Nat} (h : d.winTake n = none) (st : List (Fin 512)) (u : EccState)
    (clash : List WinClash) : d.windowServe n st u clash = d := by
  rw [Dev.windowServe, h]

section
variable {d e : Dev} {n : Nat} {msg : List Cell} (h : d.winTake n = some (msg, e)) (st : List (Fin 512)) (u : EccState)
  (clash : List WinClash)
include h

/-- A message that cannot be executed is answered with its reason (R141, R143). -/
theorem windowServe_refused (hr : e.winReason n (msg.any (fun c => c.err)) (messageBytes msg) ≠ 0) :
    d.windowServe n st u clash = e.answerFail (17 + 2 * n) 0 0 (messageBytes msg)
      (e.winReason n (msg.any (fun c => c.err)) (messageBytes msg)) 0x0101 := by
  rw [Dev.windowServe, h]
  exact if_pos hr

variable (hr : e.winReason n (msg.any (fun c => c.err)) (messageBytes msg) = 0)
include hr

theorem windowServe_fence (ht : getLE 1 (messageBytes msg) 0 = 4) :
    d.windowServe n st u clash = e.answer (17 + 2 * n) 0 0 (messageBytes msg) 2 0 0 [] := by
  rw [Dev.windowServe, h]
  refine (if_neg (fun hne => hne hr)).trans ?_
  exact if_pos ht

theorem windowServe_write (ht : getLE 1 (messageBytes msg) 0 = 1) :
    let o := getLE 5 (messageBytes msg) 8 - winBase n
    let w := e.winWrite n (o / 4096) (o % 4096) (slice (messageBytes msg) 16 (getLE 2 (messageBytes msg) 2)) st u clash
    d.windowServe n st u clash =
      if getLE 1 (messageBytes msg) 1 % 2 = 1 then w.answer (17 + 2 * n) 0 0 (messageBytes msg) 4 0 0 [] else w := by
  rw [Dev.windowServe, h]
  refine (if_neg (fun hne => hne hr)).trans ((if_neg ?_).trans (if_pos ht))
  omega

theorem windowServe_read (ht : getLE 1 (messageBytes msg) 0 = 2) {w : Dev × List Byte × Bool}
    (hw : e.winRead n ((getLE 5 (messageBytes msg) 8 - winBase n) / 4096) ((getLE 5 (messageBytes msg) 8 - winBase n) % 4096)
      (getLE 2 (messageBytes msg) 2) st u clash = w) :
    d.windowServe n st u clash =
      if w.2.2 then w.1.answerFail (17 + 2 * n) 0 0 (messageBytes msg) 7 0x0101
      else w.1.answer (17 + 2 * n) 0 0 (messageBytes msg) 0 0 0 w.2.1 := by
  obtain ⟨d', data, bad⟩ := w
  rw [Dev.windowServe, h]
  refine (if_neg (fun hne => hne hr)).trans ((if_neg ?_).trans ((if_neg ?_).trans ?_))
  · omega
  · omega
  · rw [hw]

end

section
variable {n : Fin 12} (st : List (Fin 512)) (u : EccState) (clash : List WinClash) {s : State}

/-- The engine runs out of freeze, with the clock of the memory addressed running. -/
theorem windowAccess_serves (hf : s.dev.frozen n = false)
    (hg : ∀ m, s.dev.winMem n = some m → s.dev.gateOpen n (s.dev.bramCfg n m).treeB = true) :
    exec (.windowAccess n st u clash) s = .next (s.after (s.dev.windowServe n st u clash)) := by
  change execWindowAccess n st u clash s = _
  unfold execWindowAccess
  extract_lets d clocked
  have hclocked : clocked = true := by
    simp only [clocked]
    split
    · exact hg _ ‹_›
    · rfl
  rw [hclocked, show d.frozen n = false from hf]
  rfl

/-- A frozen region's window does not answer, and neither does one without a message or with its clock gated. -/
theorem windowAccess_waits (h : s.dev.frozen n = true ∨ s.dev.winTake n = none ∨
      ∃ m, s.dev.winMem n = some m ∧ s.dev.gateOpen n (s.dev.bramCfg n m).treeB = false) :
    exec (.windowAccess n st u clash) s = .next (s.after s.dev) := by
  change execWindowAccess n st u clash s = _
  unfold execWindowAccess
  extract_lets d clocked
  rcases h with hf | hnone | ⟨m, hm, hg⟩
  · rw [show d.frozen n = true from hf]
    rfl
  · cases !d.frozen n && clocked
    case false => rfl
    case true => exact congrArg (finish s) (windowServe_none hnone st u clash)
  · have hclocked : clocked = false := by
      simp only [clocked, d, hm]
      exact hg
    rw [hclocked, Bool.and_false]
    rfl

end

/-- The window engine answers a message that waits for a memory as timed out (R93, R143). -/
theorem windowTimeout_fires {n : Fin 12} {s : State} {msg : List Cell} {d : Dev} (hf : s.dev.frozen n = false)
    (ht : s.dev.winTake n = some (msg, d)) (hm : s.dev.winMem n ≠ none) :
    exec (.windowTimeout n) s = .next (s.after
      ((d.setRbit (rgnFault n) 3 true).answerFail (17 + 2 * n) 0 0 (messageBytes msg) 9 0x0101)) := by
  change execWindowTimeout n s = _
  rw [execWindowTimeout, if_neg (by simp [hf, hm]), ht]
  rfl

theorem windowTimeout_waits {n : Fin 12} {s : State} (h : s.dev.frozen n = true ∨ s.dev.winMem n = none) :
    exec (.windowTimeout n) s = .next (s.after s.dev) := by
  change execWindowTimeout n s = _
  rw [execWindowTimeout, if_pos h]
  rfl

/-! ## The user-data engine at endpoint 48 (R50, R141 to R144) -/

theorem userReason_echo {bs : List Byte} (ht : getLE 1 bs 0 = 4) :
    userReason bs = if getLE 2 bs 2 ≠ 0 then 1 else 0 := by
  rw [userReason, ht]
  rfl

/-- User data cannot be written through endpoint 48. -/
theorem userReason_write {bs : List Byte} (ht : getLE 1 bs 0 = 1) : userReason bs ≠ 0 := by
  rw [userReason, ht]
  rw [if_neg (by decide)]
  split
  · decide
  · split
    · decide
    · split <;> decide

/-- Without a whole message of the flow the engine does nothing. -/
theorem userRead_none {d : Dev} {f : BitVec 12} (h : takeMessage f (d.rxCells 48) = none) (drift : List (Nat × Nat)) :
    d.userRead f drift = d := by
  rw [Dev.userRead, h]

section
variable {d : Dev} {f : BitVec 12} {m rest : List Cell} (h : takeMessage f (d.rxCells 48) = some (m, rest))
  (drift : List (Nat × Nat))
include h

/-- A message with ERR, or of no type of the engine's, stays. -/
theorem userRead_other (ho : getLE 1 (messageBytes m) 0 < 1 ∨ 4 < getLE 1 (messageBytes m) 0 ∨ m.any (fun c => c.err) = true) :
    d.userRead f drift = d := by
  rw [Dev.userRead, h]
  exact if_pos ho

/-- A read stays while the store is not ready, has stopped, or erases one of its sectors. -/
theorem userRead_waits (ht : getLE 1 (messageBytes m) 0 = 2) (hr : userReason (messageBytes m) = 0)
    (hw : d.nvReady = false ∨ d.nvHalt = true ∨ (partWords 4 (getLE 5 (messageBytes m) 8 - userBase)
      (getLE 2 (messageBytes m) 2)).any (fun w => d.unfinished w.1) = true) : d.userRead f drift = d := by
  rw [Dev.userRead, h]
  dsimp only
  split
  · rfl
  · exact if_pos ⟨ht, hr, hw⟩

variable (herr : m.any (fun c => c.err) = false)
include herr

/-- A reply is taken off and discarded. -/
theorem userRead_reply (ht : getLE 1 (messageBytes m) 0 = 3) : d.userRead f drift = d.setRx 48 rest := by
  rw [Dev.userRead, h]
  dsimp only
  rw [if_neg (by simp [ht, herr]), if_neg (by simp [ht]), if_pos ht]

/-- A request whose fields the rules refuse is answered as failed with its reason (R143). -/
theorem userRead_refused (ht : getLE 1 (messageBytes m) 0 = 1 ∨ getLE 1 (messageBytes m) 0 = 2 ∨ getLE 1 (messageBytes m) 0 = 4)
    (hr : userReason (messageBytes m) ≠ 0) :
    d.userRead f drift =
      (d.setRx 48 rest).answerFail 48 0 0 (messageBytes m) (userReason (messageBytes m)) stBadParam := by
  rw [Dev.userRead, h]
  dsimp only
  have htype : ¬(getLE 1 (messageBytes m) 0 < 1 ∨ 4 < getLE 1 (messageBytes m) 0 ∨ m.any (fun c => c.err) = true) := by
    simp only [herr, Bool.false_eq_true, or_false]; omega
  rw [if_neg htype, if_neg (by simp [hr]), if_neg (by omega), if_pos hr]

/-- An echo that passes is answered without data. -/
theorem userRead_echo (ht : getLE 1 (messageBytes m) 0 = 4) (hlen : getLE 2 (messageBytes m) 2 = 0) :
    d.userRead f drift = (d.setRx 48 rest).answer 48 0 0 (messageBytes m) 2 0 stOk [] := by
  have hr : userReason (messageBytes m) = 0 := by rw [userReason_echo ht, hlen]; rfl
  rw [Dev.userRead, h]
  dsimp only
  rw [if_neg (by simp [ht, herr]), if_neg (by simp [ht]), if_neg (by omega), if_neg (by simp [hr]), if_pos ht]

/-- A read that passes is answered with the bytes asked for, or fails where a word is uncorrectable. -/
theorem userRead_data (ht : getLE 1 (messageBytes m) 0 = 2) (hr : userReason (messageBytes m) = 0)
    (hready : d.nvReady = true) (hhalt : d.nvHalt = false)
    (hws : (partWords 4 (getLE 5 (messageBytes m) 8 - userBase) (getLE 2 (messageBytes m) 2)).any
      (fun w => d.unfinished w.1) = false) :
    let e := d.setRx 48 rest
    let ws := partWords 4 (getLE 5 (messageBytes m) 8 - userBase) (getLE 2 (messageBytes m) 2)
    let x := ((e.setStore (e.store.upset drift)).suspendFor ws).readWords ws
    d.userRead f drift =
      if x.2.1.any (fun x => decide (x.count = 0xF)) then x.1.answerFail 48 0 0 (messageBytes m) 7 stBadParam
      else x.1.answer 48 0 0 (messageBytes m) 0 0 stOk
        (((x.2.1.flatMap NvWord.bytes).drop ((getLE 5 (messageBytes m) 8 - userBase) % 32)).take (getLE 2 (messageBytes m) 2)) := by
  rw [Dev.userRead, h]
  dsimp only
  rw [if_neg (by simp [ht, herr]), if_neg (by simp [hready, hhalt, hws]), if_neg (by omega), if_neg (by simp [hr]),
    if_neg (by omega)]

end

/-! ## The statements -/

/-- Settles O33: the engine's lemma for each type of message, the timeout, and one row written and read back. -/
theorem windowEngine : Obligations.WindowEngine := by
  unfold Obligations.WindowEngine
  refine ⟨?_, fun n st u clash s h => windowAccess_waits st u clash h, fun n c rest d s => windowTimeout_fires,
    fun n s => windowTimeout_waits, ?_⟩
  · intro n st u clash c rest d s hf hg ht bs r o m len
    rw [windowAccess_serves st u clash hf hg]
    refine ⟨fun hr => ?_, fun hr htype => ?_, fun hr htype => ?_, fun hr htype => ?_⟩
    · rw [windowServe_refused ht st u clash hr]
    · rw [windowServe_fence ht st u clash hr htype]
    · rw [windowServe_write ht st u clash hr htype]
    · rw [windowServe_read ht st u clash hr htype rfl]
  · intro d n m r bs hecc hbs
    rw [winWrite_row r hecc hbs]
    refine ⟨?_, ?_, ?_, winRead_row r hecc⟩
    · rw [bramRow_rowWritten_same, rowOver_data]
    · rw [bramRow_rowWritten_same, rowOver_top]
    · exact fun n' m' r' hne => bramRow_rowWritten_other _ _ _ hne _

/-- Settles O51: the engine's lemma for each type of message, under the end of its command. -/
theorem userDataIsServedAtEndpoint48 : Obligations.UserDataIsServedAtEndpoint48 := by
  unfold Obligations.UserDataIsServedAtEndpoint48
  refine ⟨?_, ?_, ?_, ?_, ?_⟩
  · intro f drift m rest s h herr
    refine ⟨fun ht => ?_, fun ht hlen => ?_, fun ht hlen => ?_, fun ht hr => ?_, ?_⟩
    · exact congrArg (finish s) (userRead_reply h drift herr ht)
    · have hr : userReason (messageBytes m) = 1 := (userReason_echo ht).trans (if_pos hlen)
      rw [← hr]
      exact congrArg (finish s) (userRead_refused h drift herr (by omega) (by omega))
    · exact congrArg (finish s) (userRead_echo h drift herr ht hlen)
    · exact congrArg (finish s) (userRead_refused h drift herr (by omega) hr)
    · intro ws x ht hr hready hhalt hws
      exact congrArg (finish s) (userRead_data h drift herr ht hr hready hhalt hws)
  · intro f drift m rest s h herr ht
    exact ⟨userReason_write ht, congrArg (finish s) (userRead_refused h drift herr (by omega) (userReason_write ht))⟩
  · intro f drift m rest s h ht hr hw
    exact congrArg (finish s) (userRead_waits h drift ht hr hw)
  · intro f drift s h
    exact congrArg (finish s) (userRead_none h drift)
  · intro f drift m rest s h ho
    exact congrArg (finish s) (userRead_other h drift (or_assoc.1 ho.symm))

end Sys2Proof.Machine
end

/-! PROOFS. The admission engine: when it takes a request up and what it then answers, what an admission, a teardown, a
repack and a switchover leave of a flow or a pair, and the drains, suspensions and snapshots that follow. -/
section
namespace Sys2Proof.Machine

/-! ## The parameter field of a request (R5, R6, R514) -/

theorem getLE_one_lt (bs : List Byte) (o : Nat) : getLE 1 bs o < 256 := (bs.getD o 0).isLt

/-- A number in several bytes is its lowest byte and the number in the others. -/
theorem getLE_succ (n : Nat) (bs : List Byte) (o : Nat) : getLE (n + 1) bs o = getLE 1 bs o + 256 * getLE n bs (o + 1) := rfl

/-- What passes check 7 has the length, zero reserved bits and every field in its range. -/
theorem checkParams_none {r : Req} {len : Nat} {z : List (Nat × Nat)} {g : List (Nat × Nat × Nat × Nat)}
    (h : checkParams r len z g = none) :
    r.len = len ∧ (∀ x ∈ z, Nat.land (r.u 1 x.1) x.2 = 0) ∧ ∀ x ∈ g, r.u x.2.1 x.1 ≤ x.2.2.2 := by
  unfold checkParams at h
  split at h
  · contradiction
  · rename_i hlen
    split at h
    · contradiction
    · rename_i hz
      refine ⟨Classical.not_not.1 hlen, ?_, ?_⟩
      · simpa using hz
      · intro x hx
        have hout := List.find?_eq_none.1 (Option.map_eq_none_iff.1 h) x hx
        simp only [Bool.or_eq_true, decide_eq_true_eq] at hout
        omega

/-- A reserved byte that passes check 7 is zero. -/
theorem reserved_zero {r : Req} {os : List Nat} (h : ∀ x ∈ zb os, Nat.land (r.u 1 x.1) x.2 = 0) {o : Nat} (ho : o ∈ os) :
    r.u 1 o = 0 := by
  have hz : r.u 1 o &&& 2 ^ 8 - 1 = 0 := h (o, 0xFF) (List.mem_map.2 ⟨o, ho, rfl⟩)
  rwa [Nat.and_two_pow_sub_one_of_lt_two_pow (getLE_one_lt r.params o)] at hz

/-- Two reserved bytes, as the engine reads them. -/
theorem fourOk_of_two {r : Req} {top : Nat} {g : List (Nat × Nat × Nat × Nat)} {n : Nat}
    (h : checkParams r 4 (zb [2, 3]) g = none) (hg : (0, n, 0, top) ∈ g) : fourOk r n top 2 = true := by
  obtain ⟨hlen, hz, hr⟩ := checkParams_none h
  have h2 : getLE 1 r.params 2 = 0 := reserved_zero hz (by decide)
  have h3 : getLE 1 r.params 3 = 0 := reserved_zero hz (by decide)
  have hu : r.u (4 - 2) 2 = 0 := by rw [Req.u, getLE_succ, h2, h3]
  simpa [fourOk, hlen, hu] using hr _ hg

/-- Three reserved bytes, as the engine reads them. -/
theorem fourOk_of_three {r : Req} {top : Nat} (h : checkParams r 4 (zb [1, 2, 3]) [(0, 1, 0, top)] = none) :
    fourOk r 1 top 1 = true := by
  obtain ⟨hlen, hz, hr⟩ := checkParams_none h
  have h1 : getLE 1 r.params 1 = 0 := reserved_zero hz (by decide)
  have h2 : getLE 1 r.params 2 = 0 := reserved_zero hz (by decide)
  have h3 : getLE 1 r.params 3 = 0 := reserved_zero hz (by decide)
  have hu : r.u (4 - 1) 1 = 0 := by rw [Req.u, getLE_succ 2, getLE_succ 1, h1, h2, h3]
  simpa [fourOk, hlen, hu] using hr _ (List.mem_singleton.2 rfl)

/-- Where check 7 is of the length alone, any other length is refused as such. -/
theorem checkParams_length (r : Req) (len : Nat) :
    checkParams r len [] [] = if r.params.length = len then none else some (stBadParam, errPayload detLength 0) := by
  by_cases h : r.params.length = len
  · simp [checkParams, Req.len, h]
  · simp [checkParams, Req.len, h, ansBad, ansErr]

theorem takes_opcode {d : Dev} {opcode : Nat} {r : Req} {rest : List Req} (h : d.Takes opcode r rest) :
    r.opcode.toNat = opcode := by
  obtain ⟨_, _, _, hop⟩ := h
  exact hop

/-! ## A request that passes check 7 goes to the engine (R537) -/

section
variable {r : Req}

theorem engineRequest_admission (ho : r.opcode.toNat = 0x0400) (h : r.params.length = 32) : engineRequest r = true := by
  simp [engineRequest, ho, Req.len, h]

theorem engineRequest_teardown (ho : r.opcode.toNat = 0x0401) (h : checkParams r 4 (zb [2, 3]) [(0, 2, 0, 4095)] = none) :
    engineRequest r = true := by
  simp only [engineRequest, ho, fourOk_of_two h (List.mem_singleton.2 rfl)]

theorem engineRequest_query (ho : r.opcode.toNat = 0x0402) (h : checkParams r 2 [] [(0, 2, 0, 4095)] = none) :
    engineRequest r = true := by
  obtain ⟨hlen, _, hr⟩ := checkParams_none h
  have hf : r.u 2 0 ≤ 4095 := hr _ (List.mem_singleton.2 rfl)
  simp only [engineRequest, ho, hlen, hf, decide_true, Bool.and_true]

theorem engineRequest_repack (ho : r.opcode.toNat = 0x0403) (h : checkParams r 4 (zb [1, 2, 3]) [(0, 1, 0, 51)] = none) :
    engineRequest r = true := by
  simp only [engineRequest, ho, fourOk_of_three h]

theorem engineRequest_switch (ho : r.opcode.toNat = 0x0404) (h : checkParams r 4 (zb [2, 3]) [(0, 1, 0, 5)] = none) :
    engineRequest r = true := by
  simp only [engineRequest, ho, fourOk_of_two h (List.mem_singleton.2 rfl)]

end

/-! ## When the engine takes a request up (R200, R211) -/

/-- A request that the engine cannot answer in the window stays, and so does any behind a full load that waits first. -/
theorem engine_waits {d : Dev} (h : d.requestWaits = true ∨
    (d.adm.loadWaits ≠ none ∧ d.adm.loadBehind = false ∧ d.engineNext = true)) (opcode : Nat) (f : Command) :
    d.engine opcode f = d := by
  refine if_pos ?_
  rcases h with hw | ⟨hl, hb, hn⟩
  · rw [hw, Bool.true_or]
  · simp [Option.isSome_iff_ne_none.2 hl, hb, hn]

/-- With no load waiting, the engine's request is taken up as any other. -/
theorem engine_free {d : Dev} (hw : d.requestWaits = false) (hl : d.adm.loadWaits = none) (opcode : Nat) (f : Command) :
    d.engine opcode f = d.imfa opcode f := by
  simp [Dev.engine, hw, hl]

/-- A load that has waited behind a request waits behind it no more, and its flows go in where the window is open. -/
def Dev.loadNext (d : Dev) : Dev := ({ d with adm := { d.adm with loadBehind := false } }).flowsDue

theorem engineNext_of_takes {d : Dev} {opcode : Nat} {r : Req} {rest : List Req} (h : d.Takes opcode r rest) :
    d.engineNext = engineRequest r := by
  obtain ⟨_, _, hq, _⟩ := h
  simp [Dev.engineNext, hq]

theorem takesNow_of_takes {d : Dev} {opcode : Nat} {r : Req} {rest : List Req} (h : d.Takes opcode r rest) :
    d.takesNow opcode = true := by
  obtain ⟨hready, hjob, hq, hop⟩ := h
  simp [Dev.takesNow, hready, hjob, hq, hop]

/-- With a load waiting behind the engine's request, the load follows it. -/
theorem engine_loadBehind {d : Dev} {opcode : Nat} {r : Req} {rest : List Req} (hw : d.requestWaits = false)
    (hl : d.adm.loadWaits ≠ none) (hb : d.adm.loadBehind = true) (h : d.Takes opcode r rest) (hr : engineRequest r = true)
    (f : Command) : d.engine opcode f = (d.imfa opcode f).loadNext := by
  have hsome := Option.isSome_iff_ne_none.2 hl
  rw [Dev.engine, if_neg (by simp [hw, hb])]
  exact if_pos (by simp [hsome, takesNow_of_takes h, engineNext_of_takes h, hr])

/-! ## What the engine answers -/

section
variable {opcode len : Nat} {z : List (Nat × Nat)} {g : List (Nat × Nat × Nat × Nat)} {r : Req} {rest : List Req}

/-- A request that passes check 7 is answered by the engine. -/
theorem imfa_engineAnswer {d : Dev} (h : d.Takes opcode r rest) (hp : checkParams r len z g = none)
    (f : Dev → Req → Dev × Nat × List Byte) :
    d.imfa opcode (checked len z g (fun d r => engineAnswer (f d r))) =
      (f (d.taken r rest) r).1.jobReply r (f (d.taken r rest) r).2 := by
  rw [imfa_taken h, checked_pass hp]
  rfl

/-- A request that check 7 refuses is answered with its first parameter error. -/
theorem imfa_refused {d : Dev} (h : d.Takes opcode r rest) {a : Answer} (hp : checkParams r len z g = some a) (f : Command) :
    d.imfa opcode (checked len z g f) = (d.taken r rest).jobReply r a := by
  rw [imfa_taken h, checked, hp]

variable {s : State} (hw : s.dev.requestWaits = false)
include hw

theorem engine_answers (hl : s.dev.adm.loadWaits = none) (h : s.dev.Takes opcode r rest) (hp : checkParams r len z g = none)
    (f : Dev → Req → Dev × Nat × List Byte) :
    let x := f (s.dev.taken r rest) r
    finish s (s.dev.engine opcode (checked len z g (fun d r => engineAnswer (f d r)))) =
      .next (s.answered x.1 r x.2.1 x.2.2) := by
  rw [engine_free hw hl, imfa_engineAnswer h hp]
  rfl

theorem engine_refuses (hl : s.dev.adm.loadWaits = none) (h : s.dev.Takes opcode r rest) {a : Answer}
    (hp : checkParams r len z g = some a) (f : Command) :
    finish s (s.dev.engine opcode (checked len z g f)) = .next (s.answered (s.dev.taken r rest) r a.1 a.2) := by
  rw [engine_free hw hl, imfa_refused h hp]
  rfl

theorem engine_answers_loadBehind (hl : s.dev.adm.loadWaits ≠ none) (hb : s.dev.adm.loadBehind = true)
    (h : s.dev.Takes opcode r rest) (hp : checkParams r len z g = none) (hr : engineRequest r = true)
    (f : Dev → Req → Dev × Nat × List Byte) :
    let x := f (s.dev.taken r rest) r
    finish s (s.dev.engine opcode (checked len z g (fun d r => engineAnswer (f d r)))) =
      .next (s.after (x.1.jobReply r x.2).loadNext) := by
  rw [engine_loadBehind hw hl hb h hr, imfa_engineAnswer h hp]
  rfl

end

/-! ## What writing a staged table leaves of the flows and pairs (R154, R211) -/

theorem fab_adm (d : Dev) (x : FabState) : ({ d with fab := x } : Dev).adm = d.adm := rfl
theorem fab_reg (d : Dev) (x : FabState) (o : Nat) : ({ d with fab := x } : Dev).reg o = d.reg o := rfl

@[simp] theorem stage_adm (d : Dev) (e mask v : Nat) : (d.stage e mask v).adm = d.adm := fab_adm d _
@[simp] theorem stage_reg (d : Dev) (e mask v o : Nat) : (d.stage e mask v).reg o = d.reg o := fab_reg d _ o
@[simp] theorem reqSwap_adm (d : Dev) (e : Nat) : (d.reqSwap e).adm = d.adm := fab_adm d _
@[simp] theorem reqSwap_reg (d : Dev) (e o : Nat) : (d.reqSwap e).reg o = d.reg o := fab_reg d _ o

@[simp] theorem unstage_adm (d : Dev) (e v : Nat) : (d.unstage e v).adm = d.adm := by
  change (d.copied e).adm = d.adm
  cases h : bit d.fab.copyPend e <;> simp [Dev.copied, Dev.cond, h, Dev.copyCal]

/-- A flow reads by the admission engine's records alone. -/
theorem flow_of_adm {a b : Dev} (h : a.adm = b.adm) (f : Nat) : a.flow f = b.flow f := by
  rw [Dev.flow, h, Dev.flow]

theorem setFlow_adm_congr {a b : Dev} (h : a.adm = b.adm) (f : Nat) (x : Flow) : (a.setFlow f x).adm = (b.setFlow f x).adm := by
  simp only [Dev.setFlow, h]

theorem setFlow_flow_other (d : Dev) {f g : Nat} (h : g ≠ f) (x : Flow) : (d.setFlow f x).flow g = d.flow g :=
  mget_mset_other h _ _

/-- A flow that returns to FREE has nothing left. -/
@[simp] theorem freeFlow_same (d : Dev) (f : Nat) : (d.freeFlow f).flow f = Flow.blank := mget_mset_same _ _ _ _

/-! ## The bookkeeping of a refusal (R201, R237) -/

/-- A refusal that names no flow changes no flow and no pair. -/
@[simp] theorem admRefuse_none_adm (d : Dev) (shown status detail : Nat) :
    (d.admRefuse none shown status detail).adm = d.adm := by
  simp [Dev.admRefuse]

/-- A refusal writes the DETAIL of the flow that it names and keeps the rest of it. -/
@[simp] theorem admRefuse_flow (d : Dev) (f shown status detail : Nat) :
    (d.admRefuse (some f) shown status detail).flow f = { d.flow f with detail := BitVec.ofNat 8 detail } := by
  rw [Dev.admRefuse, flow_of_adm (setReg_adm _ _ _), flow_of_adm (setReg_adm _ _ _), flow_of_adm (count_adm _ _ _)]
  exact setFlow_same _ _ _

/-- ADM_REFUSAL_STATUS shows the status. -/
@[simp] theorem admRefuse_status (d : Dev) (named : Option Nat) (shown status detail : Nat) :
    (d.admRefuse named shown status detail).reg admRefusalStatus = BitVec.ofNat 32 status := reg_setReg_same _ _ _

@[simp] theorem fenceRefuse_adm (d : Dev) (kind index addr : Nat) : (d.fenceRefuse kind index addr).adm = d.adm := by
  simp [Dev.fenceRefuse]

/-! ## FLOW_ADMIT (R201, R202, R210) -/

section
variable {d : Dev} {p : List Byte} {f : Nat} {v : Verdict} (hf : getLE 2 p 0 % 4096 = f)
  (hv : d.copiedAll.checkAdmit f (flowOfBytes p) (reservedSet p) = v)
include hf hv

/-- An admission without slots counts, and its flow is LIVE at once. -/
theorem flowAdmit_live (hs : v.status = stOk) (hn : (flowOfBytes p).n = 0) : ∃ y : Flow, y.state = .live ∧
    d.flowAdmit p = ((d.copiedAll.count admAdmitted).setFlow f y, stOk, y.bytes f) := by
  unfold Dev.flowAdmit
  simp only [hf, hv, hs, ne_eq, not_true_eq_false, if_false, hn, if_true]
  exact ⟨_, rfl, rfl⟩

/-- An admission with slots counts, stages them and requests the swap at which its flow goes live. -/
theorem flowAdmit_pending (hs : v.status = stOk) (hn : (flowOfBytes p).n ≠ 0) : ∃ y : Flow, y.state = .pending ∧
    d.flowAdmit p = ((((d.copiedAll.count admAdmitted).setFlow f y).stage (flowOfBytes p).dest.toNat v.slots f).reqSwap
      (flowOfBytes p).dest.toNat, stOk, y.bytes f) := by
  unfold Dev.flowAdmit
  simp only [hf, hv, hs, ne_eq, not_true_eq_false, if_false, hn]
  exact ⟨_, rfl, rfl⟩

/-- An admission that passes answers OK and counts; its flow is PENDING with slots and LIVE without. -/
theorem flowAdmit_admitted (hs : v.status = stOk) : (d.flowAdmit p).2.1 = stOk ∧
    ((d.flowAdmit p).1.flow f).state = (if (flowOfBytes p).n = 0 then .live else .pending) ∧
    ((d.flowAdmit p).1.reg admAdmitted).toNat = min ((d.copiedAll.reg admAdmitted).toNat + 1) 0xFFFFFFFF := by
  have hcount : ((d.copiedAll.count admAdmitted).reg admAdmitted).toNat =
      min ((d.copiedAll.reg admAdmitted).toNat + 1) 0xFFFFFFFF := by
    rw [reg_count_same, BitVec.toNat_ofNat]
    omega
  by_cases hn : (flowOfBytes p).n = 0
  · obtain ⟨y, hy, hx⟩ := flowAdmit_live hf hv hs hn
    rw [hx, if_pos hn]
    exact ⟨rfl, by rw [setFlow_same, hy], hcount⟩
  · obtain ⟨y, hy, hx⟩ := flowAdmit_pending hf hv hs hn
    rw [hx, if_neg hn]
    refine ⟨rfl, ?_, by rw [reqSwap_reg, stage_reg, setFlow_reg, hcount]⟩
    rw [flow_of_adm (reqSwap_adm _ _), flow_of_adm (stage_adm _ _ _ _), setFlow_same, hy]

/-- An admission that fails answers its status behind the bookkeeping of a refusal; only the fence records more. -/
theorem flowAdmit_refused (hs : v.status ≠ stOk) : ∃ (e : Dev) (payload : List Byte), e.adm = d.copiedAll.adm ∧
    d.flowAdmit p = (e.admRefuse (some f) f v.status v.detail, v.status, payload) := by
  unfold Dev.flowAdmit
  simp only [hf, hv, if_pos hs]
  refine ⟨_, _, ?_, rfl⟩
  rw [apply_ite Dev.adm, fenceRefuse_adm, ite_self]

/-- ADM_REFUSAL_STATUS shows the status of an admission that fails; the flow keeps its STATE and takes the DETAIL. -/
theorem flowAdmit_refusal (hs : v.status ≠ stOk) : (d.flowAdmit p).2.1 = v.status ∧
    (d.flowAdmit p).1.reg admRefusalStatus = BitVec.ofNat 32 v.status ∧
    ((d.flowAdmit p).1.flow f).state = (d.copiedAll.flow f).state ∧
    ((d.flowAdmit p).1.flow f).detail = BitVec.ofNat 8 v.detail := by
  obtain ⟨e, payload, he, hx⟩ := flowAdmit_refused hf hv hs
  rw [hx]
  dsimp only
  rw [admRefuse_status, admRefuse_flow, flow_of_adm he]
  exact ⟨rfl, rfl, rfl, rfl⟩

end

/-! ## FLOW_TEARDOWN by STATE (R200, R201, R212) -/

/-- Flow 0 and a FREE flow cannot be torn down. -/
theorem flowTeardown_bad {d : Dev} {f : Nat} (h : f = 0 ∨ (d.copiedAll.flow f).state = .free) :
    (d.flowTeardown f).2.1 = stBadParam ∧ ((d.flowTeardown f).1.flow f).state = (d.copiedAll.flow f).state := by
  unfold Dev.flowTeardown
  dsimp only
  by_cases h0 : f = 0
  · simp only [if_pos h0, admRefuse_flow, and_self]
  · have hfree := h.resolve_left h0
    simp only [if_neg h0, hfree, admRefuse_flow, and_self]

section
variable {d : Dev} {f : Nat} (h0 : f ≠ 0)
include h0

/-- A MOVING flow is busy. -/
theorem flowTeardown_moving (h : (d.copiedAll.flow f).state = .moving) :
    (d.flowTeardown f).2.1 = stBusy ∧ ((d.flowTeardown f).1.flow f).state = .moving := by
  unfold Dev.flowTeardown
  simp only [if_neg h0, h, admRefuse_flow, and_self]

/-- A LIVE flow with slots drains. -/
theorem flowTeardown_reserved (h : (d.copiedAll.flow f).state = .live) (hn : (d.copiedAll.flow f).n ≠ 0) :
    (d.flowTeardown f).2.1 = stOk ∧ ((d.flowTeardown f).1.flow f).state = .draining := by
  unfold Dev.flowTeardown
  simp only [if_neg h0, h, if_neg hn, setFlow_same, and_self]

/-- A LIVE flow without slots is FREE at once. -/
theorem flowTeardown_unreserved (h : (d.copiedAll.flow f).state = .live) (hn : (d.copiedAll.flow f).n = 0) :
    (d.flowTeardown f).2.1 = stOk ∧ ((d.flowTeardown f).1.flow f).state = .free := by
  unfold Dev.flowTeardown
  simp only [if_neg h0, h, if_pos hn, freeFlow_same, true_and]
  rfl

/-- A PENDING flow is FREE at once, its slots out of the staged table. -/
theorem flowTeardown_pending (h : (d.copiedAll.flow f).state = .pending) :
    (d.flowTeardown f).2.1 = stOk ∧ ((d.flowTeardown f).1.flow f).state = .free := by
  unfold Dev.flowTeardown
  simp only [if_neg h0, h, freeFlow_same, true_and]
  rfl

/-- A DRAINING flow goes on draining. -/
theorem flowTeardown_draining (h : (d.copiedAll.flow f).state = .draining) :
    (d.flowTeardown f).2.1 = stOk ∧ ((d.flowTeardown f).1.flow f).state = .draining := by
  unfold Dev.flowTeardown
  simp only [if_neg h0, h, setFlow_same, and_self]

end

/-! ## The refusals of FLOW_REPACK and PAIR_SWITCH (R213, R219, R224) -/

/-- A repack in a shed or a shutdown is busy. -/
theorem flowRepack_shed {d : Dev} (e : Nat) (h : d.copiedAll.shedHold = true) : (d.flowRepack e).2.1 = stBusy := by
  unfold Dev.flowRepack
  simp only [if_pos h]

/-- A repack of an egress in transition is busy. -/
theorem flowRepack_inTransition {d : Dev} {e : Nat} (hs : d.copiedAll.shedHold = false)
    (h : d.copiedAll.inTransition e = true) : (d.flowRepack e).2.1 = stBusy := by
  unfold Dev.flowRepack
  simp only [hs, Bool.false_eq_true, if_false, if_pos h]

/-- A repack of a degraded fabric is refused. -/
theorem flowRepack_degraded {d : Dev} {e : Nat} (hs : d.copiedAll.shedHold = false)
    (ht : d.copiedAll.inTransition e = false) (h : d.copiedAll.degraded = true) : (d.flowRepack e).2.1 = stEndpointState := by
  unfold Dev.flowRepack
  simp only [hs, ht, Bool.false_eq_true, if_false, if_pos h]

/-- A switchover of no declared pair, or to a region outside it, is refused and changes no flow and no pair. -/
theorem pairSwitch_bad {d : Dev} {k target : Nat}
    (h : 5 < k ∨ (target ≠ 2 * k ∧ target ≠ 2 * k + 1) ∨ (d.copiedAll.pair k).declared = false) :
    (d.pairSwitch k target).2.1 = stBadParam ∧ (d.pairSwitch k target).1.adm = d.copiedAll.adm := by
  unfold Dev.pairSwitch
  simp only [if_pos h, admRefuse_none_adm, and_self]

/-! ## Drains (R212, R228) -/

/-- A bit that is set reads as set, where the word has it. -/
theorem bit_setBit_true {n : Nat} (w : BitVec n) (i : Nat) : bit (setBit w i true) i = decide (i < n) := by
  by_cases hi : i < n
  · simp [bit_setBit w hi, hi]
  · rw [bit_eq_getLsbD, BitVec.getLsbD_of_ge _ _ (Nat.le_of_not_lt hi), decide_eq_false hi]

/-- With no cell of a DRAINING flow left, its slots go at the next swap of its egress. -/
theorem flowDrained_done {d : Dev} {f : Nat} (hs : (d.flow f).state = .draining) (ho : (d.flow f).slotsOut = false)
    (hc : d.cellsLeft f (fun _ => true) = false) (hw : d.stagingShut = false) :
    ((d.flowDrained f).flow f).slotsOut = true ∧ ((d.flowDrained f).flow f).swapDue = true ∧
      bit (d.flowDrained f).fab.swapPend (d.flow f).dest.toNat = decide ((d.flow f).dest.toNat < 52) := by
  unfold Dev.flowDrained
  dsimp only
  rw [if_pos (by simp [hs, ho, hc, hw]), flow_of_adm (reqSwap_adm _ _), setFlow_same]
  exact ⟨rfl, rfl, bit_setBit_true _ _⟩

theorem flowDrained_waits {d : Dev} {f : Nat} (h : (d.flow f).state ≠ .draining ∨ (d.flow f).slotsOut = true ∨
    d.cellsLeft f (fun _ => true) = true ∨ d.stagingShut = true) : d.flowDrained f = d := by
  refine if_neg ?_
  rcases h with h | h | h | h <;> simp [h]

/-- A flow that takes part in the swap that is requested (R154). -/
def Flow.inSwap (x : Flow) : Flow := { x with swapDue := true }

/-- The old slots of one flow of a pair leave the staged table of their egress, and the flow takes part in its swap. -/
def Dev.oldSlotsGo (d : Dev) (f : Nat) : Dev :=
  let x := d.flow f
  let d := if x.reserved = false then d
    else if x.altDest = x.dest then (d.unstage x.dest.toNat (f + 4096)).reqSwap x.dest.toNat
    else (d.unstage x.altDest.toNat f).reqSwap x.altDest.toNat
  d.setFlow f (d.flow f).inSwap

/-- The admission engine's records once the old slots of a flow have gone: its mark alone is new. -/
theorem oldSlotsGo_adm (d : Dev) (f : Nat) :
    (d.oldSlotsGo f).adm = (d.setFlow f (d.flow f).inSwap).adm := by
  unfold Dev.oldSlotsGo
  extract_lets x e
  have he : e.adm = d.adm := by
    change (if _ then _ else _ : Dev).adm = _
    simp only [apply_ite Dev.adm, reqSwap_adm, unstage_adm, ite_self]
  rw [flow_of_adm he]
  exact setFlow_adm_congr he f _

/-- Every flow of the list takes part in the swap, and no flow ceases to. -/
theorem forEach_oldSlotsGo_swapDue (fs : List Nat) : ∀ (d : Dev) (g : Nat), g ∈ fs ∨ (d.flow g).swapDue = true →
    ((d.forEach fs Dev.oldSlotsGo).flow g).swapDue = true := by
  induction fs with
  | nil => exact fun d g h => h.resolve_left List.not_mem_nil
  | cons f fs ih =>
    intro d g h
    rw [forEach_cons]
    by_cases hg : g = f
    · refine ih _ g (.inr ?_)
      rw [hg, flow_of_adm (oldSlotsGo_adm d f), setFlow_same]
      rfl
    · refine ih _ g (h.imp (fun hm => (List.mem_cons.1 hm).resolve_left hg) (fun hd => ?_))
      rw [flow_of_adm (oldSlotsGo_adm d f), setFlow_flow_other d hg, hd]

/-- No pair changes as the old slots go. -/
theorem forEach_oldSlotsGo_pairs (fs : List Nat) (d : Dev) : (d.forEach fs Dev.oldSlotsGo).adm.pairs = d.adm.pairs :=
  forEach_frame (fun d => d.adm.pairs) (fun d f => (congrArg AdmState.pairs (oldSlotsGo_adm d f)).trans rfl) fs d

theorem setPair_pair_other (d : Dev) {k j : Nat} (h : j ≠ k) (x : PairState) : (d.setPair k x).pair j = d.pair j :=
  mget_mset_other h _ _

section
variable {d : Dev} {k : Nat}

/-- Cells accepted before B remain in a replay store, in the core, or in a pool (R228). -/
def Dev.oldCellsLeft (d : Dev) (k : Nat) : Bool :=
  (d.pair k).flows.any (fun f => (d.flow f).reserved &&
    d.cellsLeft f (fun c => c.acc && decide (c.num < (d.flow f).movedAt)))

/-- The old slots go where the pair is DRAINING with none out yet, no old cell is left and the window is open. -/
theorem pairDrain_eq : d.pairDrain k =
    if (d.pair k).step = 2 ∧ (d.pair k).slotsOut = false ∧ d.oldCellsLeft k = false ∧ d.stagingShut = false
    then (d.forEach (d.pair k).flows Dev.oldSlotsGo).setPair k { d.pair k with slotsOut := true } else d := by
  have hcond : (decide ((d.pair k).step = 2) && !(d.pair k).slotsOut && !d.oldCellsLeft k && !d.stagingShut) = true ↔
      (d.pair k).step = 2 ∧ (d.pair k).slotsOut = false ∧ d.oldCellsLeft k = false ∧ d.stagingShut = false := by
    simp [and_assoc]
  exact ite_congr (propext hcond) (fun _ => rfl) (fun _ => rfl)

theorem pairDrain_waits (h : (d.pair k).step ≠ 2 ∨ (d.pair k).slotsOut = true ∨ d.oldCellsLeft k = true ∨
    d.stagingShut = true) : d.pairDrain k = d := by
  refine pairDrain_eq.trans (if_neg fun ⟨hs, ho, hc, hw⟩ => ?_)
  simp [hs, ho, hc, hw] at h

end

/-! ## Suspension and resumption (R215 to R219) -/

theorem forEach_log {α : Type} {f : Dev → α → Dev} (h : ∀ d x, (f d x).log = d.log) (xs : List α) (d : Dev) :
    (d.forEach xs f).log = d.log := forEach_frame Dev.log h xs d

/-- The endpoints that are suspended stay so where each turn keeps them. -/
theorem forEach_suspended {α : Type} {f : Dev → α → Dev} (h : ∀ d x, (f d x).adm.suspended = d.adm.suspended)
    (xs : List α) (d : Dev) : (d.forEach xs f).adm.suspended = d.adm.suspended :=
  forEach_frame (fun d => d.adm.suspended) h xs d

@[simp] theorem setFlow_suspended (d : Dev) (f : Nat) (x : Flow) : (d.setFlow f x).adm.suspended = d.adm.suspended := rfl
@[simp] theorem logEntry_intake (d : Dev) (c src : Nat) (p : Path) (x : List Byte) (fl : List Nat) :
    (d.logEntry c src p x fl).log.intake =
      d.log.intake ++ [{ time := d.ns, code := c, source := src, path := p.toWord, data := x, flows := fl }] := rfl
@[simp] theorem dropReplay_log (d : Dev) (e f : Nat) : (d.dropReplay e f).log = d.log := rfl
@[simp] theorem dropReplay_adm (d : Dev) (e f : Nat) : (d.dropReplay e f).adm = d.adm := rfl
@[simp] theorem dropPool_log (d : Dev) (e f : Nat) : (d.dropPool e f).log = d.log := by simp [Dev.dropPool]
@[simp] theorem dropPool_adm (d : Dev) (e f : Nat) : (d.dropPool e f).adm = d.adm := by simp [Dev.dropPool]
@[simp] theorem suspendFlow_log (d : Dev) (e f : Nat) : (d.suspendFlow e f).log = d.log := by simp [Dev.suspendFlow]
@[simp] theorem suspendFlow_suspended (d : Dev) (e f : Nat) : (d.suspendFlow e f).adm.suspended = d.adm.suspended := by
  simp [Dev.suspendFlow]

/-- An endpoint with a cause is suspended, with an entry for the log. -/
theorem suspendEp_suspends {d : Dev} {e : Nat} (hs : d.suspendedEp e = false) (hc : d.epCauses e ≠ 0) :
    (d.suspendEp e).adm.suspended = setBit d.adm.suspended e true ∧
      ∃ n, (d.suspendEp e).log.intake = d.log.intake ++ [n] ∧ n.code = 0x20 := by
  unfold Dev.suspendEp
  dsimp only
  rw [if_neg (not_or.2 ⟨Bool.eq_false_iff.1 hs, hc⟩)]
  refine ⟨?_, _, (logEntry_intake _ _ _ _ _ _).trans (congrArg (· ++ [_]) ?_), rfl⟩
  · rw [logEntry_adm, forEach_suspended, forEach_suspended, forEach_suspended] <;> intros <;> simp
  · rw [forEach_log, forEach_log, forEach_log] <;> intros <;> simp

theorem suspendEp_stays {d : Dev} {e : Nat} (h : d.suspendedEp e = true ∨ d.epCauses e = 0) : d.suspendEp e = d := if_pos h

/-- What RESUME sees first: the end of the hive's reset at endpoint 48, and the transmitter of a lane (R218, R246). -/
def Dev.resumeSees (d : Dev) (e : Nat) : Dev :=
  if e = 48 then d.hiveResetEnds else if e < 16 then d.txAgain e else d

theorem hiveResetEnds_frame (d : Dev) : d.hiveResetEnds.log = d.log ∧ d.hiveResetEnds.adm = d.adm := by
  unfold Dev.hiveResetEnds
  split <;> exact ⟨rfl, rfl⟩

theorem txAgain_frame (d : Dev) (e : Nat) : (d.txAgain e).log = d.log ∧ (d.txAgain e).adm = d.adm := by
  unfold Dev.txAgain
  split <;> exact ⟨rfl, rfl⟩

/-- What it sees is no entry of the log and no record of the admission engine. -/
theorem resumeSees_frame (d : Dev) (e : Nat) : (d.resumeSees e).log = d.log ∧ (d.resumeSees e).adm = d.adm := by
  unfold Dev.resumeSees
  split
  · exact hiveResetEnds_frame d
  · split
    · exact txAgain_frame d e
    · exact ⟨rfl, rfl⟩

/-- The two conditions of RESUME are those of an endpoint of one kind. -/
theorem resumeSees_eq (d : Dev) (e : Nat) :
    (d.cond (decide (e = 48)) Dev.hiveResetEnds).cond (isLaneEp e) (fun d => d.txAgain e) = d.resumeSees e := by
  unfold Dev.resumeSees
  by_cases h48 : e = 48
  · simp [h48, Dev.cond, isLaneEp]
  · simp [h48, Dev.cond, isLaneEp]

/-- An endpoint whose causes have gone resumes, with an entry for the log. -/
theorem resumeEp_resumes {d : Dev} {e : Nat} (hs : (d.resumeSees e).suspendedEp e = true)
    (hc : (d.resumeSees e).epCauses e = 0) :
    (d.resumeEp e).adm.suspended = setBit d.adm.suspended e false ∧
      ∃ n, (d.resumeEp e).log.intake = d.log.intake ++ [n] ∧ n.code = 0x21 := by
  obtain ⟨hlog, hadm⟩ := resumeSees_frame d e
  unfold Dev.resumeEp
  dsimp only
  rw [resumeSees_eq, if_pos ⟨hs, hc⟩]
  refine ⟨?_, _, (logEntry_intake _ _ _ _ _ _).trans (congrArg (· ++ [_]) ?_), rfl⟩
  · rw [logEntry_adm, forEach_suspended, forEach_suspended] <;> intros <;> simp [hadm]
  · rw [forEach_log, forEach_log] <;> intros <;> simp [hlog]

theorem resumeEp_stays {d : Dev} {e : Nat} (h : (d.resumeSees e).suspendedEp e = false ∨ (d.resumeSees e).epCauses e ≠ 0) :
    d.resumeEp e = d.resumeSees e := by
  unfold Dev.resumeEp
  dsimp only
  rw [resumeSees_eq]
  exact if_neg (fun ⟨hs, hc⟩ => h.elim (fun h => Bool.eq_false_iff.1 h hs) (fun h => h hc))

/-- One endpoint's mark leaves that of every other. -/
theorem suspendedEp_of_setBit {d d' : Dev} {e : Fin 52} {b : Bool} (h : d'.adm.suspended = setBit d.adm.suspended e b) :
    d'.suspendedEp e = b ∧ ∀ i : Fin 52, i ≠ e → d'.suspendedEp i = d.suspendedEp i := by
  have hbit (i : Nat) : d'.suspendedEp i = if i = e then b else d.suspendedEp i := by
    rw [Dev.suspendedEp, h, bit_setBit _ e.isLt]
    rfl
  exact ⟨by rw [hbit, if_pos rfl], fun i hi => by rw [hbit, if_neg (Fin.val_ne_of_ne hi)]⟩

/-! ## ADM_FLOW_SEL (R233, R239) -/

theorem bits_zero {n : Nat} (w : BitVec n) (len : Nat) : bits w 0 len = w.toNat % 2 ^ len := rfl

/-- What a change of the admission engine's records leaves. -/
theorem withAdm_idReg (d : Dev) (a : AdmState) (id o : Nat) : ({ d with adm := a } : Dev).idReg id o = d.idReg id o := rfl
theorem withAdm_regs (d : Dev) (a : AdmState) : ({ d with adm := a } : Dev).regs = d.regs := rfl
theorem withAdm_quiet {d : Dev} (h : d.Quiet) (a : AdmState) : ({ d with adm := a } : Dev).Quiet := h

section
variable (d : Dev) (id : Fin 13) (v : Word)

theorem quiet_admSelWrite {d : Dev} (h : d.Quiet) : (d.admSelWrite id v).Quiet :=
  withAdm_quiet (quiet_setIdReg h) _

/-- The selector holds the flow ID for its writer alone. -/
theorem admSelWrite_idReg : ((d.admSelWrite id v).idReg id admFlowSel).toNat = v.toNat % 4096 := by
  rw [Dev.admSelWrite, withAdm_idReg, idReg_setIdReg_same, bits_zero, BitVec.toNat_ofNat]
  omega

/-- The write changes the writer's snapshot alone among the engine's records: it takes the descriptor of the flow. -/
theorem admSelWrite_adm : (d.admSelWrite id v).adm =
    { d.adm with snaps := mset (fun _ => zeros 64) d.adm.snaps id.val (d.flowQuery (v.toNat % 4096)) } := by
  unfold Dev.admSelWrite
  dsimp only
  rw [setIdReg_adm, bits_zero, Dev.flowQuery, flow_of_adm (setIdReg_adm _ _ _ _)]
  rfl

theorem admSelWrite_snap_same : mget (fun _ => zeros 64) (d.admSelWrite id v).adm.snaps id.val =
    (d.flow (v.toNat % 4096)).bytes (v.toNat % 4096) := by
  rw [admSelWrite_adm]
  dsimp only
  rw [mget_mset_same, Dev.flowQuery]

theorem admSelWrite_snap_other {i : Nat} (h : i ≠ id.val) :
    mget (fun _ => zeros 64) (d.admSelWrite id v).adm.snaps i = mget (fun _ => zeros 64) d.adm.snaps i := by
  rw [admSelWrite_adm]
  dsimp only
  rw [mget_mset_other h]

theorem admSelWrite_flows : (d.admSelWrite id v).adm.flows = d.adm.flows := by rw [admSelWrite_adm]

theorem admSelWrite_regs : (d.admSelWrite id v).regs = d.regs :=
  (withAdm_regs _ _).trans (setIdReg_regs d _ _ _)

end

/-! ## The statement -/

/-- Settles O54: the engine takes a request up or leaves it, and each request, drain, suspension and selection is the lemma
of its own operation under the end of its command. -/
theorem admissionEngineServesItsRequests : Obligations.AdmissionEngineServesItsRequests := by
  unfold Obligations.AdmissionEngineServesItsRequests
  refine ⟨?waits, ?answers, ?behind, ?query, ?admission, ?teardown, ?repack, ?switch, ?drain, ?pairDrain, ?suspend, ?resume,
    ?select⟩
  case waits =>
    intro s h
    refine ⟨?_, ?_, ?_, ?_, ?_⟩ <;> exact congrArg (finish s) (engine_waits h _ _)
  case answers =>
    intro r rest s hw hl d
    refine ⟨fun h => ⟨fun hlen => ?_, fun hlen => ?_⟩, fun h => ⟨fun hp => ?_, fun a hp => ?_⟩,
      fun h => ⟨fun hp => ?_, fun a hp => ?_⟩, fun h => ⟨fun hp => ?_, fun a hp => ?_⟩⟩
    · exact engine_answers hw hl h ((checkParams_length r 32).trans (if_pos hlen)) (fun d r => d.flowAdmit r.params)
    · exact engine_refuses hw hl h ((checkParams_length r 32).trans (if_neg hlen)) _
    · exact engine_answers hw hl h hp (fun d r => d.flowTeardown (r.u 2 0))
    · exact engine_refuses hw hl h hp _
    · exact engine_answers hw hl h hp (fun d r => d.flowRepack (r.u 1 0))
    · exact engine_refuses hw hl h hp _
    · exact engine_answers hw hl h hp (fun d r => d.pairSwitch (r.u 1 0) (r.u 1 1))
    · exact engine_refuses hw hl h hp _
  case behind =>
    intro r rest s hw hl hb d goOn
    refine ⟨fun h hlen => ?_, fun h hp => ?_, fun h hp => ?_, fun h hp => ?_, fun h hp => ?_⟩
    · exact engine_answers_loadBehind hw hl hb h ((checkParams_length r 32).trans (if_pos hlen))
        (engineRequest_admission (takes_opcode h) hlen) (fun d r => d.flowAdmit r.params)
    · exact engine_answers_loadBehind hw hl hb h hp (engineRequest_teardown (takes_opcode h) hp)
        (fun d r => d.flowTeardown (r.u 2 0))
    · exact engine_answers_loadBehind hw hl hb h hp (engineRequest_repack (takes_opcode h) hp)
        (fun d r => d.flowRepack (r.u 1 0))
    · exact engine_answers_loadBehind hw hl hb h hp (engineRequest_switch (takes_opcode h) hp)
        (fun d r => d.pairSwitch (r.u 1 0) (r.u 1 1))
    · exact engine_answers_loadBehind hw hl hb h hp (engineRequest_query (takes_opcode h) hp)
        (fun d r => (d, stOk, d.flowQuery (r.u 2 0)))
  case query =>
    intro r rest s hw hl h hp
    exact engine_answers hw hl h hp (fun d r => (d, stOk, d.flowQuery (r.u 2 0)))
  case admission =>
    intro d p f v x
    exact ⟨flowAdmit_admitted rfl rfl, flowAdmit_refusal rfl rfl⟩
  case teardown =>
    intro d f o x
    exact ⟨flowTeardown_bad, flowTeardown_moving, flowTeardown_reserved, flowTeardown_unreserved, flowTeardown_pending,
      flowTeardown_draining⟩
  case repack => exact fun d e => ⟨flowRepack_shed e, flowRepack_inTransition, flowRepack_degraded⟩
  case switch => exact fun d k target => pairSwitch_bad
  case drain =>
    intro f s
    exact ⟨fun hs ho hc hw => ⟨_, rfl, flowDrained_done hs ho hc hw⟩, fun h => congrArg (finish s) (flowDrained_waits h)⟩
  case pairDrain =>
    intro k s left
    refine ⟨fun hs ho hc hw =>
        ⟨_, congrArg (finish s) (pairDrain_eq.trans (if_pos ⟨hs, ho, hc, hw⟩)), setPair_same _ _ _, ?_, ?_⟩,
      fun h => congrArg (finish s) (pairDrain_waits h)⟩
    · intro j hj
      rw [setPair_pair_other _ (Fin.val_ne_of_ne hj), Dev.pair, forEach_oldSlotsGo_pairs]
      rfl
    · exact fun f hf _ => forEach_oldSlotsGo_swapDue _ _ f (.inl hf)
  case suspend =>
    intro e s
    refine ⟨fun hs hc => ?_, fun h => congrArg (finish s) (suspendEp_stays h)⟩
    obtain ⟨hsusp, n, hlog, hcode⟩ := suspendEp_suspends hs hc
    obtain ⟨hself, hother⟩ := suspendedEp_of_setBit hsusp
    exact ⟨_, n, rfl, hself, hlog, hcode, hother⟩
  case resume =>
    intro e s x
    refine ⟨fun hs hc => ?_, fun h => congrArg (finish s) (resumeEp_stays h)⟩
    obtain ⟨hsusp, n, hlog, hcode⟩ := resumeEp_resumes hs hc
    obtain ⟨hself, hother⟩ := suspendedEp_of_setBit hsusp
    exact ⟨_, n, rfl, hself, hlog, hcode, hother⟩
  case select =>
    intro id v s hp hq
    refine ⟨_, finishBy_active hp _, ?_⟩
    rw [after_dev_quiet s (quiet_admSelWrite id v hq), settle_idReg, settle_adm, settle_regs]
    exact ⟨admSelWrite_idReg _ id v, admSelWrite_snap_same _ id v,
      fun i hi => admSelWrite_snap_other _ id v (Fin.val_ne_of_ne hi), admSelWrite_regs _ id v, admSelWrite_flows _ id v⟩

end Sys2Proof.Machine
end
